-- ==== Sys2Proof/Word.lean ====
section
/-!
DEFINITION. The widths the manual works in: bytes of a frame, 16-bit fields, cell-clock values, and the two kinds of set it
sends as bits (R183, R184).
-/

namespace Sys2Proof

/-- One byte of a frame, a body or a record. -/
abbrev Byte := BitVec 8

/-- A 16-bit field: session, message and generation numbers, word points, counts (R183). -/
abbrev Half := BitVec 16

/-- A cell-clock value, a count of milliseconds modulo 2^32 (R17). -/
abbrev Clock := BitVec 32

/-- A set of ports: bit 0 for A, 1 for B, 2 for C, 3 for D (R184). -/
abbrev PortSet := BitVec 4

/-- A set of attention causes: bit 0 MESSAGE, 1 WATCH, 2 TOKEN, 3 ZONE, 4 PEER, 5 FAULT (R184). -/
abbrev CauseSet := BitVec 6

end Sys2Proof
end

