-- ==== Sys2Proof/Config.lean ====
section
/-!
DEFINITION. What the part fixes (the capacities of the overview and of R16, R40, R53, R117, R136, R142, R171) and the one
free value of the model.
-/

namespace Sys2Proof

/-- R16: the vendor code. -/
def Config.vendorCode : Half := 0x6B02
/-- R16: the part code. -/
def Config.partCode : Half := 0x0C04
/-- R16: the revision. -/
def Config.revision : Byte := 2
/-- R40: bit points of the image. -/
def Config.bitPoints : Nat := 4096
/-- R40: word points of the image. -/
def Config.wordPoints : Nat := 1024
/-- R40: bits of the system zone, 0 to 127. -/
def Config.systemBits : Nat := 128
/-- R40: words of the system zone, 0 to 95. -/
def Config.systemWords : Nat := 96
/-- R45: the definable zones are 1 to 31. -/
def Config.zoneCount : Nat := 31
/-- R53: capacity of the safe store in bit points. -/
def Config.safeBits : Nat := 1024
/-- R53: capacity of the safe store in word points. -/
def Config.safeWords : Nat := 256
/-- R100: tokens 0 to 15. -/
def Config.tokenCount : Nat := 16
/-- R117: timers 0 to 31. -/
def Config.timerCount : Nat := 32
/-- R136: message buffers 0 to 63. -/
def Config.bufferCount : Nat := 64
/-- R136: payload bytes of one buffer. -/
def Config.payloadBytes : Nat := 60
/-- R139: buffers in use per sending session. -/
def Config.sessionBuffers : Nat := 24
/-- R157: watch slots of a session. -/
def Config.slotCount : Nat := 8
/-- R171: entries of the fault list. -/
def Config.faultEntries : Nat := 16
/-- R5, R8: the largest request frame in bytes. -/
def Config.largestRequest : Nat := 264
/-- R12: the largest reply frame in bytes. -/
def Config.largestReply : Nat := 520

/-- R69, R126: how many notices one write event's chain may hold before the model stops following it. Under the law R126
keeps, a chain holds fewer (DEDUCED, entry 6). -/
def Config.chainLimit : Nat := 64

/-- FREE VALUE (entry 5). The k-th choice of order among write events and fault raises of different blocks at one event,
which R61, R70, R71, R92 and R176 leave open. No body: nothing can be proved of its values. -/
opaque Config.freeOrder : Nat → Nat

end Sys2Proof
end

