-- ==== Sys2Proof/Syntax.lean ====
section
/-!
DEFINITION. The commands of the part: one constructor for each row of spec/opcode_table.json, with the row's operands.
-/

namespace Sys2Proof

/-- The four port links (overview, Ports and origins). -/
inductive Port where
  | A | B | C | D
deriving DecidableEq, Repr

/-- The request kinds of R186. -/
inductive Kind where
  | identify
  | join
  | leave
  | ping
  | defineZone
  | retireZone
  | setZonePolicy
  | loadSafeImage
  | queryZone
  | publish
  | snapshot
  | readPoints
  | claim
  | release
  | handOver
  | acquire
  | releaseToken
  | cancelWait
  | setTokenLimit
  | queryTokens
  | setTimer
  | resetTimer
  | freeTimer
  | queryTimer
  | send
  | receive
  | flushQueue
  | setCoalesce
  | setWatch
  | clearWatch
  | readAttention
  | setAttentionMask
  | raiseFault
  | clearFault
  | ackFault
  | readFaults
deriving DecidableEq, Repr

/-- The commands. A request row is the arrival of that request (R11): the port, and the frame's tag, session field and body.
A `body` is the bytes between the session field and the check value (R185). -/
inductive Instr where
  /-- SELECTION_START (R2). -/
  | selectionStart (port : Port)
  /-- STATUS_BYTE_COMPLETE (R4). -/
  | statusByteComplete (port : Port)
  /-- SELECTION_END (R6). -/
  | selectionEnd (port : Port)
  /-- UNKNOWN_KIND (R11). -/
  | unknownKind (port : Port) (tag : Byte) (kind : Byte) (session : Half) (body : List Byte)
  /-- IDENTIFY (R15). -/
  | identify (port : Port) (tag : Byte) (session : Half) (body : List Byte)
  /-- JOIN (R26). -/
  | join (port : Port) (tag : Byte) (session : Half) (body : List Byte)
  /-- LEAVE (R29). -/
  | leave (port : Port) (tag : Byte) (session : Half) (body : List Byte)
  /-- PING (R30). -/
  | ping (port : Port) (tag : Byte) (session : Half) (body : List Byte)
  /-- CELL_CLOCK_ADVANCE (R17). -/
  | cellClockAdvance
  /-- MONITOR_FIRST_EXPIRY (R31). -/
  | monitorFirstExpiry (port : Port)
  /-- MONITOR_SECOND_EXPIRY (R32). -/
  | monitorSecondExpiry (port : Port)
  /-- DEFINE_ZONE (R48). -/
  | defineZone (port : Port) (tag : Byte) (session : Half) (body : List Byte)
  /-- RETIRE_ZONE (R55). -/
  | retireZone (port : Port) (tag : Byte) (session : Half) (body : List Byte)
  /-- SET_ZONE_POLICY (R51). -/
  | setZonePolicy (port : Port) (tag : Byte) (session : Half) (body : List Byte)
  /-- LOAD_SAFE_IMAGE (R54). -/
  | loadSafeImage (port : Port) (tag : Byte) (session : Half) (body : List Byte)
  /-- QUERY_ZONE (R58). -/
  | queryZone (port : Port) (tag : Byte) (session : Half) (body : List Byte)
  /-- PUBLISH (R62). -/
  | publish (port : Port) (tag : Byte) (session : Half) (body : List Byte)
  /-- SNAPSHOT (R73). -/
  | snapshot (port : Port) (tag : Byte) (session : Half) (body : List Byte)
  /-- READ_POINTS (R75). -/
  | readPoints (port : Port) (tag : Byte) (session : Half) (body : List Byte)
  /-- CLAIM (R82). -/
  | claim (port : Port) (tag : Byte) (session : Half) (body : List Byte)
  /-- RELEASE (R84). -/
  | release (port : Port) (tag : Byte) (session : Half) (body : List Byte)
  /-- HAND_OVER (R85). -/
  | handOver (port : Port) (tag : Byte) (session : Half) (body : List Byte)
  /-- TAKEOVER_DEADLINE_EXPIRY (R93). -/
  | takeoverDeadlineExpiry (zone : Nat)
  /-- ACQUIRE (R105). -/
  | acquire (port : Port) (tag : Byte) (session : Half) (body : List Byte)
  /-- RELEASE_TOKEN (R107). -/
  | releaseToken (port : Port) (tag : Byte) (session : Half) (body : List Byte)
  /-- CANCEL_WAIT (R108). -/
  | cancelWait (port : Port) (tag : Byte) (session : Half) (body : List Byte)
  /-- SET_TOKEN_LIMIT (R109). -/
  | setTokenLimit (port : Port) (tag : Byte) (session : Half) (body : List Byte)
  /-- QUERY_TOKENS (R110). -/
  | queryTokens (port : Port) (tag : Byte) (session : Half) (body : List Byte)
  /-- HOLD_DEADLINE_EXPIRY (R111). -/
  | holdDeadlineExpiry (token : Nat)
  /-- TIMER_TICK (R119). -/
  | timerTick
  /-- SET_TIMER (R126). -/
  | setTimer (port : Port) (tag : Byte) (session : Half) (body : List Byte)
  /-- RESET_TIMER (R128). -/
  | resetTimer (port : Port) (tag : Byte) (session : Half) (body : List Byte)
  /-- FREE_TIMER (R129). -/
  | freeTimer (port : Port) (tag : Byte) (session : Half) (body : List Byte)
  /-- QUERY_TIMER (R130). -/
  | queryTimer (port : Port) (tag : Byte) (session : Half) (body : List Byte)
  /-- SEND (R142). -/
  | send (port : Port) (tag : Byte) (session : Half) (body : List Byte)
  /-- RECEIVE (R145). -/
  | receive (port : Port) (tag : Byte) (session : Half) (body : List Byte)
  /-- FLUSH_QUEUE (R148). -/
  | flushQueue (port : Port) (tag : Byte) (session : Half) (body : List Byte)
  /-- SET_COALESCE (R149). -/
  | setCoalesce (port : Port) (tag : Byte) (session : Half) (body : List Byte)
  /-- COALESCE_DEADLINE_EXPIRY (R151). -/
  | coalesceDeadlineExpiry (port : Port)
  /-- SET_WATCH (R161). -/
  | setWatch (port : Port) (tag : Byte) (session : Half) (body : List Byte)
  /-- CLEAR_WATCH (R162). -/
  | clearWatch (port : Port) (tag : Byte) (session : Half) (body : List Byte)
  /-- READ_ATTENTION (R166). -/
  | readAttention (port : Port) (tag : Byte) (session : Half) (body : List Byte)
  /-- SET_ATTENTION_MASK (R167). -/
  | setAttentionMask (port : Port) (tag : Byte) (session : Half) (body : List Byte)
  /-- RAISE_FAULT (R175). -/
  | raiseFault (port : Port) (tag : Byte) (session : Half) (body : List Byte)
  /-- CLEAR_FAULT (R178). -/
  | clearFault (port : Port) (tag : Byte) (session : Half) (body : List Byte)
  /-- ACK_FAULT (R179). -/
  | ackFault (port : Port) (tag : Byte) (session : Half) (body : List Byte)
  /-- READ_FAULTS (R180). -/
  | readFaults (port : Port) (tag : Byte) (session : Half) (body : List Byte)
  /-- WARM_RESET (R19). -/
  | warmReset
  /-- RSTN_RISE (R19). -/
  | rstnRise
  /-- POWER_ON_RESET (R20). -/
  | powerOnReset (selAsserted : PortSet)
  /-- POWER_ON_RESET_END (R20). -/
  | powerOnResetEnd (rstnLow : Bool)
  /-- FREE_BUFFER_WORD_WRITE (R156). -/
  | freeBufferWordWrite
  /-- BYTE_SHIFTED (R5). -/
  | byteShifted (port : Port) (byte : Byte)
  /-- IGNORED_SELECTION_END (R19). -/
  | ignoredSelectionEnd (port : Port)
deriving DecidableEq, Repr

end Sys2Proof
end

