-- ==== Sys2Proof/Decode.lean ====
section
/-!
DEFINITION. The kind codes of R186, and the reading of a command from a word of the opcode table. No row of the table gives
bits, so no word spells a command (entry 13).
-/

namespace Sys2Proof

/-- R186: the code of each request kind. -/
def Kind.code : Kind → Byte
  | .identify => 0x01
  | .join => 0x02
  | .leave => 0x03
  | .ping => 0x04
  | .defineZone => 0x10
  | .retireZone => 0x11
  | .setZonePolicy => 0x12
  | .loadSafeImage => 0x13
  | .queryZone => 0x14
  | .publish => 0x20
  | .snapshot => 0x21
  | .readPoints => 0x22
  | .claim => 0x28
  | .release => 0x29
  | .handOver => 0x2A
  | .acquire => 0x30
  | .releaseToken => 0x31
  | .cancelWait => 0x32
  | .setTokenLimit => 0x33
  | .queryTokens => 0x34
  | .setTimer => 0x38
  | .resetTimer => 0x39
  | .freeTimer => 0x3A
  | .queryTimer => 0x3B
  | .send => 0x40
  | .receive => 0x41
  | .flushQueue => 0x42
  | .setCoalesce => 0x43
  | .setWatch => 0x48
  | .clearWatch => 0x49
  | .readAttention => 0x4A
  | .setAttentionMask => 0x4B
  | .raiseFault => 0x50
  | .clearFault => 0x51
  | .ackFault => 0x52
  | .readFaults => 0x53

/-- Every request kind, in the order of their codes. -/
def Kind.all : List Kind :=
  [.identify, .join, .leave, .ping, .defineZone,
   .retireZone, .setZonePolicy, .loadSafeImage, .queryZone, .publish,
   .snapshot, .readPoints, .claim, .release, .handOver,
   .acquire, .releaseToken, .cancelWait, .setTokenLimit, .queryTokens,
   .setTimer, .resetTimer, .freeTimer, .queryTimer, .send,
   .receive, .flushQueue, .setCoalesce, .setWatch, .clearWatch,
   .readAttention, .setAttentionMask, .raiseFault, .clearFault, .ackFault,
   .readFaults]

/-- R186: the kind that a kind code names; none for a code that names no request (R11). -/
def Kind.ofCode (code : Byte) : Option Kind :=
  Kind.all.find? fun k => k.code == code

/-- The command that a word of `nbits` bits spells. No row of the table gives bits. -/
def decodeTableWord (_nbits _w : Nat) : Option Instr := none

end Sys2Proof
end

