-- ==== Sys2Proof/WellFormed.lean ====
section
/-!
DEFINITION. When a command is one that the outside world can give the part.
-/

namespace Sys2Proof

/-- R8, R185: a request frame is at most 264 bytes, so its body is at most 256. -/
def bodyFits (body : List Byte) : Bool := body.length ≤ 256

/-- A command is well-formed when its body fits in a frame, its zone and token number exist, and an UNKNOWN_KIND's code names
no request (R11). -/
def Instr.wellFormed : Instr → Bool
  | .selectionStart _ => true
  | .statusByteComplete _ => true
  | .selectionEnd _ => true
  | .unknownKind _ _ kind _ body => (Kind.ofCode kind).isNone && bodyFits body
  | .identify _ _ _ body => bodyFits body
  | .join _ _ _ body => bodyFits body
  | .leave _ _ _ body => bodyFits body
  | .ping _ _ _ body => bodyFits body
  | .cellClockAdvance => true
  | .monitorFirstExpiry _ => true
  | .monitorSecondExpiry _ => true
  | .defineZone _ _ _ body => bodyFits body
  | .retireZone _ _ _ body => bodyFits body
  | .setZonePolicy _ _ _ body => bodyFits body
  | .loadSafeImage _ _ _ body => bodyFits body
  | .queryZone _ _ _ body => bodyFits body
  | .publish _ _ _ body => bodyFits body
  | .snapshot _ _ _ body => bodyFits body
  | .readPoints _ _ _ body => bodyFits body
  | .claim _ _ _ body => bodyFits body
  | .release _ _ _ body => bodyFits body
  | .handOver _ _ _ body => bodyFits body
  | .takeoverDeadlineExpiry zone => decide (1 ≤ zone ∧ zone ≤ Config.zoneCount)
  | .acquire _ _ _ body => bodyFits body
  | .releaseToken _ _ _ body => bodyFits body
  | .cancelWait _ _ _ body => bodyFits body
  | .setTokenLimit _ _ _ body => bodyFits body
  | .queryTokens _ _ _ body => bodyFits body
  | .holdDeadlineExpiry token => decide (token < Config.tokenCount)
  | .timerTick => true
  | .setTimer _ _ _ body => bodyFits body
  | .resetTimer _ _ _ body => bodyFits body
  | .freeTimer _ _ _ body => bodyFits body
  | .queryTimer _ _ _ body => bodyFits body
  | .send _ _ _ body => bodyFits body
  | .receive _ _ _ body => bodyFits body
  | .flushQueue _ _ _ body => bodyFits body
  | .setCoalesce _ _ _ body => bodyFits body
  | .coalesceDeadlineExpiry _ => true
  | .setWatch _ _ _ body => bodyFits body
  | .clearWatch _ _ _ body => bodyFits body
  | .readAttention _ _ _ body => bodyFits body
  | .setAttentionMask _ _ _ body => bodyFits body
  | .raiseFault _ _ _ body => bodyFits body
  | .clearFault _ _ _ body => bodyFits body
  | .ackFault _ _ _ body => bodyFits body
  | .readFaults _ _ _ body => bodyFits body
  | .warmReset => true
  | .rstnRise => true
  | .powerOnReset _ => true
  | .powerOnResetEnd _ => true
  | .freeBufferWordWrite => true
  | .byteShifted _ _ => true
  | .ignoredSelectionEnd _ => true

end Sys2Proof
end

