-- ==== Sys2Proof/Machine/State.lean ====
section
/-!
DEFINITION. The state of the part, as plain data: every item that R1, R17, R18, R21, R22, R40 to R45, R100, R117, R136 to
R141, R157, R158 and R171 give it, and the queue of waiting commands.
-/

namespace Sys2Proof.Machine

/-- One value for each of the four ports. -/
structure PerPort (α : Type) where
  a : α
  b : α
  c : α
  d : α
deriving DecidableEq, Repr

/-- The value of a port. -/
def PerPort.get {α : Type} (x : PerPort α) : Port → α
  | .A => x.a
  | .B => x.b
  | .C => x.c
  | .D => x.d

/-- The same values but for one port. -/
def PerPort.set {α : Type} (x : PerPort α) (p : Port) (v : α) : PerPort α :=
  match p with
  | .A => { x with a := v }
  | .B => { x with b := v }
  | .C => { x with c := v }
  | .D => { x with d := v }

/-- One value for all ports. -/
def PerPort.fill {α : Type} (v : α) : PerPort α := ⟨v, v, v, v⟩

/-- A sparse table: numbers and values, in the canonical form `Memory.wf` (entry 14). What an unlisted number reads as is an
argument of `Memory.read`. -/
abbrev Memory (β : Type) := List (Nat × β)

/-- Whether the part runs (R19, R20): `powerOn` while the internal power-on reset is active, `held` while RSTN is low after
a warm reset or was low when the power-on reset ended, `running` otherwise. -/
inductive ResetPhase where
  | powerOn | held | running
deriving DecidableEq, Repr

/-- R1: the selection state of a link. IDLE is PpSEL negated, the other two are PpSEL asserted. -/
inductive Selection where
  | idle | selected | ignored
deriving DecidableEq, Repr

/-- R1: the state of a port link. -/
structure Link where
  selection : Selection
  received : List Byte
  /-- R5: a byte beyond the 264th was other than 00 hex. -/
  excess : Bool
  captured : Option Byte
  reply : Option (List Byte)
  position : Nat
  discarded : Bool
  refused : Bool
  discardedCount : Half
  refusedCount : Half
deriving DecidableEq, Repr

/-- A session: its port and its number (R21). -/
structure SessionRef where
  port : Port
  number : Half
deriving DecidableEq, Repr

/-- R21: what a port record holds with a current session. -/
structure Membership where
  number : Half
  monitorTime : Byte
  deadline : Clock
  lateCount : Half
deriving DecidableEq, Repr

/-- R21: a port record. Session number, monitor time, deadline and LATE count stand with ONLINE and LATE alone; the LOST
condition holds with LOST alone (entry 15). -/
inductive PortRecord where
  | offline
  | online (m : Membership)
  | late (m : Membership)
  | lost
deriving DecidableEq, Repr

/-- R53, R54: the safe image of a SUBSTITUTE zone. -/
structure SafeImage where
  loaded : Bool
  bits : List Bool
  words : List Half
deriving DecidableEq, Repr

/-- R45, R88: the loss policy; the safe image is present exactly in SUBSTITUTE. -/
inductive LossPolicy where
  | hold
  | clear
  | substitute (image : SafeImage)
deriving DecidableEq, Repr

/-- R45, R78: the state of a defined zone, with the owner that OWNED records and the deadline that HANDOVER records. -/
inductive ZoneStatus where
  | owned (owner : SessionRef)
  | vacant
  | handover (deadline : Clock)
  | orphaned
deriving DecidableEq, Repr

/-- R45: the record of a defined zone. -/
structure ZoneRecord where
  status : ZoneStatus
  bitFirst : Nat
  bitCount : Nat
  wordFirst : Nat
  wordCount : Nat
  standby : Option Port
  delay : Byte
  policy : LossPolicy
  rights : PortSet
  generation : Half
  tenure : Byte
  lastTime : Clock
  lastEpoch : Byte
deriving DecidableEq, Repr

/-- R43: what changes in the record of zone 0. Its other fields are constants (R42). -/
structure SystemZone where
  generation : Half
  lastTime : Clock
  lastEpoch : Byte
deriving DecidableEq, Repr

/-- R100: what a HELD token records. -/
structure Hold where
  holder : SessionRef
  grantTime : Clock
  deadline : Option Clock
deriving DecidableEq, Repr

/-- R100: a token record; FREE is no hold. -/
structure Token where
  hold : Option Hold
  limit : Byte
  waiters : List SessionRef
  broken : Bool
deriving DecidableEq, Repr

/-- R117: the timer kinds. -/
inductive TimerKind where
  | delay | offDelay | retain
deriving DecidableEq, Repr

/-- R117: the timer bases, 1, 10 and 100 ms. -/
inductive Base where
  | ms1 | ms10 | ms100
deriving DecidableEq, Repr

/-- R117: the timer phases. -/
inductive Phase where
  | idle | timing | done | on | holding
deriving DecidableEq, Repr

/-- R117: the record of an ARMED timer. `timingSince` is the clock value at which its TIMING phase began (R119). -/
structure Armed where
  kind : TimerKind
  source : Nat
  resetBit : Option Nat
  base : Base
  preset : Half
  count : Half
  done : Bool
  phase : Phase
  timingSince : Clock
  session : Option SessionRef
  sourceUndefined : Bool
deriving DecidableEq, Repr

/-- R136: what an IN_USE buffer holds. Its length is its payload's. -/
structure Buffer where
  sender : SessionRef
  number : Half
  urgent : Bool
  returnFlag : Bool
  broadcast : Bool
  payload : List Byte
  references : Nat
  sendTime : Clock
deriving DecidableEq, Repr

/-- R138: the delivery kinds. -/
inductive Delivery where
  | direct | returned
deriving DecidableEq, Repr

/-- R138: an entry of a post queue. -/
structure Entry where
  buffer : Nat
  delivery : Delivery
deriving DecidableEq, Repr

/-- R139: the exchange's state of a current session. -/
structure MessageSession where
  quota : Nat
  threshold : Byte
  time : Byte
  deadline : Option Clock
deriving DecidableEq, Repr

/-- R136 to R141, R146: the message exchange. -/
structure Exchange where
  buffers : Memory (Option Buffer)
  free : List Nat
  urgent : PerPort (List Entry)
  normal : PerPort (List Entry)
  sessions : PerPort (Option MessageSession)
  counter : Half
  discards : Half
deriving DecidableEq, Repr

/-- R158: the watch kinds; RISE and FALL name their bit. -/
inductive WatchKind where
  | change
  | rise (bit : Nat)
  | fall (bit : Nat)
  | ownership
deriving DecidableEq, Repr

/-- R158: a watch record. -/
structure Watch where
  zone : Nat
  kind : WatchKind
  fired : Bool
  overrun : Byte
deriving DecidableEq, Repr

/-- R157: the attention record of a current session. -/
structure AttentionRecord where
  pending : CauseSet
  mask : CauseSet
  gone : Byte
  granted : Half
  grantedBroken : Half
  revoked : Half
  zones : BitVec 32
  ports : PortSet
  slots : Memory (Option Watch)
  atn : Bool
deriving DecidableEq, Repr

/-- R171: the origin of a fault: a port, or the part itself (code 15). -/
inductive Origin where
  | port (p : Port)
  | part
deriving DecidableEq, Repr

/-- R171: a fault entry. -/
structure FaultEntry where
  number : Half
  origin : Origin
  originSession : Half
  firstTime : Clock
  firstEpoch : Byte
  lastTime : Clock
  lastEpoch : Byte
  repeats : Byte
  acknowledged : PortSet
  firstOut : Bool
deriving DecidableEq, Repr

/-- The state of the part. -/
structure State where
  /-- R19, R20. -/
  phase : ResetPhase
  /-- R17. -/
  clock : Clock
  /-- R18. -/
  epoch : Byte
  /-- R119: the tick event of the clock's value has not been taken (entry 4). -/
  tickDue : Bool
  /-- R156: the exchange's first event after power-on has not been taken. -/
  freeWordDue : Bool
  /-- R22. -/
  sessionCounter : Half
  /-- R1. -/
  links : PerPort Link
  /-- R21. -/
  ports : PerPort PortRecord
  /-- R42, R43. -/
  systemZone : SystemZone
  /-- R45: zones 1 to 31; an unlisted zone is UNDEFINED. -/
  zones : Memory (Option ZoneRecord)
  /-- R40: the bit points; an unlisted bit is 0. -/
  bits : Memory Bool
  /-- R40: the word points; an unlisted word is 0. -/
  words : Memory Half
  /-- R100: tokens 0 to 15; an unlisted token is at its power-on values. -/
  tokens : Memory Token
  /-- R117: timers 0 to 31; an unlisted timer is FREE. -/
  timers : Memory (Option Armed)
  /-- R136 to R141. -/
  exchange : Exchange
  /-- R157. -/
  attention : PerPort (Option AttentionRecord)
  /-- R171: the entries, head first. -/
  faults : List FaultEntry
  /-- R171. -/
  overflow : Half
  /-- The model's own: how many free choices of order have been made (entry 5). -/
  freeDraws : Nat
  /-- The commands that wait, first in first out. -/
  pending : List Instr
deriving DecidableEq, Repr

/-- R1: a link after power-on reset, by the level of its PpSEL. -/
def Link.afterReset (selection : Selection) : Link :=
  { selection := selection, received := [], excess := false, captured := none, reply := none, position := 0,
    discarded := false, refused := false, discardedCount := 0, refusedCount := 0 }

/-- R155: the exchange's reset values, the same after both resets (R156). -/
def Exchange.reset : Exchange :=
  { buffers := [], free := List.range Config.bufferCount, urgent := .fill [], normal := .fill [],
    sessions := .fill none, counter := 0, discards := 0 }

/-- R100: a token after power-on reset. -/
def Token.powerOn : Token := { hold := none, limit := 0, waiters := [], broken := false }

/-- Every block at its power-on values (R1, R17, R18, R21, R22, R59, R99, R116, R117, R156, R170, R171). -/
def State.powerOn (phase : ResetPhase) (links : PerPort Link) (draws : Nat) (pending : List Instr) : State :=
  { phase := phase, clock := 0, epoch := 0, tickDue := false, freeWordDue := true, sessionCounter := 0, links := links,
    ports := .fill .offline, systemZone := { generation := 0, lastTime := 0, lastEpoch := 0 }, zones := [], bits := [],
    words := [], tokens := [], timers := [], exchange := .reset, attention := .fill none, faults := [], overflow := 0,
    freeDraws := draws, pending := pending }

/-- The part as its power-on reset ends with RSTN high and every PpSEL negated (entry 10). -/
def State.reset : State := State.powerOn .running (.fill (Link.afterReset .idle)) 0 []

/-- Why the part stops. The manual gives no event that stops the part: an arrival is answered with an outcome (R12), a frame
that is not well-formed is discarded (R9). So there is no constructor. -/
inductive Fault where
deriving DecidableEq, Repr

/-- Why a command has no meaning. -/
inductive Refusal where
  /-- The command's meaning is not written. Raised by the dispatch alone. Safe: the model stops where the part goes on. -/
  | notModelled (mnemonic : String)
deriving DecidableEq, Repr

end Sys2Proof.Machine
end

