-- ==== Sys2Proof/Machine/Ops.lean ====
section
/-!
DEFINITION. The named operations: sparse tables, counters, byte order, sets, points of the image, and the accessors of the
session monitor's records.
-/

namespace Sys2Proof

/-! ## Ports and sets of ports -/

/-- The four ports in order. -/
def Port.all : List Port := [.A, .B, .C, .D]

/-- The port index p of the overview, 0 for A to 3 for D. -/
def Port.index : Port → Nat
  | .A => 0
  | .B => 1
  | .C => 2
  | .D => 3

/-- The port code, 1 for A to 4 for D. -/
def Port.code (p : Port) : Byte := BitVec.ofNat 8 (p.index + 1)

/-- The port of a code; none for a code that names no port. -/
def Port.ofCode (b : Byte) : Option Port := Port.all.find? fun p => p.code == b

/-- The set of one port. -/
def Port.single (p : Port) : PortSet := 1#4 <<< p.index

/-- A port is in a set. -/
def portIn (p : Port) (s : PortSet) : Bool := s.getLsbD p.index

/-- The ports of a set, in order. -/
def portsOf (s : PortSet) : List Port := Port.all.filter fun p => portIn p s

/-- A set byte with no bit outside the four ports (R184). -/
def portSetOf (b : Byte) : Option PortSet := if b.extractLsb' 4 4 = 0#4 then some (b.extractLsb' 0 4) else none

/-- The other three ports, in order. -/
def Port.others (p : Port) : List Port := Port.all.filter fun q => q != p

end Sys2Proof

namespace Sys2Proof.Machine

/-! ## Sparse tables -/

/-- The value of number `k`; `d` where the table lists none. -/
def Memory.read {β : Type} (d : β) (m : Memory β) (k : Nat) : β :=
  match m with
  | [] => d
  | (j, v) :: rest => if j = k then v else Memory.read d rest k

/-- `(k, v)` put before the first greater number. -/
def Memory.insert {β : Type} (m : Memory β) (k : Nat) (v : β) : Memory β :=
  match m with
  | [] => [(k, v)]
  | (j, w) :: rest => if k < j then (k, v) :: (j, w) :: rest else (j, w) :: Memory.insert rest k v

/-- The table with number `k` holding `v`. Writing what an unlisted number reads as removes the entry. -/
def Memory.write {β : Type} [DecidableEq β] (d : β) (m : Memory β) (k : Nat) (v : β) : Memory β :=
  let rest := m.filter fun e => e.1 != k
  if v = d then rest else Memory.insert rest k v

/-- The writes of a list, in order. -/
def Memory.writeAll {β : Type} [DecidableEq β] (d : β) (m : Memory β) (ws : List (Nat × β)) : Memory β :=
  ws.foldl (fun m w => m.write d w.1 w.2) m

/-- The same numbers, each value passed through `f`. -/
def Memory.mapValues {β : Type} (f : β → β) (m : Memory β) : Memory β := m.map fun e => (e.1, f e.2)

/-- The canonical form: numbers strictly rising, and no entry equal to what an unlisted number reads as. -/
abbrev Memory.wf {β : Type} (d : β) (m : Memory β) : Prop :=
  m.Pairwise (fun e f => e.1 < f.1) ∧ ∀ e ∈ m, e.2 ≠ d

/-! ## Counters and sequence numbers -/

/-- A sequence number that wraps skipping 0 (overview, Counters and sequence numbers). -/
def seqNext (n : Half) : Half := if n = 0xFFFF then 1 else n + 1

/-- A saturating counter (overview, Counters and sequence numbers). -/
def satInc {w : Nat} (n : BitVec w) : BitVec w := if n = BitVec.allOnes w then n else n + 1

/-- The clock value `ms` milliseconds after `c`, modulo 2^32 (R17). -/
def msAfter (c : Clock) (ms : Nat) : Clock := c + BitVec.ofNat 32 ms

/-- R17: the clock stands at the deadline, which expires at this value of the clock and at no other (entry 3). -/
def reached (deadline clock : Clock) : Bool := deadline == clock

/-! ## Byte order (R183) -/

/-- Two bytes as a field, most significant first. -/
def half (hi lo : Byte) : Half := hi ++ lo

/-- A 16-bit field as bytes. -/
def halfBytes (h : Half) : List Byte := [h.extractLsb' 8 8, h.extractLsb' 0 8]

/-- A 4-byte field as bytes. -/
def clockBytes (c : Clock) : List Byte :=
  [c.extractLsb' 24 8, c.extractLsb' 16 8, c.extractLsb' 8 8, c.extractLsb' 0 8]

/-- A count as a byte. -/
def natByte (n : Nat) : Byte := BitVec.ofNat 8 n

/-- A count as a 16-bit field. -/
def natHalf (n : Nat) : Half := BitVec.ofNat 16 n

/-- A flag as 0 or 1. -/
def flagNat (b : Bool) : Nat := if b then 1 else 0

/-- Eight bits as a byte, the first in the most significant place (R54, R62, R74). -/
def packByte (bs : List Bool) : Byte := natByte (bs.foldl (fun n b => 2 * n + flagNat b) 0)

/-- A byte as its eight bits, the most significant first. -/
def unpackByte (b : Byte) : List Bool := (List.range 8).map fun i => b.getLsbD (7 - i)

/-- Bytes as bits, each byte's most significant bit first. -/
def unpackBytes (bs : List Byte) : List Bool := bs.flatMap unpackByte

/-- `n` bytes of bits, the lowest index in the most significant place. -/
def packBytes : Nat → List Bool → List Byte
  | 0, _ => []
  | n + 1, bs => packByte (bs.take 8) :: packBytes n (bs.drop 8)

/-- Pairs of bytes as 16-bit fields; a last odd byte is dropped. -/
def halves : List Byte → List Half
  | hi :: lo :: rest => half hi lo :: halves rest
  | _ => []

/-! ## The check value (R8) -/

/-- One bit: shift left, and take x^16 + x^12 + x^5 + 1 off where a bit left the register. -/
def checkShift (r : Half) : Half := if r.msb then (r <<< 1) ^^^ 0x1021 else r <<< 1

/-- One byte, its most significant bit first. -/
def checkByte (r : Half) (b : Byte) : Half :=
  (List.range 8).foldl (fun r _ => checkShift r) (r ^^^ (b.setWidth 16 <<< 8))

/-- The check value of a frame's bytes, from FFFF hex, with no final inversion. -/
def checkValue (bs : List Byte) : Half := bs.foldl checkByte 0xFFFF

/-! ## The session monitor's records (R21) -/

/-- The current session of a record: present in ONLINE and LATE. -/
def PortRecord.session : PortRecord → Option Membership
  | .online m => some m
  | .late m => some m
  | .offline => none
  | .lost => none

/-- The port is LATE. -/
def PortRecord.isLate : PortRecord → Bool
  | .late _ => true
  | _ => false

/-- The port is ONLINE. -/
def PortRecord.isOnline : PortRecord → Bool
  | .online _ => true
  | _ => false

/-- The LOST condition of R21: it holds exactly while the port state is LOST (entry 15). -/
def PortRecord.lostCondition : PortRecord → Bool
  | .lost => true
  | _ => false

/-- The current session number, 0 where there is none. -/
def PortRecord.number (r : PortRecord) : Half :=
  match r.session with
  | some m => m.number
  | none => 0

/-- The port state codes of R184. -/
def PortRecord.stateCode : PortRecord → Byte
  | .offline => 0
  | .online _ => 1
  | .late _ => 2
  | .lost => 3

/-- The current session of a port. -/
def State.session (s : State) (p : Port) : Option SessionRef :=
  (s.ports.get p).session.map fun m => { port := p, number := m.number }

/-- A recorded session is current on its port. -/
def State.isCurrent (s : State) (r : SessionRef) : Bool := s.session r.port == some r

/-- The state with another record for a port. -/
def State.setPort (s : State) (p : Port) (r : PortRecord) : State := { s with ports := s.ports.set p r }

/-- The state with another link for a port. -/
def State.setLink (s : State) (p : Port) (l : Link) : State := { s with links := s.links.set p l }

/-! ## Points of the image (R40) -/

/-- A bit point. -/
def State.bit (s : State) (i : Nat) : Bool := s.bits.read false i

/-- A word point. -/
def State.word (s : State) (i : Nat) : Half := s.words.read 0 i

/-- The record of zone `z`; none for an UNDEFINED zone. -/
def State.zone (s : State) (z : Nat) : Option ZoneRecord := s.zones.read none z

/-- The record of token `t`. -/
def State.token (s : State) (t : Nat) : Token := s.tokens.read Token.powerOn t

/-- The record of timer `t`; none for a FREE timer. -/
def State.timer (s : State) (t : Nat) : Option Armed := s.timers.read none t

/-- Buffer `b`; none for a FREE buffer. -/
def State.buffer (s : State) (b : Nat) : Option Buffer := s.exchange.buffers.read none b

/-- The state with another record for zone `z`. -/
def State.setZone (s : State) (z : Nat) (r : Option ZoneRecord) : State := { s with zones := s.zones.write none z r }

/-- The state with another record for token `t`. -/
def State.setToken (s : State) (t : Nat) (r : Token) : State :=
  { s with tokens := s.tokens.write Token.powerOn t r }

/-- The state with another record for timer `t`. -/
def State.setTimer (s : State) (t : Nat) (r : Option Armed) : State := { s with timers := s.timers.write none t r }

/-- The state with other contents of buffer `b`. -/
def State.setBuffer (s : State) (b : Nat) (r : Option Buffer) : State :=
  { s with exchange := { s.exchange with buffers := s.exchange.buffers.write none b r } }

/-- The numbers of the definable zones, 1 to 31. -/
def zoneNumbers : List Nat := (List.range Config.zoneCount).map (· + 1)

/-- The numbers of the defined zones, ascending. -/
def State.definedZones (s : State) : List Nat := zoneNumbers.filter fun z => (s.zone z).isSome

/-- What holds a point (R40). -/
inductive Holding where
  | nothing
  | system
  | zone (z : Nat)
deriving DecidableEq, Repr

/-- A bit lies in the zone's bit range. -/
def ZoneRecord.hasBit (r : ZoneRecord) (i : Nat) : Bool := decide (r.bitFirst ≤ i ∧ i < r.bitFirst + r.bitCount)

/-- A word lies in the zone's word range. -/
def ZoneRecord.hasWord (r : ZoneRecord) (i : Nat) : Bool := decide (r.wordFirst ≤ i ∧ i < r.wordFirst + r.wordCount)

/-- The defined zone, lowest number first, whose record passes `f`. -/
def State.findZone (s : State) (f : ZoneRecord → Bool) : Holding :=
  match zoneNumbers.find? fun z => match s.zone z with | some r => f r | none => false with
  | some z => .zone z
  | none => .nothing

/-- R40: the holding zone of a bit. -/
def State.bitHolder (s : State) (i : Nat) : Holding :=
  if i < Config.systemBits then .system else s.findZone fun r => r.hasBit i

/-- R40: the holding zone of a word. -/
def State.wordHolder (s : State) (i : Nat) : Holding :=
  if i < Config.systemWords then .system else s.findZone fun r => r.hasWord i

/-- R75: the zone number reported for a point, 255 for a point with no holding zone. -/
def Holding.number : Holding → Nat
  | .nothing => 255
  | .system => 0
  | .zone z => z

/-- R51: the image size of a zone in bytes. -/
def ZoneRecord.imageSize (r : ZoneRecord) : Nat := r.bitCount / 8 + 2 * r.wordCount

/-- The zone's bits in index order. -/
def ZoneRecord.bitIndices (r : ZoneRecord) : List Nat := (List.range r.bitCount).map (r.bitFirst + ·)

/-- The zone's words in index order. -/
def ZoneRecord.wordIndices (r : ZoneRecord) : List Nat := (List.range r.wordCount).map (r.wordFirst + ·)

/-! ## An order that the manual leaves open (entry 5) -/

/-- Two sequences run into one, each kept in its own order; how they interleave is the free value. Also answers how many
free choices have been made. -/
def riffle {α : Type} (n : Nat) : List α → List α → List α × Nat
  | [], ys => (ys, n)
  | x :: xs, [] => (x :: xs, n)
  | x :: xs, y :: ys =>
    let k := Config.freeOrder n % (ys.length + 2)
    let r := riffle (n + 1) xs ((y :: ys).drop k)
    ((y :: ys).take k ++ x :: r.1, r.2)

/-- A list in a free order. -/
def shuffle {α : Type} (n : Nat) : List α → List α × Nat
  | [] => ([], n)
  | x :: xs => let r := shuffle n xs; riffle r.2 [x] r.1

/-- Several sequences run into one, each kept in its own order. -/
def riffleAll {α : Type} (n : Nat) : List (List α) → List α × Nat
  | [] => ([], n)
  | xs :: rest => let r := riffleAll n rest; riffle r.2 xs r.1

end Sys2Proof.Machine
end

