-- ==== Sys2Proof/Machine/Operands.lean ====
section
/-!
DEFINITION. What a controller's frame says: requests and answers, the reading of a request frame (R8, R185), the building of
a reply frame (R12, R185), outcome codes (R189), the code bytes of R184, and the items of a PUBLISH (R187).
-/

namespace Sys2Proof.Machine

/-- R189: the outcomes. -/
inductive ReplyOutcome where
  | done | queued | noSession | badRequest | range | notOwner | zoneState | overlap | tableFull
  | safeStoreFull | notPermitted | handoverPending | notFound | tooLarge
  | tokenHeld | alreadyHeld | alreadyWaiting | deadlock | notHolder | timerBusy | poolEmpty | quota | noRoute
  | queueEmpty | listFull | conditionActive
deriving DecidableEq, Repr

/-- R189: the outcome codes. -/
def ReplyOutcome.code : ReplyOutcome → Byte
  | .done => 0x00
  | .queued => 0x01
  | .noSession => 0x10
  | .badRequest => 0x11
  | .range => 0x12
  | .notOwner => 0x13
  | .zoneState => 0x14
  | .overlap => 0x15
  | .tableFull => 0x16
  | .safeStoreFull => 0x19
  | .notPermitted => 0x1A
  | .handoverPending => 0x1B
  | .notFound => 0x1C
  | .tooLarge => 0x1D
  | .tokenHeld => 0x20
  | .alreadyHeld => 0x21
  | .alreadyWaiting => 0x22
  | .deadlock => 0x23
  | .notHolder => 0x24
  | .timerBusy => 0x25
  | .poolEmpty => 0x26
  | .quota => 0x27
  | .noRoute => 0x28
  | .queueEmpty => 0x29
  | .listFull => 0x2A
  | .conditionActive => 0x2B

/-- R11: what the link reads from a well-formed frame. -/
structure Request where
  tag : Byte
  kind : Byte
  session : Half
  body : List Byte
deriving DecidableEq, Repr

/-- R12: what a service hands back to the link. -/
structure Answer where
  outcome : ReplyOutcome
  detail : Half
  body : List Byte
deriving DecidableEq, Repr

/-- DONE with a detail and a body. -/
def Answer.done (detail : Nat) (body : List Byte) : Answer := ⟨.done, natHalf detail, body⟩

/-- A refusal: a detail and an empty body (R12). -/
def Answer.refuse (o : ReplyOutcome) (detail : Nat) : Answer := ⟨o, natHalf detail, []⟩

/-! ## Frames -/

/-- A frame's bytes with its check value (R183). -/
def withCheck (bs : List Byte) : List Byte := bs ++ halfBytes (checkValue bs)

/-- R185: a request frame. -/
def Request.frame (r : Request) : List Byte :=
  withCheck (halfBytes (natHalf (r.body.length + 8)) ++ [r.tag, r.kind] ++ halfBytes r.session ++ r.body)

/-- R12, R185: a reply frame. -/
def Answer.frame (a : Answer) (tag kind portState : Byte) : List Byte :=
  withCheck (halfBytes (natHalf (a.body.length + 10)) ++ [tag, kind, a.outcome.code, portState] ++ halfBytes a.detail ++
    a.body)

/-- R5: every byte shifted in was 00 hex. -/
def fetchOnly (received : List Byte) (excess : Bool) : Bool := received.all (· == 0) && !excess

/-- R8: the length field, of the first two bytes; none where fewer were shifted in. -/
def frameLength : List Byte → Option Nat
  | hi :: lo :: _ => some (half hi lo).toNat
  | _ => none

/-- R8: the four checks on a frame of `n` bytes. -/
def frameChecks (n : Nat) (received : List Byte) (excess : Bool) : Bool :=
  decide (8 ≤ n ∧ n ≤ Config.largestRequest) && decide (n ≤ received.length) &&
    ((received.drop n).all (· == 0) && !excess) &&
    ((received.take n).drop (n - 2) == halfBytes (checkValue (received.take (n - 2))))

/-- R11, R185: the fields of a well-formed frame of `n` bytes. -/
def readRequest (n : Nat) (received : List Byte) : Option Request :=
  match received.take (n - 2) with
  | _ :: _ :: tag :: kind :: hi :: lo :: body => some ⟨tag, kind, half hi lo, body⟩
  | _ => none

/-- R8: the request of a well-formed frame; none for a frame that is not well-formed. -/
def classify (received : List Byte) (excess : Bool) : Option Request :=
  match frameLength received with
  | none => none
  | some n => if frameChecks n received excess then readRequest n received else none

/-! ## Code bytes (R184) -/

/-- The loss policies' codes. -/
inductive PolicyCode where
  | hold | clear | substitute
deriving DecidableEq, Repr

/-- R184: the loss policy that a byte names. -/
def policyCode (b : Byte) : Option PolicyCode :=
  if b = 0 then some .hold else if b = 1 then some .clear else if b = 2 then some .substitute else none

/-- R51, R184: a standby code, 0 for none or 1 to 4. -/
def standbyCode (b : Byte) : Option (Option Port) :=
  if b = 0 then some none else (Port.ofCode b).map some

/-- R184: the ACQUIRE mode that a byte names; true for WAIT. -/
def acquireMode (b : Byte) : Option Bool := if b = 0 then some true else if b = 1 then some false else none

/-- R184: the timer kind that a byte names. -/
def timerKindOf (b : Byte) : Option TimerKind :=
  if b = 0 then some .delay else if b = 1 then some .offDelay else if b = 2 then some .retain else none

/-- R184: the timer base that a byte names. -/
def baseOf (b : Byte) : Option Base :=
  if b = 0 then some .ms1 else if b = 1 then some .ms10 else if b = 2 then some .ms100 else none

/-- R184: the watch kind that a byte names, with the bit that RISE and FALL watch. -/
def watchKindOf (b : Byte) (bit : Half) : Option WatchKind :=
  if b = 0 then some .change
  else if b = 1 then some (.rise bit.toNat)
  else if b = 2 then some (.fall bit.toNat)
  else if b = 3 then some .ownership
  else none

/-- R184: a SEND destination: `some none` for ALL. -/
def destinationOf (b : Byte) : Option (Option Port) :=
  if b = 0xFF then some none else (Port.ofCode b).map some

/-- R184: SEND options: URGENT and the return flag; no other bit may be set. -/
def sendOptions (b : Byte) : Option (Bool × Bool) :=
  if b.extractLsb' 2 6 = 0#6 then some (b.getLsbD 0, b.getLsbD 1) else none

/-- R184: FLUSH_QUEUE: whether the URGENT and the NORMAL queue are named. -/
def flushCode (b : Byte) : Option (Bool × Bool) :=
  if b = 1 then some (true, false) else if b = 2 then some (false, true) else if b = 3 then some (true, true) else none

/-- R184: a cause set byte with no bit outside the six causes. -/
def causeSetOf (b : Byte) : Option CauseSet := if b.extractLsb' 6 2 = 0#2 then some (b.extractLsb' 0 6) else none

/-- R126: a reset bit field, FFFF hex meaning none. -/
def resetBitOf (h : Half) : Option Nat := if h = 0xFFFF then none else some h.toNat

/-- R184: zone state codes. -/
def ZoneStatus.code : ZoneStatus → Byte
  | .owned _ => 1
  | .vacant => 2
  | .handover _ => 3
  | .orphaned => 4

/-- R184: loss policy codes. -/
def LossPolicy.code : LossPolicy → Byte
  | .hold => 0
  | .clear => 1
  | .substitute _ => 2

/-- R184: timer kind codes. -/
def TimerKind.code : TimerKind → Byte
  | .delay => 0
  | .offDelay => 1
  | .retain => 2

/-- R184: timer base codes. -/
def Base.code : Base → Byte
  | .ms1 => 0
  | .ms10 => 1
  | .ms100 => 2

/-- R117: a timer base in ms. -/
def Base.ms : Base → Nat
  | .ms1 => 1
  | .ms10 => 10
  | .ms100 => 100

/-- R184: timer phase codes. -/
def Phase.code : Phase → Byte
  | .idle => 0
  | .timing => 1
  | .done => 2
  | .on => 3
  | .holding => 4

/-- The overview's codes of origins: a port code, or 15 for the part. -/
def Origin.code : Origin → Byte
  | .port p => p.code
  | .part => 15

/-- The code of an optional port, 0 for none. -/
def optPortCode : Option Port → Byte
  | some p => p.code
  | none => 0

/-- The port code and session number of an optional session, 0 and 0 for none. -/
def optSessionBytes : Option SessionRef → List Byte
  | some r => r.port.code :: halfBytes r.number
  | none => [0, 0, 0]

/-! ## The items of a PUBLISH (R62, R63, R187) -/

/-- Points to write: bits and words with their new values, in the order they are applied. -/
structure Points where
  bits : List (Nat × Bool)
  words : List (Nat × Half)
deriving DecidableEq, Repr

/-- Values laid from a first index on. -/
def layFrom {β : Type} (first : Nat) : List β → List (Nat × β)
  | [] => []
  | v :: vs => (first, v) :: layFrom (first + 1) vs

/-- R62, R63: the first item of a list, as the points it names, and the bytes after it; none where it is not
well-formed. -/
def readItem : List Byte → Option (Points × List Byte)
  | code :: hi :: lo :: x :: rest =>
    let first := (half hi lo).toNat
    if code = 1 then
      if x = 0 then some (⟨[(first, false)], []⟩, rest)
      else if x = 1 then some (⟨[(first, true)], []⟩, rest)
      else none
    else if code = 2 then
      if first % 8 = 0 ∧ 1 ≤ x.toNat ∧ x.toNat ≤ rest.length then
        some (⟨layFrom first (unpackBytes (rest.take x.toNat)), []⟩, rest.drop x.toNat)
      else none
    else if code = 3 then
      match rest with
      | y :: rest' => some (⟨[], [(first, half x y)]⟩, rest')
      | [] => none
    else if code = 4 then
      if 1 ≤ x.toNat ∧ 2 * x.toNat ≤ rest.length then
        some (⟨[], layFrom first (halves (rest.take (2 * x.toNat)))⟩, rest.drop (2 * x.toNat))
      else none
    else none
  | _ => none

/-- R63: the items of a list, read one after another; the number of the first that is not well-formed. An item has at
least 4 bytes, so `fuel` of the body's length reads them all. -/
def readItems (fuel number : Nat) (body : List Byte) : Except Nat (List Points) :=
  match fuel with
  | 0 => .ok []
  | fuel + 1 =>
    if body.isEmpty then .ok [] else
      match readItem body with
      | none => .error number
      | some (item, rest) =>
        match readItems fuel (number + 1) rest with
        | .ok items => .ok (item :: items)
        | .error n => .error n

/-- R64, R65: the number, counted from 1, of the first item that passes `bad`. -/
def firstItem (bad : Points → Bool) (items : List Points) : Option Nat := (items.findIdx? bad).map (· + 1)

/-- R75, R186: a point reference, `true` for a word. -/
def pointRef (h : Half) : Bool × Nat := (h.getLsbD 15, (h.extractLsb' 0 15).toNat)

end Sys2Proof.Machine
end

