-- ==== Sys2Proof/Machine/Flags.lean ====
section
/-!
DEFINITION. The flags and levels the part computes: the status byte (R3, R183), the ATN level (R157, R160), and the points
that the blocks show in the system zone (R23, R44, R80, R102, R118, R140, R173).
-/

namespace Sys2Proof.Machine

/-! ## Causes and the ATN level -/

/-- R157: the six causes. -/
inductive Cause where
  | message | watch | token | zone | peer | fault
deriving DecidableEq, Repr

/-- R184: the bit of a cause. -/
def Cause.bit : Cause → CauseSet
  | .message => 1
  | .watch => 2
  | .token => 4
  | .zone => 8
  | .peer => 16
  | .fault => 32

/-- R157, R160: the level is asserted exactly when the pending set and the mask have a cause in common. -/
def atnLevel (pending mask : CauseSet) : Bool := pending &&& mask != 0

/-- R160: the level recomputed. -/
def AttentionRecord.relevel (r : AttentionRecord) : AttentionRecord := { r with atn := atnLevel r.pending r.mask }

/-- R14: PpATN of a port: the level of its session's record, negated without one. -/
def State.atn (s : State) (p : Port) : Bool :=
  match s.attention.get p with
  | some r => r.atn
  | none => false

/-! ## The status byte -/

/-- R3, R183: the status byte of a port. -/
def State.statusByte (s : State) (p : Port) : Byte :=
  natByte (128 * flagNat (s.links.get p).reply.isSome + 64 * flagNat (s.atn p) +
    32 * flagNat (s.ports.get p).session.isSome + 16 * flagNat (s.ports.get p).isLate +
    8 * flagNat (s.links.get p).discarded + 4 * flagNat (s.links.get p).refused + p.index)

/-- R183: the REPLY field of a status byte. -/
def statusReply (b : Byte) : Bool := b.getLsbD 7

/-- R183: the DISCARDED field of a status byte. -/
def statusDiscarded (b : Byte) : Bool := b.getLsbD 3

/-- R183: the REFUSED field of a status byte. -/
def statusRefused (b : Byte) : Bool := b.getLsbD 2

/-! ## Points of the system zone -/

/-- R23: the points of a port. -/
def monitorPoints (p : Port) (r : PortRecord) : Points :=
  { bits := [(48 + p.index, r.session.isSome), (52 + p.index, r.isLate), (56 + p.index, r.lostCondition)]
    words := [(48 + p.index, r.number)] }

/-- R44: the zone is ORPHANED. -/
def ZoneRecord.isOrphaned (r : ZoneRecord) : Bool :=
  match r.status with
  | .orphaned => true
  | _ => false

/-- R44: the zone is in HANDOVER. -/
def ZoneRecord.isHandover (r : ZoneRecord) : Bool :=
  match r.status with
  | .handover _ => true
  | _ => false

/-- R44: bit 64+z of an optional record. -/
def orphanBit (r : Option ZoneRecord) : Bool := r.elim false ZoneRecord.isOrphaned

/-- R44: bit 96+z of an optional record. -/
def handoverBit (r : Option ZoneRecord) : Bool := r.elim false ZoneRecord.isHandover

/-- R44: the number of defined zones. -/
def State.definedCount (s : State) : Half := natHalf s.definedZones.length

/-- R44, R80: the zone table's points that differ between two states. -/
def zonePoints (before after : State) : Points :=
  { bits :=
      (zoneNumbers.filterMap fun z =>
        if orphanBit (before.zone z) = orphanBit (after.zone z) then none
        else some (64 + z, orphanBit (after.zone z))) ++
      (zoneNumbers.filterMap fun z =>
        if handoverBit (before.zone z) = handoverBit (after.zone z) then none
        else some (96 + z, handoverBit (after.zone z)))
    words := if before.definedCount = after.definedCount then [] else [(59, after.definedCount)] }

/-- R102: word 32+t, the holder's port code. -/
def Token.holderCode (t : Token) : Half :=
  match t.hold with
  | some h => h.holder.port.code.setWidth 16
  | none => 0

/-- R102: the token arbiter's points that differ between two states: both points of each token whose state or holder
changed. -/
def tokenPoints (before after : State) : Points :=
  let changed := (List.range Config.tokenCount).filter fun t =>
    (before.token t).hold.map Hold.holder != (after.token t).hold.map Hold.holder
  { bits := changed.map fun t => (32 + t, (after.token t).hold.isSome)
    words := changed.map fun t => (32 + t, (after.token t).holderCode) }

/-- R117, R118: the count of a timer, 0 for a FREE one. -/
def timerCount (t : Option Armed) : Half := t.elim 0 Armed.count

/-- R117, R118: the done of a timer, 0 for a FREE one. -/
def timerDone (t : Option Armed) : Bool := t.elim false Armed.done

/-- R118: the timer array's points that differ between two states: both points of each timer whose done or count
changed. -/
def timerPoints (before after : State) : Points :=
  let changed := (List.range Config.timerCount).filter fun t =>
    timerCount (before.timer t) != timerCount (after.timer t) || timerDone (before.timer t) != timerDone (after.timer t)
  { bits := changed.map fun t => (t, timerDone (after.timer t))
    words := changed.map fun t => (t, timerCount (after.timer t)) }

/-- R140: words 54 to 58. -/
def exchangeWords (e : Exchange) : List (Nat × Half) :=
  (54, natHalf e.free.length) ::
    Port.all.map fun p => (55 + p.index, natHalf ((e.urgent.get p).length + (e.normal.get p).length))

/-- R140: the exchange's words that differ between two states. -/
def exchangePoints (before after : State) : Points :=
  { bits := []
    words := (exchangeWords after.exchange).filter fun w => !(exchangeWords before.exchange).contains w }

/-- R173: bits 60 to 63. -/
def faultBits (faults : List FaultEntry) : List (Nat × Bool) :=
  [(60, !faults.isEmpty), (61, faults.any fun e => e.acknowledged == 0), (62, decide (Config.faultEntries ≤ faults.length)),
    (63, faults.any FaultEntry.firstOut)]

/-- R173: words 52 and 53. -/
def faultWords (s : State) : List (Nat × Half) := [(52, natHalf s.faults.length), (53, s.overflow)]

/-- R173: the fault list's points that differ between two states. -/
def faultPoints (before after : State) : Points :=
  { bits := (faultBits after.faults).filter fun b => !(faultBits before.faults).contains b
    words := (faultWords after).filter fun w => !(faultWords before).contains w }

end Sys2Proof.Machine
end

