-- ==== Sys2Proof/Machine/Attention.lean ====
section
/-!
DEFINITION. The attention unit inside a step (chapter 9): raising causes, firing watches, and the record's life.
-/

namespace Sys2Proof.Machine

/-- R159: what a raise adds to the record beside its cause. -/
inductive Detail where
  | none
  | granted (t : Nat)
  | grantedBroken (t : Nat)
  | revoked (t : Nat)
  | zone (z : Nat)
  | port (p : Port)
  | gone (slot : Nat)
deriving DecidableEq, Repr

/-- R159: a detail added to its set. -/
def AttentionRecord.add (r : AttentionRecord) : Detail → AttentionRecord
  | .none => r
  | .granted t => { r with granted := r.granted ||| (1#16 <<< t) }
  | .grantedBroken t => { r with grantedBroken := r.grantedBroken ||| (1#16 <<< t) }
  | .revoked t => { r with revoked := r.revoked ||| (1#16 <<< t) }
  | .zone z => { r with zones := r.zones ||| (1#32 <<< z) }
  | .port p => { r with ports := r.ports ||| p.single }
  | .gone k => { r with gone := r.gone ||| (1#8 <<< k) }

/-- R159, R160: a cause raised in a record. -/
def AttentionRecord.raise (r : AttentionRecord) (c : Cause) (d : Detail) : AttentionRecord :=
  ({ r with pending := r.pending ||| c.bit }.add d).relevel

/-- R159: a cause raised for the current session of a port; nothing without one. -/
def State.raise (s : State) (c : Cause) (d : Detail) (p : Port) : State :=
  match s.attention.get p with
  | some r => { s with attention := s.attention.set p (some (r.raise c d)) }
  | none => s

/-- A cause raised for the current sessions of several ports. -/
def State.raiseFor (s : State) (c : Cause) (d : Detail) (ps : List Port) : State :=
  ps.foldl (fun s p => s.raise c d p) s

/-- R36: PEER raised for port `p`, to the other ports' sessions. -/
def State.raisePeer (s : State) (p : Port) : State := s.raiseFor .peer (.port p) p.others

/-- R157: the record of a session that begins. -/
def AttentionRecord.start : AttentionRecord :=
  { pending := 0, mask := BitVec.allOnes 6, gone := 0, granted := 0, grantedBroken := 0, revoked := 0, zones := 0, ports := 0,
    slots := [], atn := false }

/-! ## Notices and watches -/

/-- R68: a change notice: the zones whose generation the event counted, and the bits that changed with their new value,
each ascending. -/
structure Notice where
  generations : List Nat
  edges : List (Nat × Bool)
deriving DecidableEq, Repr

/-- R68: an event that changes no bit and counts no generation forms no notice. -/
def Notice.isEmpty (n : Notice) : Bool := n.generations.isEmpty && n.edges.isEmpty

/-- R163: the watch fires on a change notice. -/
def Watch.seesChange (n : Notice) (w : Watch) : Bool :=
  match w.kind with
  | .change => n.generations.contains w.zone
  | .rise b => n.edges.contains (b, true)
  | .fall b => n.edges.contains (b, false)
  | .ownership => false

/-- R164: the watch fires on an ownership notice that names the zones. -/
def Watch.seesOwnership (zs : List Nat) (w : Watch) : Bool :=
  match w.kind with
  | .ownership => zs.contains w.zone
  | _ => false

/-- R163: a firing: the fired flag, or the overrun count once it is set. -/
def Watch.fire (w : Watch) : Watch := if w.fired then { w with overrun := satInc w.overrun } else { w with fired := true }

/-- R163: every watch of the record that sees the event fires, and WATCH is set where one did. -/
def AttentionRecord.fireWhere (sees : Watch → Bool) (r : AttentionRecord) : AttentionRecord :=
  if r.slots.any (fun e => e.2.any sees) then
    { r with
        slots := r.slots.mapValues (Option.map fun w => if sees w then w.fire else w)
        pending := r.pending ||| Cause.watch.bit }.relevel
  else r

/-- A change of every attention record. -/
def State.mapAttention (s : State) (f : AttentionRecord → AttentionRecord) : State :=
  { s with
      attention :=
        { a := s.attention.a.map f, b := s.attention.b.map f, c := s.attention.c.map f, d := s.attention.d.map f } }

/-- R163: a change notice at the attention unit. -/
def State.fireChange (s : State) (n : Notice) : State := s.mapAttention (AttentionRecord.fireWhere (Watch.seesChange n))

/-- R79, R164: an ownership notice at the attention unit. -/
def State.fireOwnership (s : State) (zs : List Nat) : State :=
  s.mapAttention (AttentionRecord.fireWhere (Watch.seesOwnership zs))

/-- R165: the slots of the record that watch zone `z`. -/
def AttentionRecord.watching (r : AttentionRecord) (z : Nat) : List Nat :=
  (r.slots.filter fun e => e.2.any fun w => w.zone == z).map Prod.fst

/-- R165: one slot whose watch's zone was retired. -/
def AttentionRecord.slotGone (r : AttentionRecord) (slot : Nat) : AttentionRecord :=
  { r with slots := r.slots.write none slot none }.raise .watch (.gone slot)

/-- R165: every watch on a retired zone leaves its slot for the GONE set. -/
def AttentionRecord.zoneGone (z : Nat) (r : AttentionRecord) : AttentionRecord :=
  (r.watching z).foldl AttentionRecord.slotGone r

/-- R165: a retirement at the attention unit. -/
def State.removeWatches (s : State) (z : Nat) : State := s.mapAttention (AttentionRecord.zoneGone z)

end Sys2Proof.Machine
end

