-- ==== Sys2Proof/Machine/TimerArray.lean ====
section
/-!
DEFINITION. What a timer does on an edge, a tick and an evaluation (R119 to R124, R127, R135).
-/

namespace Sys2Proof.Machine

/-- R123: the phase in which a kind starts and is held. -/
def TimerKind.home : TimerKind → Phase
  | .delay => .idle
  | .offDelay => .idle
  | .retain => .holding

/-- R123, R127, R128: the held values, which are also those a timer starts from. -/
def Armed.held (t : Armed) : Armed := { t with phase := t.kind.home, count := 0, done := false }

/-- R120 to R122: a source rise while the clock reads `c`. -/
def Armed.rise (c : Clock) (t : Armed) : Armed :=
  match t.kind, t.phase with
  | .delay, .idle => { t with phase := .timing, count := 0, done := false, timingSince := c }
  | .offDelay, .idle => { t with phase := .on, count := 0, done := true }
  | .offDelay, .timing => { t with phase := .on, count := 0, done := true }
  | .retain, .holding => { t with phase := .timing, timingSince := c }
  | _, _ => t

/-- R120 to R122: a source fall while the clock reads `c`. -/
def Armed.fall (c : Clock) (t : Armed) : Armed :=
  match t.kind, t.phase with
  | .delay, .timing => { t with phase := .idle, count := 0, done := false }
  | .delay, .done => { t with phase := .idle, count := 0, done := false }
  | .offDelay, .on => { t with phase := .timing, count := 0, done := true, timingSince := c }
  | .retain, .timing => { t with phase := .holding }
  | _, _ => t

/-- R120 to R122: a tick that counts, in phase TIMING. DESIGN CHOICE (entry 21): the done of an OFF_DELAY falls at the preset, by
R121, where R133's rows for a tick and a reset rise have the done of any kind rise there. -/
def Armed.count1 (t : Armed) : Armed :=
  let n := t.count + 1
  if t.preset ≤ n then
    match t.kind with
    | .delay => { t with phase := .done, count := n, done := true }
    | .offDelay => { t with phase := .idle, count := n, done := false }
    | .retain => { t with phase := .done, count := n, done := true }
  else { t with count := n }

/-- R123: the timer's reset bit, if one is named, reads 1. -/
def Armed.isHeld (bits : Memory Bool) (t : Armed) : Bool := t.resetBit.any fun b => bits.read false b

/-- R119: the tick event at clock value `c` ticks the timer. -/
def Armed.ticksAt (bits : Memory Bool) (c : Clock) (t : Armed) : Bool :=
  decide (c.toNat % t.base.ms = 0) && t.phase == .timing && !t.isHeld bits && t.timingSince != c

/-- R119: the timer in the tick event at clock value `c`. -/
def Armed.tick (bits : Memory Bool) (c : Clock) (t : Armed) : Armed := if t.ticksAt bits c then t.count1 else t

/-- R127: the bits evaluated from the phase the timer stands in: held, or a source rise, or nothing. -/
def Armed.evaluate (bits : Memory Bool) (c : Clock) (t : Armed) : Armed :=
  if t.isHeld bits then t.held else if bits.read false t.source then t.rise c else t

/-- The direction of a bit's edge in a notice; none without one. -/
def Notice.edgeOf (n : Notice) (b : Nat) : Option Bool := (n.edges.find? fun e => e.1 == b).map Prod.snd

/-- R124: the timer at a change notice, against the bits as they stand after the write event. -/
def Armed.take (n : Notice) (bits : Memory Bool) (c : Clock) (t : Armed) : Armed :=
  match t.resetBit.bind n.edgeOf with
  | some true => t.held
  | some false => if bits.read false t.source then t.held.rise c else t.held
  | none =>
    if t.isHeld bits then t
    else
      match n.edgeOf t.source with
      | some true => t.rise c
      | some false => t.fall c
      | none => t

/-- R135: an ARMED timer as the warm reset takes it, before its evaluation. -/
def Armed.restart (t : Armed) : Armed :=
  match t.kind with
  | .retain => { t with session := none, done := t.count == t.preset }
  | .delay => { t with session := none, count := 0, done := false, phase := .idle }
  | .offDelay => { t with session := none, count := 0, done := false, phase := .idle }

/-- R135: the evaluation of a warm reset, at clock value 0. -/
def Armed.reevaluate (bits : Memory Bool) (t : Armed) : Armed :=
  if t.isHeld bits then t.held
  else
    match t.kind with
    | .retain =>
      if t.count = t.preset then { t with phase := .done }
      else if bits.read false t.source then { t with phase := .timing, timingSince := 0 }
      else { t with phase := .holding }
    | .delay => if bits.read false t.source then t.rise 0 else t
    | .offDelay => if bits.read false t.source then t.rise 0 else t

/-- Every ARMED timer passed through `f`. -/
def State.mapTimers (s : State) (f : Armed → Armed) : State := { s with timers := s.timers.mapValues (Option.map f) }

end Sys2Proof.Machine
end

