-- ==== Sys2Proof/Machine/Image.lean ====
section
/-!
DEFINITION. The image store's write events and their notices (R61, R66, R68 to R71): a write, the firing of watches, the
timer array's answer, and the chain of writes that follows.
-/

namespace Sys2Proof.Machine

/-- The points of a write applied to the image, in order. -/
def State.store (s : State) (w : Points) : State :=
  { s with bits := s.bits.writeAll false w.bits, words := s.words.writeAll 0 w.words }

/-- A number joined to an ascending list of numbers. -/
def joinNumber (k : Nat) : List Nat → List Nat
  | [] => [k]
  | j :: rest => if k < j then k :: j :: rest else if k = j then j :: rest else j :: joinNumber k rest

/-- R68: the bits whose value differs, ascending, each with its new value. -/
def bitEdges (before after : Memory Bool) : List (Nat × Bool) :=
  let numbers := (before.map Prod.fst).foldr joinNumber (after.map Prod.fst)
  (numbers.filter fun i => before.read false i != after.read false i).map fun i => (i, after.read false i)

/-- R43, R70: a system-zone write at the image store. The generation of zone 0 is counted once if a bit changed. -/
def State.storeSystem (s : State) (w : Points) : State × Notice :=
  let t := s.store w
  let edges := bitEdges s.bits t.bits
  if edges.isEmpty then (t, ⟨[], []⟩)
  else
    ({ t with systemZone := { generation := seqNext s.systemZone.generation, lastTime := s.clock, lastEpoch := s.epoch } },
      ⟨[0], edges⟩)

/-- R46: one write event counted in a record. -/
def ZoneRecord.counted (clock : Clock) (epoch : Byte) (r : ZoneRecord) : ZoneRecord :=
  { r with generation := seqNext r.generation, lastTime := clock, lastEpoch := epoch }

/-- R46: one write event counted for zone `z`. -/
def State.countZone (s : State) (z : Nat) : State :=
  match s.zone z with
  | some r => s.setZone z (some (r.counted s.clock s.epoch))
  | none => s

/-- R46, R66, R71: a write event that counts the zones of `zs`, which stand ascending. -/
def State.storeCounted (s : State) (zs : List Nat) (w : Points) : State × Notice :=
  let t := zs.foldl State.countZone (s.store w)
  (t, ⟨zs, bitEdges s.bits t.bits⟩)

/-- R56: the clearing of a retired zone, which counts no generation. -/
def State.storeClearing (s : State) (w : Points) : State × Notice :=
  let t := s.store w
  (t, ⟨[], bitEdges s.bits t.bits⟩)

/-- R118, R124: the timer array at a notice: every ARMED timer takes it, and the changed points go into one system-zone
write. -/
def State.timersTake (s : State) (n : Notice) : State × Notice :=
  let t := s.mapTimers (Armed.take n s.bits s.clock)
  t.storeSystem (timerPoints s t)

/-- R69: a notice delivered, with the chain of the timer array's writes that it starts. At most `limit` notices of the
chain are handed to the timer array (entry 6). -/
def State.deliver : Nat → State → Notice → State
  | 0, s, n => if n.isEmpty then s else s.fireChange n
  | limit + 1, s, n =>
    if n.isEmpty then s
    else
      let r := (s.fireChange n).timersTake n
      State.deliver limit r.1 r.2

/-- R70: a system-zone write with everything that follows from it. -/
def State.writeSystem (s : State) (w : Points) : State :=
  let r := s.storeSystem w
  r.1.deliver Config.chainLimit r.2

/-- R66, R71: a write event into zones 1 to 31 with everything that follows from it. -/
def State.writeZones (s : State) (zs : List Nat) (w : Points) : State :=
  let r := s.storeCounted zs w
  r.1.deliver Config.chainLimit r.2

/-- R56: the clearing of a retired zone with everything that follows from it. -/
def State.writeClearing (s : State) (w : Points) : State :=
  let r := s.storeClearing w
  r.1.deliver Config.chainLimit r.2

/-- A change of the timer array's records, written under R118 with everything that follows. -/
def State.writeTimers (before after : State) : State := after.writeSystem (timerPoints before after)

/-- Every point of a zone at 0. -/
def ZoneRecord.zeros (r : ZoneRecord) : Points :=
  { bits := r.bitIndices.map fun i => (i, false), words := r.wordIndices.map fun i => (i, 0) }

/-- R71, R88: what a loss policy writes into a zone; none for HOLD. -/
def ZoneRecord.policyPoints (r : ZoneRecord) : Option Points :=
  match r.policy with
  | .hold => none
  | .clear => some r.zeros
  | .substitute image =>
    if image.loaded then some { bits := r.bitIndices.zip image.bits, words := r.wordIndices.zip image.words }
    else some r.zeros

/-- R71: the loss-policy write of zone `z`, with everything that follows from it. HOLD writes nothing. -/
def State.writePolicy (s : State) (z : Nat) : State :=
  match (s.zone z).bind ZoneRecord.policyPoints with
  | some w => s.writeZones [z] w
  | none => s

end Sys2Proof.Machine
end

