-- ==== Sys2Proof/Machine/FaultList.lean ====
section
/-!
DEFINITION. The fault list inside a step (chapter 10): a raise, and the write events and raises that one event makes in an
order the manual leaves open (entry 5).
-/

namespace Sys2Proof.Machine

/-- R174: what a raise did. -/
inductive Raised where
  | append
  | repeated
  | full
deriving DecidableEq, Repr

/-- R174: a repeat of an entry. -/
def FaultEntry.again (clock : Clock) (epoch : Byte) (e : FaultEntry) : FaultEntry :=
  { e with repeats := satInc e.repeats, lastTime := clock, lastEpoch := epoch, acknowledged := 0 }

/-- R174: a new entry. -/
def FaultEntry.new (n : Half) (origin : Origin) (session : Half) (clock : Clock) (epoch : Byte) (firstOut : Bool) :
    FaultEntry :=
  { number := n, origin := origin, originSession := session, firstTime := clock, firstEpoch := epoch, lastTime := clock,
    lastEpoch := epoch, repeats := 1, acknowledged := 0, firstOut := firstOut }

/-- R174: the number is in the list. -/
def State.hasFault (s : State) (n : Half) : Bool := s.faults.any fun e => e.number == n

/-- R174: what a raise of the number will do. -/
def State.raiseKind (s : State) (n : Half) : Raised :=
  if s.hasFault n then .repeated else if s.faults.length < Config.faultEntries then .append else .full

/-- R174: a raise in the list itself. -/
def State.enterFault (s : State) (n : Half) (origin : Origin) (session : Half) : State :=
  match s.raiseKind n with
  | .repeated => { s with faults := s.faults.map fun e => if e.number = n then e.again s.clock s.epoch else e }
  | .append => { s with faults := s.faults ++ [.new n origin session s.clock s.epoch s.faults.isEmpty] }
  | .full => { s with overflow := satInc s.overflow }

/-- R173: a change of the fault list written to its points, with everything that follows. -/
def State.writeFaults (before after : State) : State := after.writeSystem (faultPoints before after)

/-- R177: FAULT raised for every current session. -/
def State.raiseFaultAttention (s : State) : State := s.raiseFor .fault .none Port.all

/-- R174 to R177: a raise with its points and its attention. -/
def State.raiseFault (s : State) (n : Half) (origin : Origin) (session : Half) : State :=
  let t := s.writeFaults (s.enterFault n origin session)
  match s.raiseKind n with
  | .full => t
  | .append => t.raiseFaultAttention
  | .repeated => t.raiseFaultAttention

/-- R176: an internal raise. -/
def State.raiseInternal (s : State) (n : Nat) : State := s.raiseFault (natHalf n) .part 0

/-! ## The write events and raises of one event -/

/-- What a session end does to one zone. -/
structure ZoneMove where
  zone : Nat
  status : ZoneStatus
  tenure : Byte
  standby : Option Port
  /-- R88: the loss policy is applied. -/
  policy : Bool
  /-- R97: fault 4032+z is raised. -/
  orphanFault : Bool
  /-- R81: the ports that receive ZONE attention. -/
  attention : List Port
deriving DecidableEq, Repr

/-- R89 to R91: a move put in the zone's record; a generation that a loss-policy write counted stands. -/
def ZoneMove.apply (m : ZoneMove) (r : ZoneRecord) : ZoneRecord :=
  { r with status := m.status, tenure := m.tenure, standby := m.standby }

/-- The moves put in the records of their zones. -/
def State.putMoves (s : State) (ms : List ZoneMove) : State :=
  ms.foldl (fun s m => s.setZone m.zone ((s.zone m.zone).map m.apply)) s

/-- R81: the ZONE attention of the moves. -/
def State.raiseMoves (s : State) (ms : List ZoneMove) : State :=
  ms.foldl (fun s m => s.raiseFor .zone (.zone m.zone) m.attention) s

/-- R79, R81, R89 to R91: the moves of one session end, with their ZONE attention and one ownership notice. -/
def State.takeMoves (s : State) (ms : List ZoneMove) : State :=
  ((s.putMoves ms).raiseMoves ms).fireOwnership (ms.map ZoneMove.zone)

/-- A write event, a raise or the zone table's moves, which an event of several blocks makes. -/
inductive Action where
  /-- R70: a system-zone write. -/
  | system (w : Points)
  /-- R71: the loss-policy write of a zone. -/
  | policy (z : Nat)
  /-- R56: the clearing of a retired zone. -/
  | clearing (w : Points)
  /-- R176: an internal raise. -/
  | raise (n : Nat)
  /-- R89 to R91: the moves of a session end. -/
  | move (ms : List ZoneMove)
deriving DecidableEq, Repr

/-- One action with everything that follows from it. -/
def State.act (s : State) : Action → State
  | .system w => s.writeSystem w
  | .policy z => s.writePolicy z
  | .clearing w => s.writeClearing w
  | .raise n => s.raiseInternal n
  | .move ms => s.takeMoves ms

/-- The actions in order. -/
def State.actAll (s : State) (as : List Action) : State := as.foldl State.act s

/-- The actions of several blocks: each block's in its own order, the blocks' interleaved in a free order (R61, R70, R176;
entry 5). -/
def State.actFreely (s : State) (blocks : List (List Action)) : State :=
  let r := riffleAll s.freeDraws blocks
  { s with freeDraws := r.2 }.actAll r.1

/-- A system-zone write as the actions of its block: none where no point changed. -/
def systemAction (w : Points) : List Action := if w.bits.isEmpty && w.words.isEmpty then [] else [.system w]

/-- The zone table's moves as its action: none where the event reaches no zone. -/
def moveAction (ms : List ZoneMove) : List Action := if ms.isEmpty then [] else [.move ms]

end Sys2Proof.Machine
end

