-- ==== Sys2Proof/Machine/Sessions.lean ====
section
/-!
DEFINITION. What the blocks do at the end of a session (R34): the zone table (R89 to R92), the token arbiter (R113), the timer
array (R132), the message exchange (R147) and the attention unit (R169); and the beginning of one (R28).
-/

namespace Sys2Proof.Machine

/-- The causes of a session end that are not a reset (R34). -/
inductive EndCause where
  | leave | lost | replaced
deriving DecidableEq, Repr

/-- LOST and REPLACED are the loss causes (overview, Session-end causes). -/
def EndCause.isLoss : EndCause → Bool
  | .leave => false
  | .lost => true
  | .replaced => true

/-! ## The zone table -/

/-- R83, R86, R93: a zone passes to a session. The tenure counts the change of owner, and a standby on the new owner's port
is dropped (R45). -/
def ZoneRecord.passTo (r : ZoneRecord) (owner : SessionRef) : ZoneRecord :=
  { r with
      status := .owned owner
      tenure := r.tenure + 1
      standby := if r.standby = some owner.port then none else r.standby }

/-- R81: the current sessions whose port is in the claim rights. -/
def ZoneRecord.rightsPorts (r : ZoneRecord) : List Port := portsOf r.rights

/-- R89: the standby's current session, where the standby is eligible: named, with a current session, and ONLINE. DESIGN CHOICE
(entry 20): a standby at its own second expiry is LATE and so not eligible, where R96's closing text has it take the zone. -/
def State.eligibleStandby (s : State) (r : ZoneRecord) : Option SessionRef :=
  match r.standby with
  | some p => if (s.ports.get p).isOnline then s.session p else none
  | none => none

/-- R90 step 3, R93: the takeover deadline of a zone that enters HANDOVER. -/
def takeoverDeadline (clock : Clock) (delay : Byte) : Clock := msAfter clock (delay.toNat * 10)

/-- R89, R90: a zone OWNED by the session that ended. -/
def State.ownedAtEnd (s : State) (cause : EndCause) (z : Nat) (r : ZoneRecord) : ZoneMove :=
  match s.eligibleStandby r with
  | some owner =>
    if cause = .leave ∨ r.delay = 0 then
      let next := r.passTo owner
      ⟨z, next.status, next.tenure, next.standby, cause.isLoss, false, [owner.port]⟩
    else
      ⟨z, .handover (takeoverDeadline s.clock r.delay), r.tenure + 1, r.standby, true, false, [owner.port]⟩
  | none =>
    if cause = .leave then ⟨z, .vacant, r.tenure + 1, r.standby, false, false, r.rightsPorts⟩
    else ⟨z, .orphaned, r.tenure + 1, r.standby, true, true, r.rightsPorts⟩

/-- R91: a zone in HANDOVER whose standby's session ended. -/
def standbyAtEnd (z : Nat) (r : ZoneRecord) : ZoneMove :=
  ⟨z, .orphaned, r.tenure, r.standby, false, true, r.rightsPorts⟩

/-- R89 to R91: what the end does to one zone; none where it does not reach it. -/
def State.zoneAtEnd (s : State) (ended : SessionRef) (cause : EndCause) (z : Nat) : Option ZoneMove :=
  match s.zone z with
  | none => none
  | some r =>
    match r.status with
    | .owned owner => if owner = ended then some (s.ownedAtEnd cause z r) else none
    | .handover _ => if r.standby = some ended.port then some (standbyAtEnd z r) else none
    | .vacant => none
    | .orphaned => none

/-- R92: the moves of one session end, in ascending zone number. -/
def State.zoneMoves (s : State) (ended : SessionRef) (cause : EndCause) : List ZoneMove :=
  zoneNumbers.filterMap (s.zoneAtEnd ended cause)

/-! ## The token arbiter -/

/-- R103: a grant to a session, the broken flag taken and cleared. -/
def Token.grant (t : Token) (holder : SessionRef) (clock : Clock) : Token :=
  { t with
      hold :=
        some
          { holder := holder, grantTime := clock,
            deadline := if t.limit = 0 then none else some (msAfter clock (t.limit.toNat * 100)) }
      broken := false }

/-- R103, R107, R111, R113: the token leaves its holder, with the broken flag as given: to the head, or FREE. -/
def Token.handOn (t : Token) (broken : Bool) (clock : Clock) : Token :=
  match t.waiters with
  | [] => { t with hold := none, broken := broken }
  | w :: rest => { t with broken := broken, waiters := rest }.grant w clock

/-- R104: the attention of a grant to the head. -/
def grantDetail (t : Nat) (broken : Bool) : Detail := if broken then .grantedBroken t else .granted t

/-- R104: TOKEN raised for the head that a token passes to. -/
def State.raiseGrant (s : State) (t : Nat) (k : Token) (broken : Bool) : State :=
  match k.waiters with
  | w :: _ => s.raise .token (grantDetail t broken) w.port
  | [] => s

/-- The token is held by the session. -/
def Token.heldBy (t : Token) (r : SessionRef) : Bool := t.hold.any fun h => h.holder == r

/-- R113: one token at a session end: the ended session's wait entry removed, and the token handed on if it held it. -/
def Token.atEnd (t : Token) (ended : SessionRef) (broken : Bool) (clock : Clock) : Token :=
  let u := { t with waiters := t.waiters.filter fun w => w != ended }
  if t.heldBy ended then u.handOn broken clock else u

/-- R113: the token arbiter at a session end; its points are written with the other blocks' writes. -/
def State.tokensAtEnd (s : State) (ended : SessionRef) (broken : Bool) : State :=
  (List.range Config.tokenCount).foldl
    (fun s t =>
      let k := s.token t
      let s' := s.setToken t (k.atEnd ended broken s.clock)
      if k.heldBy ended then s'.raiseGrant t { k with waiters := k.waiters.filter fun w => w != ended } broken else s')
    s

/-! ## The message exchange -/

/-- A change of the exchange's state of one port's session. -/
def State.mapMessages (s : State) (p : Port) (f : MessageSession → MessageSession) : State :=
  { s with exchange := { s.exchange with sessions := s.exchange.sessions.set p ((s.exchange.sessions.get p).map f) } }

/-- R150: the coalesce timer of a port stopped. -/
def State.stopCoalesce (s : State) (p : Port) : State := s.mapMessages p fun m => { m with deadline := none }

/-- R150: the coalesce timer of a port started at the clock. -/
def State.startCoalesce (s : State) (p : Port) : State :=
  s.mapMessages p fun m => { m with deadline := some (msAfter s.clock m.time.toNat) }

/-- R138: an entry at the tail of a port's queue. -/
def State.pushEntry (s : State) (p : Port) (urgent : Bool) (e : Entry) : State :=
  if urgent then
    { s with exchange := { s.exchange with urgent := s.exchange.urgent.set p (s.exchange.urgent.get p ++ [e]) } }
  else { s with exchange := { s.exchange with normal := s.exchange.normal.set p (s.exchange.normal.get p ++ [e]) } }

/-- R138, R150: an entry appended, with its coalescing. -/
def State.appendEntry (s : State) (p : Port) (urgent : Bool) (e : Entry) : State :=
  let t := s.pushEntry p urgent e
  if urgent then t.raise .message .none p
  else
    match s.exchange.sessions.get p with
    | none => t
    | some m =>
      if m.threshold.toNat ≤ (t.exchange.normal.get p).length then (t.stopCoalesce p).raise .message .none p
      else if (s.exchange.normal.get p).isEmpty && m.time != 0 then t.startCoalesce p
      else t

/-- R137: a buffer freed: FREE, at the tail of the free list, and off the quota of a sender still current. -/
def State.freeBuffer (s : State) (b : Nat) (k : Buffer) : State :=
  let t := s.setBuffer b none
  let t := { t with exchange := { t.exchange with free := t.exchange.free ++ [b] } }
  if s.isCurrent k.sender then t.mapMessages k.sender.port fun m => { m with quota := m.quota - 1 } else t

/-- R144: a reference released. -/
def State.releaseBuffer (s : State) (b : Nat) : State :=
  match s.buffer b with
  | none => s
  | some k => if k.references ≤ 1 then s.freeBuffer b k else s.setBuffer b (some { k with references := k.references - 1 })

/-- R146: an entry that leaves port `q`'s queue undelivered is returned. -/
def State.returns (s : State) (q : Port) (e : Entry) (k : Buffer) : Bool :=
  e.delivery == .direct && k.returnFlag && s.isCurrent k.sender && k.sender.port != q

/-- R146: an entry discarded: its reference released and the discard counted. -/
def State.discardEntry (s : State) (e : Entry) : State :=
  let t := s.releaseBuffer e.buffer
  { t with exchange := { t.exchange with discards := satInc t.exchange.discards } }

/-- R146: undelivered handling of an entry that left port `q`'s queue, and whether it was returned. -/
def State.undelivered (s : State) (q : Port) (e : Entry) : State × Bool :=
  match s.buffer e.buffer with
  | some k =>
    if s.returns q e k then (s.appendEntry k.sender.port k.urgent { buffer := e.buffer, delivery := .returned }, true)
    else (s.discardEntry e, false)
  | none => (s.discardEntry e, false)

/-- R146: undelivered handling of entries in order, with the counts of those returned and those discarded. -/
def State.undeliverAll (s : State) (q : Port) : List Entry → State × Nat × Nat
  | [] => (s, 0, 0)
  | e :: rest =>
    let u := s.undelivered q e
    let r := State.undeliverAll u.1 q rest
    (r.1, r.2.1 + flagNat u.2, r.2.2 + flagNat (!u.2))

/-- R147, R148: a port's queues emptied, those named. -/
def State.emptyQueues (s : State) (q : Port) (urgent normal : Bool) : State :=
  { s with
      exchange :=
        { s.exchange with
            urgent := if urgent then s.exchange.urgent.set q [] else s.exchange.urgent
            normal := if normal then s.exchange.normal.set q [] else s.exchange.normal } }

/-- R147, R148: the entries of the named queues, in the order they are taken. -/
def State.queued (s : State) (q : Port) (urgent normal : Bool) : List Entry :=
  (if urgent then s.exchange.urgent.get q else []) ++ (if normal then s.exchange.normal.get q else [])

/-- R147, R148: the named queues of a port emptied through undelivered handling. -/
def State.drain (s : State) (q : Port) (urgent normal : Bool) : State × Nat × Nat :=
  (s.emptyQueues q urgent normal).undeliverAll q (s.queued q urgent normal)

/-- R147: the message exchange at a session end of port `p`; its words are written with the other blocks' writes. -/
def State.messagesAtEnd (s : State) (p : Port) : State :=
  let t := (s.drain p true true).1
  { t with exchange := { t.exchange with sessions := t.exchange.sessions.set p none } }

/-! ## The notice -/

/-- R169: the attention record of a port dropped. -/
def State.dropAttention (s : State) (p : Port) : State := { s with attention := s.attention.set p none }

/-- R132: the timers attached to the session unattached. -/
def Armed.detach (ended : SessionRef) (t : Armed) : Armed :=
  if t.session = some ended then { t with session := none } else t

/-- R88 to R92: the zone table's sequence at a session end, from the free choice `draws` on: the loss-policy writes first,
then its move, then its system-zone write and its raises (R71, R88, R90). -/
def State.zoneActions (s : State) (ms : List ZoneMove) (draws : Nat) : List Action × Nat :=
  let policies := shuffle draws ((ms.filter ZoneMove.policy).map fun m : ZoneMove => Action.policy m.zone)
  let after :=
    riffle policies.2 (systemAction (zonePoints s (s.putMoves ms)))
      ((ms.filter ZoneMove.orphanFault).map fun m : ZoneMove => Action.raise (4032 + m.zone))
  (policies.1 ++ moveAction ms ++ after.1, after.2)

/-- R34: the end of a session, whose port record already shows it gone. The records of the other blocks change; then the
monitor's write and raise, the zone table's sequence and the blocks' writes follow in a free order (R61, R70, R92, R176;
entry 5). -/
def State.endSession (s : State) (ended : SessionRef) (cause : EndCause) (monitor : List (List Action)) : State :=
  let s1 := (s.dropAttention ended.port).mapTimers (Armed.detach ended)
  let ms := s1.zoneMoves ended cause
  let s2 := s1.tokensAtEnd ended cause.isLoss
  let s3 := s2.messagesAtEnd ended.port
  let zone := s1.zoneActions ms s3.freeDraws
  { s3 with freeDraws := zone.2 }.actFreely
    (monitor ++ [zone.1, systemAction (tokenPoints s1 s2), systemAction (exchangePoints s2 s3)])

/-! ## The beginning of a session -/

/-- R28, R31: the monitor deadline that follows a clock value by one monitor time. -/
def monitorDeadline (from_ : Clock) (time : Byte) : Clock := msAfter from_ (time.toNat * 5)

/-- R23: the points of a port written. -/
def State.writeMonitor (s : State) (p : Port) : State := s.writeSystem (monitorPoints p (s.ports.get p))

/-- R139: the exchange's state of a session that begins. -/
def MessageSession.start : MessageSession := { quota := 0, threshold := 1, time := 0, deadline := none }

/-- R22, R28, R36: a session begins on a port. -/
def State.beginSession (s : State) (p : Port) (time : Byte) : State :=
  let number := seqNext s.sessionCounter
  let s1 :=
    { s with
        sessionCounter := number
        ports :=
          s.ports.set p
            (.online { number := number, monitorTime := time, deadline := monitorDeadline s.clock time, lateCount := 0 })
        attention := s.attention.set p (some .start)
        exchange := { s.exchange with sessions := s.exchange.sessions.set p (some .start) } }
  (s1.writeMonitor p).raisePeer p

end Sys2Proof.Machine
end

