-- ==== Sys2Proof/Machine/Arrival.lean ====
section
/-!
DEFINITION. From a well-formed frame to its reply (R10 to R12, R24, R25): disposal at the link, qualification and fencing at
the session monitor, the service, and the reply.
-/

namespace Sys2Proof.Machine

/-- R25: an arrival that carries the current session number restarts the monitor deadline, and returns a LATE port to
ONLINE (entry 8). -/
def State.qualify (s : State) (p : Port) (session : Half) : State :=
  match s.ports.get p with
  | .online m =>
    if m.number = session then
      s.setPort p (.online { m with deadline := monitorDeadline s.clock m.monitorTime })
    else s
  | .late m =>
    if m.number = session then
      ((s.setPort p (.online { m with deadline := monitorDeadline s.clock m.monitorTime })).writeMonitor p).raisePeer p
    else s
  | .offline => s
  | .lost => s

/-- R24: a request passes to its service when its session field is the port's current session number; else NO_SESSION, with
detail 1 where the port has another session. -/
def fenced (p : Port) (session : Half) (serve : SessionRef → State → State × Answer) (s : State) : State × Answer :=
  match s.session p with
  | none => (s, .refuse .noSession 0)
  | some who => if who.number = session then serve who s else (s, .refuse .noSession 1)

/-- R12: the reply placed in the slot, with the port state as it stands. -/
def State.placeReply (s : State) (p : Port) (r : Request) (a : Answer) : State :=
  s.setLink p { s.links.get p with reply := some (a.frame r.tag r.kind (s.ports.get p).stateCode) }

/-- R11, R12: an arrival: the monitor's part, the service, the reply. -/
def State.arrive (s : State) (p : Port) (r : Request) (serve : State → State × Answer) : State :=
  let t := serve (s.qualify p r.session)
  t.1.placeReply p r t.2

/-- R10: a well-formed frame that finds the slot occupied. -/
def Link.refuseFrame (l : Link) : Link := { l with refused := true, refusedCount := satInc l.refusedCount }

/-- R9: a frame that is not well-formed. -/
def Link.discardFrame (l : Link) : Link := { l with discarded := true, discardedCount := satInc l.discardedCount }

/-- R6 step 3: a well-formed frame: refused where the slot is occupied, else an arrival. -/
def State.dispose (s : State) (p : Port) (r : Request) (serve : State → State × Answer) : State :=
  if (s.links.get p).reply.isSome then s.setLink p (s.links.get p).refuseFrame else s.arrive p r serve

/-- R19, R20: a selection of the port can end in an arrival: the part is out of reset, and the link is not in a selection
that it ignores. -/
def State.takesFrames (s : State) (p : Port) : Bool := s.phase == .running && (s.links.get p).selection != .ignored

/-- A request row: a well-formed frame of that request at the end of its selection (entry 1). In reset there is no
arrival. -/
def State.request (s : State) (p : Port) (r : Request) (serve : State → State × Answer) : State :=
  if s.takesFrames p then s.dispose p r serve else s

/-- R11: the link's own answer to an unknown kind. -/
def serveUnknown (s : State) : State × Answer := (s, .refuse .badRequest 0)

/-- R11: UNKNOWN_KIND. -/
def execUnknownKind (p : Port) (tag kind : Byte) (session : Half) (body : List Byte) (s : State) :
    Host.Outcome State Fault Refusal :=
  .next (s.request p ⟨tag, kind, session, body⟩ serveUnknown)

end Sys2Proof.Machine
end

