-- ==== Sys2Proof/Machine/Messages.lean ====
section
/-!
DEFINITION. Requests of the message exchange (chapter 8): SEND (R142, R143), RECEIVE (R145), FLUSH_QUEUE (R148), SET_COALESCE
(R149), and the coalesce deadline (R151).
-/

namespace Sys2Proof.Machine

/-- R140: a change of the exchange written to its words, with everything that follows. -/
def State.writeExchange (before after : State) : State := after.writeSystem (exchangePoints before after)

/-! ## SEND -/

/-- R142 check 4, R143: the ports with a session that a destination reaches; for ALL, every port but the requester's. -/
def State.destinations (s : State) (requester : Port) : Option Port → List Port
  | some q => if (s.session q).isSome then [q] else []
  | none => requester.others.filter fun q => (s.session q).isSome

/-- R142: the detail of NO_ROUTE: the destination's port code, 0 for ALL. -/
def routeDetail (d : Option Port) : Nat := (optPortCode d).toNat

/-- R139: the session's quota count. -/
def State.quota (s : State) (p : Port) : Nat := (s.exchange.sessions.get p).elim 0 MessageSession.quota

/-- R184: a set of ports as its bits. -/
def portSet (ps : List Port) : PortSet := ps.foldl (fun m p => m ||| p.single) 0

/-- R143: a SEND that passed its checks, with the free list's head. -/
def State.post (s : State) (who : SessionRef) (b : Nat) (rest : List Nat) (urgent returnFlag : Bool)
    (destination : Option Port) (payload : List Byte) : State × Answer :=
  let ports := s.destinations who.port destination
  let number := seqNext s.exchange.counter
  let buffer : Buffer :=
    { sender := who, number := number, urgent := urgent, returnFlag := returnFlag, broadcast := destination.isNone,
      payload := payload, references := ports.length, sendTime := s.clock }
  let s1 := { s with exchange := { s.exchange with counter := number, free := rest } }.setBuffer b (some buffer)
  let s2 := ports.foldl (fun s q => s.appendEntry q urgent { buffer := b, delivery := .direct }) s1
  let s3 := s2.mapMessages who.port fun m => { m with quota := m.quota + 1 }
  (s.writeExchange s3, ⟨.done, number, [(portSet ports).setWidth 8]⟩)

/-- R142 checks 3 to 6. -/
def State.decideSend (s : State) (who : SessionRef) (urgent returnFlag : Bool) (destination : Option Port)
    (payload : List Byte) : State × Answer :=
  if Config.payloadBytes < payload.length then (s, .refuse .badRequest 2)
  else if s.destinations who.port destination = [] then (s, .refuse .noRoute (routeDetail destination))
  else if Config.sessionBuffers ≤ s.quota who.port then (s, .refuse .quota 24)
  else
    match s.exchange.free with
    | [] => (s, .refuse .poolEmpty 0)
    | b :: rest => s.post who b rest urgent returnFlag destination payload

/-- R142: SEND at the message exchange. -/
def serveSend (who : SessionRef) (body : List Byte) (s : State) : State × Answer :=
  match body with
  | destinationByte :: optionsByte :: payload =>
    match destinationOf destinationByte, sendOptions optionsByte with
    | some destination, some (urgent, returnFlag) => s.decideSend who urgent returnFlag destination payload
    | _, _ => (s, .refuse .badRequest 1)
  | _ => (s, .refuse .badRequest 0)

/-- R142: SEND. -/
def execSend (p : Port) (tag : Byte) (session : Half) (body : List Byte) (s : State) :
    Host.Outcome State Fault Refusal :=
  .next (s.request p ⟨tag, Kind.send.code, session, body⟩ (fenced p session (serveSend · body)))

/-! ## RECEIVE -/

/-- R145, R188: the reply body of a RECEIVE. -/
def Buffer.report (k : Buffer) (delivery : Delivery) (clock : Clock) : List Byte :=
  [k.sender.port.code] ++ halfBytes k.sender.number ++ halfBytes k.number ++
    [natByte (flagNat (delivery == .returned) + 2 * flagNat k.urgent + 4 * flagNat k.returnFlag + 8 * flagNat k.broadcast)] ++
    clockBytes (clock - k.sendTime) ++ [natByte k.payload.length] ++ k.payload

/-- R138: a port's queues replaced. -/
def State.setQueues (s : State) (p : Port) (urgent normal : List Entry) : State :=
  { s with
      exchange :=
        { s.exchange with urgent := s.exchange.urgent.set p urgent, normal := s.exchange.normal.set p normal } }

/-- R145: the head entry taken, with the queues it leaves. -/
def State.receiveEntry (s : State) (p : Port) (e : Entry) (urgent normal : List Entry) : State × Answer :=
  let s1 := (s.setQueues p urgent normal).releaseBuffer e.buffer
  let s2 := if normal.isEmpty then s1.stopCoalesce p else s1
  (s.writeExchange s2,
    .done (urgent.length + normal.length) ((s.buffer e.buffer).elim [] fun k => k.report e.delivery s.clock))

/-- R145: RECEIVE at the message exchange. -/
def serveReceive (who : SessionRef) (body : List Byte) (s : State) : State × Answer :=
  if body = [] then
    match s.exchange.urgent.get who.port, s.exchange.normal.get who.port with
    | e :: rest, normal => s.receiveEntry who.port e rest normal
    | [], e :: rest => s.receiveEntry who.port e [] rest
    | [], [] => (s, .refuse .queueEmpty 0)
  else (s, .refuse .badRequest 0)

/-- R145: RECEIVE. -/
def execReceive (p : Port) (tag : Byte) (session : Half) (body : List Byte) (s : State) :
    Host.Outcome State Fault Refusal :=
  .next (s.request p ⟨tag, Kind.receive.code, session, body⟩ (fenced p session (serveReceive · body)))

/-! ## FLUSH_QUEUE -/

/-- R148: the named queues of a port flushed. -/
def State.flush (s : State) (p : Port) (urgent normal : Bool) : State × Answer :=
  let r := s.drain p urgent normal
  let t := if normal then r.1.stopCoalesce p else r.1
  (s.writeExchange t, .done (s.queued p urgent normal).length [natByte r.2.1, natByte r.2.2])

/-- R148: FLUSH_QUEUE at the message exchange. -/
def serveFlushQueue (who : SessionRef) (body : List Byte) (s : State) : State × Answer :=
  match body with
  | [code] =>
    match flushCode code with
    | none => (s, .refuse .badRequest 1)
    | some (urgent, normal) => s.flush who.port urgent normal
  | _ => (s, .refuse .badRequest 0)

/-- R148: FLUSH_QUEUE. -/
def execFlushQueue (p : Port) (tag : Byte) (session : Half) (body : List Byte) (s : State) :
    Host.Outcome State Fault Refusal :=
  .next (s.request p ⟨tag, Kind.flushQueue.code, session, body⟩ (fenced p session (serveFlushQueue · body)))

/-! ## Coalescing -/

/-- R149: the queues of a port evaluated against new settings. -/
def State.recoalesce (s : State) (p : Port) (threshold time : Byte) : State :=
  let t := s.mapMessages p fun m => { m with threshold := threshold, time := time, deadline := none }
  if threshold.toNat ≤ (s.exchange.normal.get p).length then t.raise .message .none p
  else if !(s.exchange.normal.get p).isEmpty && time != 0 then t.startCoalesce p
  else t

/-- R149: SET_COALESCE at the message exchange. -/
def serveSetCoalesce (who : SessionRef) (body : List Byte) (s : State) : State × Answer :=
  match body with
  | [threshold, time] =>
    if threshold.toNat = 0 ∨ 16 < threshold.toNat then (s, .refuse .range 1)
    else (s.recoalesce who.port threshold time, .done 0 [])
  | _ => (s, .refuse .badRequest 0)

/-- R149: SET_COALESCE. -/
def execSetCoalesce (p : Port) (tag : Byte) (session : Half) (body : List Byte) (s : State) :
    Host.Outcome State Fault Refusal :=
  .next (s.request p ⟨tag, Kind.setCoalesce.code, session, body⟩ (fenced p session (serveSetCoalesce · body)))

/-- R151: the coalesce timer of a port expires. -/
def State.coalesceExpires (s : State) (p : Port) : State :=
  if (s.exchange.normal.get p).isEmpty then s.stopCoalesce p else (s.stopCoalesce p).raise .message .none p

/-- R151: the coalesce deadline of a port, if the clock stands at it. Nothing happens where it does not (entry 2). -/
def State.coalesceExpiry (s : State) (p : Port) : State :=
  match (s.exchange.sessions.get p).bind MessageSession.deadline with
  | none => s
  | some d => if reached d s.clock then s.coalesceExpires p else s

/-- R151: COALESCE_DEADLINE_EXPIRY. -/
def execCoalesceDeadlineExpiry (p : Port) (s : State) : Host.Outcome State Fault Refusal := .next (s.coalesceExpiry p)

end Sys2Proof.Machine
end

