-- ==== Sys2Proof/Machine/Monitor.lean ====
section
/-!
DEFINITION. Requests of the link and the session monitor: IDENTIFY (R15, R16), JOIN (R26 to R28), LEAVE (R29), PING (R30), and
the monitor's two expiries (R31, R32).
-/

namespace Sys2Proof.Machine

/-! ## IDENTIFY -/

/-- R16, R188: the 39 bytes of an IDENTIFY reply. -/
def State.identity (s : State) (p : Port) : List Byte :=
  halfBytes Config.vendorCode ++ halfBytes Config.partCode ++ [Config.revision, natByte 4] ++
    halfBytes (natHalf Config.bitPoints) ++ halfBytes (natHalf Config.wordPoints) ++ [natByte Config.zoneCount] ++
    halfBytes (natHalf Config.safeBits) ++ halfBytes (natHalf Config.safeWords) ++
    [natByte Config.tokenCount, natByte 3, natByte Config.timerCount, natByte Config.bufferCount,
      natByte Config.payloadBytes, natByte Config.sessionBuffers, natByte Config.slotCount, natByte Config.faultEntries] ++
    halfBytes (natHalf Config.largestRequest) ++ halfBytes (natHalf Config.largestReply) ++ clockBytes s.clock ++
    [s.epoch, p.code] ++ halfBytes (s.links.get p).discardedCount ++ halfBytes (s.links.get p).refusedCount ++
    halfBytes s.exchange.discards

/-- R15: both counts of the link at 0. -/
def Link.clearCounts (l : Link) : Link := { l with discardedCount := 0, refusedCount := 0 }

/-- R15: IDENTIFY at the link. -/
def serveIdentify (p : Port) (body : List Byte) (s : State) : State × Answer :=
  if body = [] ∨ body = [0] then (s, .done 0 (s.identity p))
  else if body = [1] then (s.setLink p (s.links.get p).clearCounts, .done 0 (s.identity p))
  else (s, .refuse .badRequest 0)

/-- R15: IDENTIFY. -/
def execIdentify (p : Port) (tag : Byte) (session : Half) (body : List Byte) (s : State) :
    Host.Outcome State Fault Refusal :=
  .next (s.request p ⟨tag, Kind.identify.code, session, body⟩ (serveIdentify p body))

/-! ## JOIN -/

/-- R27: the port's session ends REPLACED, and 4084+p is raised. The port has no current session meanwhile. -/
def State.replaceSession (s : State) (p : Port) : State :=
  match s.session p with
  | some ended => (s.setPort p .offline).endSession ended .replaced [[.raise (4084 + p.index)]]
  | none => s

/-- R26: the number of the session a JOIN replaces, 0 for none. -/
def State.sessionNumber (s : State) (p : Port) : Half := (s.ports.get p).number

/-- R26: JOIN at the session monitor. -/
def serveJoin (p : Port) (body : List Byte) (s : State) : State × Answer :=
  match body with
  | [hi, lo] =>
    if hi = 0 ∧ lo ≠ 0 then
      let t := (s.replaceSession p).beginSession p lo
      (t, ⟨.done, t.sessionNumber p, halfBytes (s.sessionNumber p)⟩)
    else (s, .refuse .badRequest 0)
  | _ => (s, .refuse .badRequest 0)

/-- R26: JOIN. -/
def execJoin (p : Port) (tag : Byte) (session : Half) (body : List Byte) (s : State) :
    Host.Outcome State Fault Refusal :=
  .next (s.request p ⟨tag, Kind.join.code, session, body⟩ (serveJoin p body))

/-! ## LEAVE and PING -/

/-- R29: LEAVE at the session monitor. -/
def serveLeave (who : SessionRef) (body : List Byte) (s : State) : State × Answer :=
  if body = [] then
    let t := s.setPort who.port .offline
    ((t.endSession who .leave [[.system (monitorPoints who.port .offline)]]).raisePeer who.port, .done 0 [])
  else (s, .refuse .badRequest 0)

/-- R29: LEAVE. -/
def execLeave (p : Port) (tag : Byte) (session : Half) (body : List Byte) (s : State) :
    Host.Outcome State Fault Refusal :=
  .next (s.request p ⟨tag, Kind.leave.code, session, body⟩ (fenced p session (serveLeave · body)))

/-- R30: the session's LATE count. -/
def State.lateCount (s : State) (p : Port) : Half := (s.ports.get p).session.elim 0 Membership.lateCount

/-- R30: PING at the session monitor. -/
def servePing (who : SessionRef) (body : List Byte) (s : State) : State × Answer :=
  if body = [] then (s, ⟨.done, s.lateCount who.port, []⟩) else (s, .refuse .badRequest 0)

/-- R30: PING. -/
def execPing (p : Port) (tag : Byte) (session : Half) (body : List Byte) (s : State) :
    Host.Outcome State Fault Refusal :=
  .next (s.request p ⟨tag, Kind.ping.code, session, body⟩ (fenced p session (servePing · body)))

/-! ## The expiries -/

/-- R31: the record after a first expiry. -/
def Membership.fallLate (m : Membership) : Membership :=
  { m with lateCount := satInc m.lateCount, deadline := monitorDeadline m.deadline m.monitorTime }

/-- R31: the deadline of an ONLINE port is reached. Nothing happens where none is (entry 2). -/
def State.firstExpiry (s : State) (p : Port) : State :=
  match s.ports.get p with
  | .online m => if reached m.deadline s.clock then ((s.setPort p (.late m.fallLate)).writeMonitor p).raisePeer p else s
  | .late _ => s
  | .offline => s
  | .lost => s

/-- R31: MONITOR_FIRST_EXPIRY. -/
def execMonitorFirstExpiry (p : Port) (s : State) : Host.Outcome State Fault Refusal := .next (s.firstExpiry p)

/-- R32: the deadline of a LATE port is reached: its session ends LOST. Nothing happens where none is (entry 2). -/
def State.secondExpiry (s : State) (p : Port) : State :=
  match s.ports.get p with
  | .late m =>
    if reached m.deadline s.clock then
      ((s.setPort p .lost).endSession ⟨p, m.number⟩ .lost
        [[.system (monitorPoints p .lost)], [.raise (4080 + p.index)]]).raisePeer p
    else s
  | .online _ => s
  | .offline => s
  | .lost => s

/-- R32: MONITOR_SECOND_EXPIRY. -/
def execMonitorSecondExpiry (p : Port) (s : State) : Host.Outcome State Fault Refusal := .next (s.secondExpiry p)

end Sys2Proof.Machine
end

