-- ==== Sys2Proof/Machine/ZoneTable.lean ====
section
/-!
DEFINITION. Requests of the zone table (chapter 3): DEFINE_ZONE, RETIRE_ZONE, SET_ZONE_POLICY, LOAD_SAFE_IMAGE, QUERY_ZONE.
-/

namespace Sys2Proof.Machine

/-! ## Ranges -/

/-- R41: a bit range that a zone may have. -/
def bitRangeMeets (first count : Nat) : Bool :=
  decide (count % 8 = 0 ∧ count ≤ 3968 ∧
    (count = 0 ∨ (first % 8 = 0 ∧ 128 ≤ first ∧ first ≤ 4088 ∧ first + count ≤ 4096)))

/-- R41: a word range that a zone may have. -/
def wordRangeMeets (first count : Nat) : Bool :=
  decide (count ≤ 928 ∧ (count = 0 ∨ (96 ≤ first ∧ first ≤ 1023 ∧ first + count ≤ 1024)))

/-- Two ranges have a point in common. -/
def rangesMeet (first count first' count' : Nat) : Bool :=
  decide (0 < count ∧ 0 < count' ∧ first < first' + count' ∧ first' < first + count)

/-- R48 check 8: a zone holds a point of either range. -/
def ZoneRecord.overlaps (r : ZoneRecord) (bitFirst bitCount wordFirst wordCount : Nat) : Bool :=
  rangesMeet bitFirst bitCount r.bitFirst r.bitCount || rangesMeet wordFirst wordCount r.wordFirst r.wordCount

/-- R48 check 8: the lowest-numbered zone that overlaps. -/
def State.overlapping (s : State) (bitFirst bitCount wordFirst wordCount : Nat) : Option Nat :=
  zoneNumbers.find? fun z => (s.zone z).any fun r => r.overlaps bitFirst bitCount wordFirst wordCount

/-- R48 check 7: the number a definition takes: the one named, if UNDEFINED, or the lowest UNDEFINED one. -/
def State.freeZone (s : State) (number : Nat) : Option Nat :=
  if number = 0 then zoneNumbers.find? fun z => (s.zone z).isNone
  else if (s.zone number).isNone then some number else none

/-- R131: every bit the timer names has a holding zone. -/
def State.timerDefined (s : State) (t : Armed) : Bool :=
  s.bitHolder t.source != .nothing && t.resetBit.all fun b => s.bitHolder b != .nothing

/-- R131: a definition at the timer array. -/
def State.timersDefined (s : State) : State :=
  s.mapTimers fun t => if s.timerDefined t then { t with sourceUndefined := false } else t

/-- R131: a retirement at the timer array. -/
def State.timersRetired (s : State) (r : ZoneRecord) : State :=
  s.mapTimers fun t => if r.hasBit t.source || t.resetBit.any r.hasBit then { t with sourceUndefined := true } else t

/-! ## DEFINE_ZONE -/

/-- R49: the record of a new zone. -/
def ZoneRecord.define (owner : SessionRef) (bitFirst bitCount wordFirst wordCount : Nat) (rights : PortSet) (clock : Clock)
    (epoch : Byte) : ZoneRecord :=
  { status := .owned owner, bitFirst := if bitCount = 0 then 0 else bitFirst, bitCount := bitCount,
    wordFirst := if wordCount = 0 then 0 else wordFirst, wordCount := wordCount, standby := none, delay := 0,
    policy := .hold, rights := rights ||| owner.port.single, generation := 0, tenure := 1, lastTime := clock,
    lastEpoch := epoch }

/-- R49: an executed definition. -/
def State.defineZone (s : State) (z : Nat) (r : ZoneRecord) (definer : Port) : State :=
  let t := (s.setZone z (some r)).timersDefined
  (t.writeSystem (zonePoints s t)).raise .zone (.zone z) definer

/-- R48: DEFINE_ZONE at the zone table. -/
def serveDefineZone (who : SessionRef) (body : List Byte) (s : State) : State × Answer :=
  match body with
  | [n, bfHi, bfLo, bcHi, bcLo, wfHi, wfLo, wcHi, wcLo, rightsByte] =>
    let bitFirst := (half bfHi bfLo).toNat
    let bitCount := (half bcHi bcLo).toNat
    let wordFirst := (half wfHi wfLo).toNat
    let wordCount := (half wcHi wcLo).toNat
    match portSetOf rightsByte with
    | none => (s, .refuse .badRequest 1)
    | some rights =>
      if bitCount = 0 ∧ wordCount = 0 then (s, .refuse .badRequest 2)
      else if Config.zoneCount < n.toNat then (s, .refuse .range 1)
      else if !bitRangeMeets bitFirst bitCount then (s, .refuse .range 2)
      else if !wordRangeMeets wordFirst wordCount then (s, .refuse .range 3)
      else
        match s.freeZone n.toNat with
        | none => (s, .refuse .tableFull n.toNat)
        | some z =>
          match s.overlapping bitFirst bitCount wordFirst wordCount with
          | some other => (s, .refuse .overlap other)
          | none =>
            (s.defineZone z (.define who bitFirst bitCount wordFirst wordCount rights s.clock s.epoch) who.port,
              .done z [])
  | _ => (s, .refuse .badRequest 0)

/-- R48: DEFINE_ZONE. -/
def execDefineZone (p : Port) (tag : Byte) (session : Half) (body : List Byte) (s : State) :
    Host.Outcome State Fault Refusal :=
  .next (s.request p ⟨tag, Kind.defineZone.code, session, body⟩ (fenced p session (serveDefineZone · body)))

/-! ## Checks that several requests make -/

/-- R51, R54, R55, R82, R84, R85: the zone number is 1 to 31, else RANGE 1, and the zone is not UNDEFINED, else NOT_FOUND. -/
def State.definedZone (s : State) (n : Byte) : Except Answer (Nat × ZoneRecord) :=
  if n.toNat = 0 ∨ Config.zoneCount < n.toNat then .error (.refuse .range 1)
  else
    match s.zone n.toNat with
    | none => .error (.refuse .notFound 0)
    | some r => .ok (n.toNat, r)

/-- The zone is OWNED by the session. -/
def ZoneRecord.ownedBy (r : ZoneRecord) (who : SessionRef) : Bool :=
  match r.status with
  | .owned owner => owner == who
  | _ => false

/-! ## RETIRE_ZONE -/

/-- R56: an executed retirement. The clearing and the zone table's points are written in a free order (entry 5). -/
def State.retireZone (s : State) (z : Nat) (r : ZoneRecord) : State :=
  let t := ((s.setZone z none).timersRetired r).removeWatches z
  t.actFreely [[.clearing r.zeros], systemAction (zonePoints s t)]

/-- R55 check 4: why a zone may not be retired by the session; none where it may. -/
def ZoneRecord.retireRefusal (r : ZoneRecord) (who : SessionRef) : Option ReplyOutcome :=
  match r.status with
  | .owned owner => if owner = who then none else some .notOwner
  | .vacant => if portIn who.port r.rights then none else some .notPermitted
  | .orphaned => if portIn who.port r.rights then none else some .notPermitted
  | .handover _ => some .zoneState

/-- R55: RETIRE_ZONE at the zone table. -/
def serveRetireZone (who : SessionRef) (body : List Byte) (s : State) : State × Answer :=
  match body with
  | [n] =>
    match s.definedZone n with
    | .error a => (s, a)
    | .ok (z, r) =>
      match r.retireRefusal who with
      | some o => (s, .refuse o 0)
      | none => (s.retireZone z r, .done 0 [])
  | _ => (s, .refuse .badRequest 0)

/-- R55: RETIRE_ZONE. -/
def execRetireZone (p : Port) (tag : Byte) (session : Half) (body : List Byte) (s : State) :
    Host.Outcome State Fault Refusal :=
  .next (s.request p ⟨tag, Kind.retireZone.code, session, body⟩ (fenced p session (serveRetireZone · body)))

/-! ## SET_ZONE_POLICY and the safe store -/

/-- The zone's loss policy is SUBSTITUTE. -/
def ZoneRecord.isSubstitute (r : ZoneRecord) : Bool :=
  match r.policy with
  | .substitute _ => true
  | _ => false

/-- R53: the free bit points of the safe store. -/
def State.safeFreeBits (s : State) : Nat :=
  Config.safeBits -
    (s.definedZones.map fun z => ((s.zone z).filter ZoneRecord.isSubstitute).elim 0 ZoneRecord.bitCount).sum

/-- R53: the free word points of the safe store. -/
def State.safeFreeWords (s : State) : Nat :=
  Config.safeWords -
    (s.definedZones.map fun z => ((s.zone z).filter ZoneRecord.isSubstitute).elim 0 ZoneRecord.wordCount).sum

/-- R52, R53: a new safe image: zeros, not loaded. -/
def ZoneRecord.emptyImage (r : ZoneRecord) : SafeImage :=
  { loaded := false, bits := List.replicate r.bitCount false, words := List.replicate r.wordCount 0 }

/-- R52: the policy after a SET_ZONE_POLICY. A SUBSTITUTE zone that stays SUBSTITUTE keeps its safe image. -/
def ZoneRecord.newPolicy (r : ZoneRecord) : PolicyCode → LossPolicy
  | .hold => .hold
  | .clear => .clear
  | .substitute => if r.isSubstitute then r.policy else .substitute r.emptyImage

/-- R51 check 8: what the safe store is short of: 1 bits, 2 words, 3 both, 0 neither. -/
def State.safeShort (s : State) (r : ZoneRecord) : Nat :=
  flagNat (decide (s.safeFreeBits < r.bitCount)) + 2 * flagNat (decide (s.safeFreeWords < r.wordCount))

/-- R51: SET_ZONE_POLICY at the zone table. -/
def serveSetZonePolicy (who : SessionRef) (body : List Byte) (s : State) : State × Answer :=
  match body with
  | [n, policyByte, standbyByte, delay, rightsByte] =>
    match policyCode policyByte, standbyCode standbyByte, portSetOf rightsByte with
    | some policy, some standby, some requested =>
      match s.definedZone n with
      | .error a => (s, a)
      | .ok (z, r) =>
        let rights := requested ||| who.port.single
        let enters := policy == .substitute && !r.isSubstitute
        if !r.ownedBy who then (s, .refuse .notOwner 0)
        else if standby.any fun q => !portIn q rights || q == who.port then (s, .refuse .notPermitted 0)
        else if enters && decide (255 < r.imageSize) then (s, .refuse .tooLarge r.imageSize)
        else if enters && s.safeShort r != 0 then (s, .refuse .safeStoreFull (s.safeShort r))
        else
          (s.setZone z
              (some { r with policy := r.newPolicy policy, standby := standby, delay := delay, rights := rights }),
            .done 0 [])
    | _, _, _ => (s, .refuse .badRequest 1)
  | _ => (s, .refuse .badRequest 0)

/-- R51: SET_ZONE_POLICY. -/
def execSetZonePolicy (p : Port) (tag : Byte) (session : Half) (body : List Byte) (s : State) :
    Host.Outcome State Fault Refusal :=
  .next (s.request p ⟨tag, Kind.setZonePolicy.code, session, body⟩ (fenced p session (serveSetZonePolicy · body)))

/-! ## LOAD_SAFE_IMAGE -/

/-- R54: the safe values of a body: the zone's bits, then its words. -/
def ZoneRecord.loadedImage (r : ZoneRecord) (values : List Byte) : SafeImage :=
  { loaded := true, bits := unpackBytes (values.take (r.bitCount / 8)), words := halves (values.drop (r.bitCount / 8)) }

/-- R54: LOAD_SAFE_IMAGE at the zone table. -/
def serveLoadSafeImage (who : SessionRef) (body : List Byte) (s : State) : State × Answer :=
  match body with
  | n :: values =>
    match s.definedZone n with
    | .error a => (s, a)
    | .ok (z, r) =>
      if !r.ownedBy who then (s, .refuse .notOwner 0)
      else if !r.isSubstitute then (s, .refuse .zoneState 0)
      else if values.length ≠ r.imageSize then (s, .refuse .badRequest 2)
      else (s.setZone z (some { r with policy := .substitute (r.loadedImage values) }), .done 0 [])
  | [] => (s, .refuse .badRequest 0)

/-- R54: LOAD_SAFE_IMAGE. -/
def execLoadSafeImage (p : Port) (tag : Byte) (session : Half) (body : List Byte) (s : State) :
    Host.Outcome State Fault Refusal :=
  .next (s.request p ⟨tag, Kind.loadSafeImage.code, session, body⟩ (fenced p session (serveLoadSafeImage · body)))

/-! ## QUERY_ZONE -/

/-- R58: owner code and session of a zone's state, 0 and 0 outside OWNED. -/
def ZoneStatus.ownerBytes : ZoneStatus → List Byte
  | .owned owner => owner.port.code :: halfBytes owner.number
  | _ => [0, 0, 0]

/-- R58: the takeover deadline, none outside HANDOVER. -/
def ZoneStatus.deadline? : ZoneStatus → Option Clock
  | .handover d => some d
  | _ => none

/-- R188: the safe image flags and the deadline flag of a QUERY_ZONE reply. -/
def ZoneRecord.queryFlags (r : ZoneRecord) : Byte :=
  match r.policy with
  | .substitute image => natByte (1 + 2 * flagNat image.loaded + 4 * flagNat r.status.deadline?.isSome)
  | _ => natByte (4 * flagNat r.status.deadline?.isSome)

/-- R58, R188: the record part of a QUERY_ZONE reply, after the number. -/
def ZoneRecord.report (r : ZoneRecord) : List Byte :=
  [r.status.code] ++ halfBytes (natHalf r.bitFirst) ++ halfBytes (natHalf r.bitCount) ++ halfBytes (natHalf r.wordFirst) ++
    halfBytes (natHalf r.wordCount) ++ r.status.ownerBytes ++ [optPortCode r.standby, r.delay, r.policy.code, r.queryFlags,
      r.rights.setWidth 8] ++ halfBytes r.generation ++ [r.tenure] ++ clockBytes r.lastTime ++ [r.lastEpoch] ++
    clockBytes (r.status.deadline?.getD 0)

/-- R42, R58: the record part of a QUERY_ZONE reply for zone 0. -/
def SystemZone.report (z : SystemZone) : List Byte :=
  [1] ++ halfBytes 0 ++ halfBytes (natHalf Config.systemBits) ++ halfBytes 0 ++ halfBytes (natHalf Config.systemWords) ++
    [15, 0, 0] ++ [0, 0, 0, 0, 0] ++ halfBytes z.generation ++ [0] ++ clockBytes z.lastTime ++ [z.lastEpoch] ++ clockBytes 0

/-- R58: the record part of a QUERY_ZONE reply for any number. -/
def State.zoneReport (s : State) (n : Nat) : List Byte :=
  if n = 0 then s.systemZone.report
  else
    match s.zone n with
    | some r => r.report
    | none => List.replicate 29 0

/-- R58: QUERY_ZONE at the zone table. -/
def serveQueryZone (_who : SessionRef) (body : List Byte) (s : State) : State × Answer :=
  match body with
  | [n] =>
    if Config.zoneCount < n.toNat then (s, .refuse .range 1)
    else
      (s, .done 0 ([n] ++ s.zoneReport n.toNat ++ halfBytes (natHalf s.safeFreeBits) ++
        halfBytes (natHalf s.safeFreeWords)))
  | _ => (s, .refuse .badRequest 0)

/-- R58: QUERY_ZONE. -/
def execQueryZone (p : Port) (tag : Byte) (session : Half) (body : List Byte) (s : State) :
    Host.Outcome State Fault Refusal :=
  .next (s.request p ⟨tag, Kind.queryZone.code, session, body⟩ (fenced p session (serveQueryZone · body)))

end Sys2Proof.Machine
end

