-- ==== Sys2Proof/Machine/Ownership.lean ====
section
/-!
DEFINITION. Ownership (chapter 5): CLAIM (R82, R83), RELEASE (R84), HAND_OVER (R85, R86), and the takeover deadline (R93).
-/

namespace Sys2Proof.Machine

/-- R79, R80: a zone's record changed by one event of the zone table, with the ownership notice and the points. -/
def State.changeZone (s : State) (z : Nat) (r : ZoneRecord) : State :=
  let t := s.setZone z (some r)
  (t.fireOwnership [z]).writeSystem (zonePoints s t)

/-- R81, R83, R86, R93: zone `z` passes to a session. -/
def State.giveZone (s : State) (z : Nat) (r : ZoneRecord) (owner : SessionRef) : State :=
  (s.changeZone z (r.passTo owner)).raise .zone (.zone z) owner.port

/-- R83: the reply body of a CLAIM: tenure and generation. -/
def ZoneRecord.claimBody (r : ZoneRecord) : List Byte := r.tenure :: halfBytes r.generation

/-- R83: a CLAIM that passed its checks, by the zone's state. -/
def State.decideClaim (s : State) (who : SessionRef) (z : Nat) (r : ZoneRecord) : State × Answer :=
  match r.status with
  | .vacant => (s.giveZone z r who, .done 0 (r.passTo who).claimBody)
  | .orphaned => (s.giveZone z r who, .done 0 (r.passTo who).claimBody)
  | .handover _ =>
    if r.standby = some who.port then (s.giveZone z r who, .done 0 (r.passTo who).claimBody)
    else (s, .refuse .handoverPending (optPortCode r.standby).toNat)
  | .owned owner =>
    if owner = who then (s, .done 1 r.claimBody) else (s, .refuse .zoneState owner.port.code.toNat)

/-- R82: CLAIM at the zone table. -/
def serveClaim (who : SessionRef) (body : List Byte) (s : State) : State × Answer :=
  match body with
  | [n] =>
    match s.definedZone n with
    | .error a => (s, a)
    | .ok (z, r) => if portIn who.port r.rights then s.decideClaim who z r else (s, .refuse .notPermitted 0)
  | _ => (s, .refuse .badRequest 0)

/-- R82: CLAIM. -/
def execClaim (p : Port) (tag : Byte) (session : Half) (body : List Byte) (s : State) :
    Host.Outcome State Fault Refusal :=
  .next (s.request p ⟨tag, Kind.claim.code, session, body⟩ (fenced p session (serveClaim · body)))

/-- R84: an executed RELEASE. -/
def State.releaseZone (s : State) (z : Nat) (r : ZoneRecord) (giver : Port) : State :=
  (s.changeZone z { r with status := .vacant, tenure := r.tenure + 1 }).raiseFor .zone (.zone z)
    (r.rightsPorts.filter fun q => q != giver)

/-- R84: RELEASE at the zone table. -/
def serveRelease (who : SessionRef) (body : List Byte) (s : State) : State × Answer :=
  match body with
  | [n] =>
    match s.definedZone n with
    | .error a => (s, a)
    | .ok (z, r) => if r.ownedBy who then (s.releaseZone z r who.port, .done 0 []) else (s, .refuse .notOwner 0)
  | _ => (s, .refuse .badRequest 0)

/-- R84: RELEASE. -/
def execRelease (p : Port) (tag : Byte) (session : Half) (body : List Byte) (s : State) :
    Host.Outcome State Fault Refusal :=
  .next (s.request p ⟨tag, Kind.release.code, session, body⟩ (fenced p session (serveRelease · body)))

/-- R85 checks 5 to 8 and R86: a HAND_OVER to a port. -/
def State.decideHandOver (s : State) (who : SessionRef) (z : Nat) (r : ZoneRecord) (target : Port) : State × Answer :=
  if !r.ownedBy who then (s, .refuse .notOwner 0)
  else if !portIn target r.rights then (s, .refuse .notPermitted 1)
  else if target = who.port then (s, .refuse .notPermitted 2)
  else
    match s.session target with
    | some owner =>
      if (s.ports.get target).isOnline then (s.giveZone z r owner, .done 0 []) else (s, .refuse .notPermitted 3)
    | none => (s, .refuse .notPermitted 3)

/-- R85: HAND_OVER at the zone table. -/
def serveHandOver (who : SessionRef) (body : List Byte) (s : State) : State × Answer :=
  match body with
  | [n, code] =>
    match Port.ofCode code with
    | none => (s, .refuse .badRequest 1)
    | some target =>
      match s.definedZone n with
      | .error a => (s, a)
      | .ok (z, r) => s.decideHandOver who z r target
  | _ => (s, .refuse .badRequest 0)

/-- R85: HAND_OVER. -/
def execHandOver (p : Port) (tag : Byte) (session : Half) (body : List Byte) (s : State) :
    Host.Outcome State Fault Refusal :=
  .next (s.request p ⟨tag, Kind.handOver.code, session, body⟩ (fenced p session (serveHandOver · body)))

/-- R93, R97: a zone whose deadline found no ONLINE standby. The zone table's points and the raise are taken in a free
order (entry 5). -/
def State.orphanZone (s : State) (z : Nat) (r : ZoneRecord) : State :=
  let t := s.setZone z (some { r with status := .orphaned })
  ((t.fireOwnership [z]).raiseFor .zone (.zone z) r.rightsPorts).actFreely
    [systemAction (zonePoints s t), [.raise (4032 + z)]]

/-- R93: the takeover deadline of a zone in HANDOVER is reached. -/
def State.takeover (s : State) (z : Nat) (r : ZoneRecord) : State :=
  match s.eligibleStandby r with
  | some owner => s.giveZone z r owner
  | none => s.orphanZone z r

/-- R93: the takeover deadline of a zone, if the clock stands at it. Nothing happens where it does not (entry 2). -/
def State.takeoverExpiry (s : State) (z : Nat) : State :=
  match s.zone z with
  | none => s
  | some r =>
    match r.status with
    | .handover deadline => if reached deadline s.clock then s.takeover z r else s
    | .owned _ => s
    | .vacant => s
    | .orphaned => s

/-- R93: TAKEOVER_DEADLINE_EXPIRY. -/
def execTakeoverDeadlineExpiry (z : Nat) (s : State) : Host.Outcome State Fault Refusal := .next (s.takeoverExpiry z)

end Sys2Proof.Machine
end

