-- ==== Sys2Proof/Machine/TimerRequests.lean ====
section
/-!
DEFINITION. Requests of the timer array (chapter 7): SET_TIMER (R126, R127), RESET_TIMER (R128), FREE_TIMER (R129), QUERY_TIMER
(R130), and the tick event (R119).
-/

namespace Sys2Proof.Machine

/-- R126 check 8, R128, R129: the timer is attached to a session other than the requester's: that session's port. -/
def busyPort (t : Option Armed) (who : SessionRef) : Option Port :=
  match t.bind Armed.session with
  | some r => if r = who then none else some r.port
  | none => none

/-- R126 checks 6 and 7: the bit is in the image and has a holding zone. -/
def State.bitUsable (s : State) (b : Nat) : Bool := decide (b < Config.bitPoints) && s.bitHolder b != .nothing

/-- R126 check 9: the reset bit is the done bit of an ARMED OFF_DELAY timer. This timer counts by the kind asked for and
not by its present configuration. -/
def State.resetsFromOffDelay (s : State) (number : Nat) (kind : TimerKind) (b : Nat) : Bool :=
  if b = number then kind == .offDelay
  else decide (b < Config.timerCount) && (s.timer b).any fun t => t.kind == .offDelay

/-- R126 check 10: an ARMED timer other than this one names this timer's done bit as its reset bit. -/
def State.doneResets (s : State) (number : Nat) : Bool :=
  (List.range Config.timerCount).any fun t => t != number && (s.timer t).any fun a => a.resetBit == some number

/-- R127: the timer as a SET_TIMER configures it, before the evaluation. -/
def Armed.configure (kind : TimerKind) (source : Nat) (resetBit : Option Nat) (base : Base) (preset : Half)
    (who : SessionRef) : Armed :=
  { kind := kind, source := source, resetBit := resetBit, base := base, preset := preset, count := 0, done := false,
    phase := kind.home, timingSince := 0, session := some who, sourceUndefined := false }

/-- R118, R127, R128: a timer replaced by one event, with its points and everything that follows. -/
def State.changeTimer (s : State) (n : Nat) (t : Option Armed) : State := s.writeTimers (s.setTimer n t)

/-- R127: a timer started and its bits evaluated; answered DONE with its done value. -/
def State.startTimer (s : State) (n : Nat) (t : Armed) : State × Answer :=
  let u := t.evaluate s.bits s.clock
  (s.changeTimer n (some u), .done (flagNat u.done) [])

/-- R126 checks 3 to 10: a SET_TIMER whose codes name a kind and a base. -/
def State.decideSetTimer (s : State) (who : SessionRef) (n : Nat) (kind : TimerKind) (base : Base) (preset : Half)
    (source : Nat) (resetBit : Option Nat) : State × Answer :=
  if resetBit = some source then (s, .refuse .badRequest 2)
  else if Config.timerCount ≤ n then (s, .refuse .range 1)
  else if preset.toNat = 0 ∨ 30000 < preset.toNat then (s, .refuse .range 2)
  else if !s.bitUsable source then (s, .refuse .range 3)
  else if resetBit.any fun b => !s.bitUsable b then (s, .refuse .range 4)
  else
    match busyPort (s.timer n) who with
    | some p => (s, .refuse .timerBusy p.code.toNat)
    | none =>
      if resetBit.any (s.resetsFromOffDelay n kind) then (s, .refuse .notPermitted 1)
      else if kind == .offDelay && s.doneResets n then (s, .refuse .notPermitted 2)
      else s.startTimer n (.configure kind source resetBit base preset who)

/-- R126: SET_TIMER at the timer array. -/
def serveSetTimer (who : SessionRef) (body : List Byte) (s : State) : State × Answer :=
  match body with
  | [n, kindByte, baseByte, presetHi, presetLo, sourceHi, sourceLo, resetHi, resetLo] =>
    match timerKindOf kindByte, baseOf baseByte with
    | some kind, some base =>
      s.decideSetTimer who n.toNat kind base (half presetHi presetLo) (half sourceHi sourceLo).toNat
        (resetBitOf (half resetHi resetLo))
    | _, _ => (s, .refuse .badRequest 1)
  | _ => (s, .refuse .badRequest 0)

/-- R126: SET_TIMER. -/
def execSetTimer (p : Port) (tag : Byte) (session : Half) (body : List Byte) (s : State) :
    Host.Outcome State Fault Refusal :=
  .next (s.request p ⟨tag, Kind.setTimer.code, session, body⟩ (fenced p session (serveSetTimer · body)))

/-- R128: RESET_TIMER at the timer array. -/
def serveResetTimer (who : SessionRef) (body : List Byte) (s : State) : State × Answer :=
  match body with
  | [n] =>
    if Config.timerCount ≤ n.toNat then (s, .refuse .range 1)
    else
      match s.timer n.toNat with
      | none => (s, .refuse .notFound 0)
      | some t =>
        match busyPort (some t) who with
        | some p => (s, .refuse .timerBusy p.code.toNat)
        | none => s.startTimer n.toNat t.held
  | _ => (s, .refuse .badRequest 0)

/-- R128: RESET_TIMER. -/
def execResetTimer (p : Port) (tag : Byte) (session : Half) (body : List Byte) (s : State) :
    Host.Outcome State Fault Refusal :=
  .next (s.request p ⟨tag, Kind.resetTimer.code, session, body⟩ (fenced p session (serveResetTimer · body)))

/-- R129: FREE_TIMER at the timer array. -/
def serveFreeTimer (who : SessionRef) (body : List Byte) (s : State) : State × Answer :=
  match body with
  | [n] =>
    if Config.timerCount ≤ n.toNat then (s, .refuse .range 1)
    else
      match s.timer n.toNat with
      | none => (s, .done 1 [])
      | some t =>
        match busyPort (some t) who with
        | some p => (s, .refuse .timerBusy p.code.toNat)
        | none => (s.changeTimer n.toNat none, .done 0 [])
  | _ => (s, .refuse .badRequest 0)

/-- R129: FREE_TIMER. -/
def execFreeTimer (p : Port) (tag : Byte) (session : Half) (body : List Byte) (s : State) :
    Host.Outcome State Fault Refusal :=
  .next (s.request p ⟨tag, Kind.freeTimer.code, session, body⟩ (fenced p session (serveFreeTimer · body)))

/-- R130, R188: the flags of a QUERY_TIMER reply. -/
def Armed.queryFlags (bits : Memory Bool) (t : Armed) : Byte :=
  natByte (flagNat t.sourceUndefined + 2 * flagNat (bits.read false t.source) + 4 * flagNat (t.isHeld bits) +
    8 * flagNat (t.isHeld bits))

/-- R130, R188: the 17 bytes of a QUERY_TIMER reply. -/
def timerReport (bits : Memory Bool) : Option Armed → List Byte
  | some t =>
    [1, t.kind.code, t.base.code] ++ halfBytes t.preset ++ halfBytes (natHalf t.source) ++
      halfBytes (t.resetBit.elim 0xFFFF natHalf) ++ [t.phase.code] ++ halfBytes t.count ++ [natByte (flagNat t.done)] ++
      optSessionBytes t.session ++ [t.queryFlags bits]
  | none => [0, 0, 0, 0, 0, 0xFF, 0xFF, 0xFF, 0xFF, 0, 0, 0, 0, 0, 0, 0, 0]

/-- R130: QUERY_TIMER at the timer array. -/
def serveQueryTimer (_who : SessionRef) (body : List Byte) (s : State) : State × Answer :=
  match body with
  | [n] =>
    if Config.timerCount ≤ n.toNat then (s, .refuse .range 1)
    else (s, .done n.toNat (timerReport s.bits (s.timer n.toNat)))
  | _ => (s, .refuse .badRequest 0)

/-- R130: QUERY_TIMER. -/
def execQueryTimer (p : Port) (tag : Byte) (session : Half) (body : List Byte) (s : State) :
    Host.Outcome State Fault Refusal :=
  .next (s.request p ⟨tag, Kind.queryTimer.code, session, body⟩ (fenced p session (serveQueryTimer · body)))

/-- R119: the tick event of the clock's value, taken once for each value the clock reaches (entry 4). -/
def State.tickEvent (s : State) : State :=
  if s.tickDue then
    let t := { s with tickDue := false }
    t.writeTimers (t.mapTimers (Armed.tick t.bits t.clock))
  else s

/-- R119: TIMER_TICK. -/
def execTimerTick (s : State) : Host.Outcome State Fault Refusal := .next s.tickEvent

end Sys2Proof.Machine
end

