-- ==== Sys2Proof/Machine/Tokens.lean ====
section
/-!
DEFINITION. The token arbiter (chapter 6): ACQUIRE (R105, R106), RELEASE_TOKEN (R107), CANCEL_WAIT (R108), SET_TOKEN_LIMIT
(R109), QUERY_TOKENS (R110), and the hold deadline (R111).
-/

namespace Sys2Proof.Machine

/-- A token's record changed by one event, with its points (R102). -/
def State.changeToken (s : State) (t : Nat) (k : Token) : State :=
  let u := s.setToken t k
  u.writeSystem (tokenPoints s u)

/-- R101: the token in whose wait list the port stands. -/
def State.waitsFor (s : State) (p : Port) : Option Nat :=
  (List.range Config.tokenCount).find? fun t => (s.token t).waiters.any fun w => w.port == p

/-- R106: the chain of holders and waits from `holder`; the token, held by the requester, that closes a cycle. The chain
has at most three links. -/
def State.deadlock (s : State) (requester : Port) : Nat → Port → Option Nat
  | 0, _ => none
  | links + 1, holder =>
    match s.waitsFor holder with
    | none => none
    | some t =>
      match (s.token t).hold with
      | none => none
      | some h => if h.holder.port = requester then some t else State.deadlock s requester links h.holder.port

/-- R105: an ACQUIRE that passed its checks, by the token's state. -/
def State.decideAcquire (s : State) (who : SessionRef) (t : Nat) (wait : Bool) : State × Answer :=
  let k := s.token t
  match k.hold with
  | none => (s.changeToken t (k.grant who s.clock), .done (flagNat k.broken) [])
  | some h =>
    if h.holder = who then (s, .refuse .alreadyHeld 0)
    else if !wait then (s, .refuse .tokenHeld h.holder.port.code.toNat)
    else
      match s.waitsFor who.port with
      | some u => (s, .refuse .alreadyWaiting u)
      | none =>
        match s.deadlock who.port 4 h.holder.port with
        | some u => (s, .refuse .deadlock u)
        | none =>
          (s.setToken t { k with waiters := k.waiters ++ [who] }, ⟨.queued, natHalf (k.waiters.length + 1), []⟩)

/-- R105: ACQUIRE at the token arbiter. -/
def serveAcquire (who : SessionRef) (body : List Byte) (s : State) : State × Answer :=
  match body with
  | [t, mode] =>
    match acquireMode mode with
    | none => (s, .refuse .badRequest 1)
    | some wait =>
      if Config.tokenCount ≤ t.toNat then (s, .refuse .range 1) else s.decideAcquire who t.toNat wait
  | _ => (s, .refuse .badRequest 0)

/-- R105: ACQUIRE. -/
def execAcquire (p : Port) (tag : Byte) (session : Half) (body : List Byte) (s : State) :
    Host.Outcome State Fault Refusal :=
  .next (s.request p ⟨tag, Kind.acquire.code, session, body⟩ (fenced p session (serveAcquire · body)))

/-- The port code of a token's holder, 0 for a FREE one. -/
def Token.holderNat (t : Token) : Nat := t.hold.elim 0 fun h => h.holder.port.code.toNat

/-- R107: a token given up. -/
def State.giveUpToken (s : State) (t : Nat) : State :=
  let k := s.token t
  (s.changeToken t (k.handOn false s.clock)).raiseGrant t k false

/-- R107: RELEASE_TOKEN at the token arbiter. -/
def serveReleaseToken (who : SessionRef) (body : List Byte) (s : State) : State × Answer :=
  match body with
  | [t] =>
    if Config.tokenCount ≤ t.toNat then (s, .refuse .range 1)
    else if (s.token t.toNat).heldBy who then
      (s.giveUpToken t.toNat, .done ((s.token t.toNat).handOn false s.clock).holderNat [])
    else (s, .refuse .notHolder (s.token t.toNat).holderNat)
  | _ => (s, .refuse .badRequest 0)

/-- R107: RELEASE_TOKEN. -/
def execReleaseToken (p : Port) (tag : Byte) (session : Half) (body : List Byte) (s : State) :
    Host.Outcome State Fault Refusal :=
  .next (s.request p ⟨tag, Kind.releaseToken.code, session, body⟩ (fenced p session (serveReleaseToken · body)))

/-- R108: a session's entry taken out of a wait list. -/
def Token.dropWaiter (t : Token) (who : SessionRef) : Token :=
  { t with waiters := t.waiters.filter fun w => w != who }

/-- R108: CANCEL_WAIT at the token arbiter. -/
def serveCancelWait (who : SessionRef) (body : List Byte) (s : State) : State × Answer :=
  if body = [] then
    match s.waitsFor who.port with
    | none => (s, .refuse .notFound 0)
    | some t => (s.setToken t ((s.token t).dropWaiter who), .done t [])
  else (s, .refuse .badRequest 0)

/-- R108: CANCEL_WAIT. -/
def execCancelWait (p : Port) (tag : Byte) (session : Half) (body : List Byte) (s : State) :
    Host.Outcome State Fault Refusal :=
  .next (s.request p ⟨tag, Kind.cancelWait.code, session, body⟩ (fenced p session (serveCancelWait · body)))

/-- R109: SET_TOKEN_LIMIT at the token arbiter. -/
def serveSetTokenLimit (_who : SessionRef) (body : List Byte) (s : State) : State × Answer :=
  match body with
  | [t, limit] =>
    if Config.tokenCount ≤ t.toNat then (s, .refuse .range 1)
    else
      (s.setToken t.toNat { s.token t.toNat with limit := limit }, .done (s.token t.toNat).limit.toNat [])
  | _ => (s, .refuse .badRequest 0)

/-- R109: SET_TOKEN_LIMIT. -/
def execSetTokenLimit (p : Port) (tag : Byte) (session : Half) (body : List Byte) (s : State) :
    Host.Outcome State Fault Refusal :=
  .next (s.request p ⟨tag, Kind.setTokenLimit.code, session, body⟩ (fenced p session (serveSetTokenLimit · body)))

/-- R110: the remaining hold time. -/
def Token.remaining (t : Token) (clock : Clock) : Clock :=
  match t.hold.bind Hold.deadline with
  | some d => d - clock
  | none => 0

/-- R110, R188: one of the three wait-list entries of a section, zeros where the list is shorter. -/
def Token.waiterBytes (t : Token) (i : Nat) : List Byte := optSessionBytes t.waiters[i]?

/-- R110, R188: the section of a token. -/
def Token.report (t : Token) (clock : Clock) : List Byte :=
  [natByte (flagNat t.hold.isSome)] ++ optSessionBytes (t.hold.map Hold.holder) ++
    clockBytes (t.hold.elim 0 Hold.grantTime) ++ [t.limit] ++ clockBytes (t.remaining clock) ++
    [natByte (flagNat t.broken), natByte t.waiters.length] ++ t.waiterBytes 0 ++ t.waiterBytes 1 ++ t.waiterBytes 2

/-- R110: QUERY_TOKENS at the token arbiter. -/
def serveQueryTokens (_who : SessionRef) (body : List Byte) (s : State) : State × Answer :=
  if body = [] then
    (s, .done 16 (clockBytes s.clock ++
      (List.range Config.tokenCount).flatMap fun t => (s.token t).report s.clock))
  else (s, .refuse .badRequest 0)

/-- R110: QUERY_TOKENS. -/
def execQueryTokens (p : Port) (tag : Byte) (session : Half) (body : List Byte) (s : State) :
    Host.Outcome State Fault Refusal :=
  .next (s.request p ⟨tag, Kind.queryTokens.code, session, body⟩ (fenced p session (serveQueryTokens · body)))

/-- R111: a token revoked from its holder. The token's points and the raise are taken in a free order (entry 5). -/
def State.revoke (s : State) (t : Nat) (k : Token) (holder : SessionRef) : State :=
  let u := s.setToken t (k.handOn true s.clock)
  ((u.raise .token (.revoked t) holder.port).raiseGrant t k true).actFreely
    [systemAction (tokenPoints s u), [.raise (4064 + t)]]

/-- R111: the hold deadline of a token, if the clock stands at it. Nothing happens where it does not (entry 2). -/
def State.holdExpiry (s : State) (t : Nat) : State :=
  match (s.token t).hold with
  | none => s
  | some h =>
    match h.deadline with
    | none => s
    | some d => if reached d s.clock then s.revoke t (s.token t) h.holder else s

/-- R111: HOLD_DEADLINE_EXPIRY. -/
def execHoldDeadlineExpiry (t : Nat) (s : State) : Host.Outcome State Fault Refusal := .next (s.holdExpiry t)

end Sys2Proof.Machine
end

