-- ==== Sys2Proof/Machine/CellClock.lean ====
section
/-!
DEFINITION. The cell clock (R17): what is due at its value, and its advance, which leaves no value with anything due.
-/

namespace Sys2Proof.Machine

/-- An event that is taken at a value of the clock: the five expiries (R31, R32, R93, R111, R151) and the tick event (R119). -/
inductive Due where
  | first (p : Port)
  | second (p : Port)
  | takeover (z : Nat)
  | hold (t : Nat)
  | coalesce (p : Port)
  | tick
deriving DecidableEq, Repr

/-- R17: the clock value at which the event is taken; none where the state holds no such deadline. -/
def State.deadlineOf (s : State) : Due → Option Clock
  | .first p => if (s.ports.get p).isOnline then (s.ports.get p).session.map Membership.deadline else none
  | .second p => if (s.ports.get p).isLate then (s.ports.get p).session.map Membership.deadline else none
  | .takeover z => (s.zone z).bind fun r => r.status.deadline?
  | .hold t => (s.token t).hold.bind Hold.deadline
  | .coalesce p => (s.exchange.sessions.get p).bind MessageSession.deadline
  | .tick => if s.tickDue then some s.clock else none

/-- Every event that a clock value can bring. -/
def Due.all : List Due :=
  Port.all.map .first ++ Port.all.map .second ++ zoneNumbers.map .takeover ++ (List.range Config.tokenCount).map .hold ++
    Port.all.map .coalesce ++ [.tick]

/-- The events due at the clock's value and not taken yet. -/
def State.dueNow (s : State) : List Due := Due.all.filter fun d => s.deadlineOf d == some s.clock

/-- One event taken. It does nothing where its deadline no longer stands. -/
def State.takeDue (s : State) : Due → State
  | .first p => s.firstExpiry p
  | .second p => s.secondExpiry p
  | .takeover z => s.takeoverExpiry z
  | .hold t => s.holdExpiry t
  | .coalesce p => s.coalesceExpiry p
  | .tick => s.tickEvent

/-- R17: everything still due at the clock's value taken, in a free order (entries 3 and 5). What an event sets anew lies
ahead of the clock, so one pass leaves nothing due. -/
def State.takeAllDue (s : State) : State :=
  let order := shuffle s.freeDraws s.dueNow
  order.1.foldl State.takeDue { s with freeDraws := order.2 }

/-- R17: CELL_CLOCK_ADVANCE: one more millisecond, modulo 2^32. A deadline expires at its own clock value: what the queue has
not taken at the value that the clock leaves is taken first (entry 3). The clock stands while the part is in reset. -/
def execCellClockAdvance (s : State) : Host.Outcome State Fault Refusal :=
  .next <| if s.phase = .running then { s.takeAllDue with clock := s.clock + 1, tickDue := true } else s

end Sys2Proof.Machine
end

