-- ==== Sys2Proof/Machine/FaultRequests.lean ====
section
/-!
DEFINITION. Requests of the fault list (chapter 10): RAISE_FAULT (R175), CLEAR_FAULT (R178), ACK_FAULT (R179), READ_FAULTS
(R180).
-/

namespace Sys2Proof.Machine

/-- R175: the entry's place, counting the head as 1. -/
def State.faultPlace (s : State) (n : Half) : Nat := s.faults.findIdx (fun e => e.number == n) + 1

/-- R175: the entry's repeat count. -/
def State.faultRepeats (s : State) (n : Half) : Byte :=
  (s.faults.find? fun e => e.number == n).elim 0 FaultEntry.repeats

/-- R175: a RAISE_FAULT that passed checks 1 and 2. -/
def State.decideRaise (s : State) (who : SessionRef) (n : Half) : State × Answer :=
  let t := s.raiseFault n (.port who.port) who.number
  match s.raiseKind n with
  | .full => (t, ⟨.listFull, t.overflow, []⟩)
  | .append => (t, .done (t.faultRepeats n).toNat [natByte (t.faultPlace n)])
  | .repeated => (t, .done (t.faultRepeats n).toNat [natByte (t.faultPlace n)])

/-- R175: RAISE_FAULT at the fault list. -/
def serveRaiseFault (who : SessionRef) (body : List Byte) (s : State) : State × Answer :=
  match body with
  | [hi, lo] =>
    let n := half hi lo
    if n.toNat = 0 ∨ 4031 < n.toNat then (s, .refuse .range 1) else s.decideRaise who n
  | _ => (s, .refuse .badRequest 0)

/-- R175: RAISE_FAULT. -/
def execRaiseFault (p : Port) (tag : Byte) (session : Half) (body : List Byte) (s : State) :
    Host.Outcome State Fault Refusal :=
  .next (s.request p ⟨tag, Kind.raiseFault.code, session, body⟩ (fenced p session (serveRaiseFault · body)))

/-- R172, R178 check 4: the entry is a zone's and the zone is ORPHANED. -/
def State.zoneCondition (s : State) (n : Nat) : Bool :=
  decide (4033 ≤ n ∧ n ≤ 4063) && (s.zone (n - 4032)).any ZoneRecord.isOrphaned

/-- R172, R178 check 5: the entry is a port's and the port's LOST condition holds. -/
def State.portCondition (s : State) (n : Nat) : Bool :=
  Port.all.any fun p => n == 4080 + p.index && (s.ports.get p).lostCondition

/-- R178: an entry removed, with its points and its attention. -/
def State.removeFault (s : State) (n : Half) : State :=
  (s.writeFaults { s with faults := s.faults.filter fun e => e.number != n }).raiseFaultAttention

/-- R178: CLEAR_FAULT at the fault list. -/
def serveClearFault (_who : SessionRef) (body : List Byte) (s : State) : State × Answer :=
  match body with
  | [hi, lo] =>
    let n := half hi lo
    if n.toNat = 0 ∨ 4095 < n.toNat then (s, .refuse .range 1)
    else if !s.hasFault n then (s, .refuse .notFound 0)
    else if s.zoneCondition n.toNat then (s, .refuse .conditionActive 1)
    else if s.portCondition n.toNat then (s, .refuse .conditionActive 2)
    else (s.removeFault n, .done (s.faults.filter fun e => e.number != n).length [])
  | _ => (s, .refuse .badRequest 0)

/-- R178: CLEAR_FAULT. -/
def execClearFault (p : Port) (tag : Byte) (session : Half) (body : List Byte) (s : State) :
    Host.Outcome State Fault Refusal :=
  .next (s.request p ⟨tag, Kind.clearFault.code, session, body⟩ (fenced p session (serveClearFault · body)))

/-- R179: an entry acknowledged by a port. -/
def FaultEntry.acknowledge (p : Port) (e : FaultEntry) : FaultEntry := { e with acknowledged := e.acknowledged ||| p.single }

/-- R179: an ACK_FAULT names the entry: its number, or 0 for all. -/
def ackNames (n : Half) (e : FaultEntry) : Bool := n == 0 || e.number == n

/-- R179: the entries named gain the port. -/
def State.acknowledgeFaults (s : State) (p : Port) (n : Half) : State :=
  s.writeFaults { s with faults := s.faults.map fun e => if ackNames n e then e.acknowledge p else e }

/-- R179: how many entries gain the port. -/
def State.ackGain (s : State) (p : Port) (n : Half) : Nat :=
  s.faults.countP fun e => ackNames n e && !portIn p e.acknowledged

/-- R179: ACK_FAULT at the fault list. -/
def serveAckFault (who : SessionRef) (body : List Byte) (s : State) : State × Answer :=
  match body with
  | [hi, lo] =>
    let n := half hi lo
    if 4095 < n.toNat then (s, .refuse .range 1)
    else if n ≠ 0 ∧ !s.hasFault n then (s, .refuse .notFound 0)
    else (s.acknowledgeFaults who.port n, .done (s.ackGain who.port n) [])
  | _ => (s, .refuse .badRequest 0)

/-- R179: ACK_FAULT. -/
def execAckFault (p : Port) (tag : Byte) (session : Half) (body : List Byte) (s : State) :
    Host.Outcome State Fault Refusal :=
  .next (s.request p ⟨tag, Kind.ackFault.code, session, body⟩ (fenced p session (serveAckFault · body)))

/-- R180, R188: the 17 bytes of an entry. -/
def FaultEntry.report (e : FaultEntry) : List Byte :=
  halfBytes e.number ++ [e.origin.code] ++ halfBytes e.originSession ++ clockBytes e.firstTime ++ [e.firstEpoch] ++
    clockBytes e.lastTime ++ [e.lastEpoch, e.repeats, natByte (e.acknowledged.toNat + 128 * flagNat e.firstOut)]

/-- R180: READ_FAULTS at the fault list. -/
def serveReadFaults (_who : SessionRef) (body : List Byte) (s : State) : State × Answer :=
  if body = [] then
    (s, .done s.faults.length ([natByte s.faults.length] ++ halfBytes s.overflow ++ [s.epoch] ++ clockBytes s.clock ++
      s.faults.flatMap FaultEntry.report))
  else (s, .refuse .badRequest 0)

/-- R180: READ_FAULTS. -/
def execReadFaults (p : Port) (tag : Byte) (session : Half) (body : List Byte) (s : State) :
    Host.Outcome State Fault Refusal :=
  .next (s.request p ⟨tag, Kind.readFaults.code, session, body⟩ (fenced p session (serveReadFaults · body)))

end Sys2Proof.Machine
end

