-- ==== Sys2Proof/Machine/Publish.lean ====
section
/-!
DEFINITION. Requests of the image store (chapter 4): PUBLISH (R62 to R67), SNAPSHOT (R73, R74), READ_POINTS (R75).
-/

namespace Sys2Proof.Machine

/-! ## PUBLISH -/

/-- The holding zones of the points that an item names. -/
def State.holders (s : State) (item : Points) : List Holding :=
  item.bits.map (fun b => s.bitHolder b.1) ++ item.words.map (fun w => s.wordHolder w.1)

/-- R64: the item names a point without a holding zone. -/
def State.leavesImage (s : State) (item : Points) : Bool := (s.holders item).contains .nothing

/-- R65: the holding zone is OWNED by the session. -/
def State.holdingOwned (s : State) (who : SessionRef) : Holding → Bool
  | .zone z => (s.zone z).any fun r => r.ownedBy who
  | .system => false
  | .nothing => false

/-- R65: the item names a point of a zone that the session does not own. -/
def State.notOwned (s : State) (who : SessionRef) (item : Points) : Bool :=
  (s.holders item).any fun h => !s.holdingOwned who h

/-- R66: the zones that the items touch, ascending. -/
def State.touched (s : State) (items : List Points) : List Nat :=
  zoneNumbers.filter fun z => items.any fun item => (s.holders item).contains (.zone z)

/-- R66: the points of all items, in list order. -/
def allPoints (items : List Points) : Points :=
  { bits := items.flatMap Points.bits, words := items.flatMap Points.words }

/-- R67: a touched zone with the generation it reached. -/
def State.generationEntry (s : State) (z : Nat) : List Byte :=
  natByte z :: halfBytes ((s.zone z).elim 0 ZoneRecord.generation)

/-- R66, R67: the write event of a PUBLISH and its reply. -/
def State.publish (s : State) (items : List Points) : State × Answer :=
  let zs := s.touched items
  let t := s.writeZones zs (allPoints items)
  (t, .done zs.length (zs.flatMap t.generationEntry))

/-- R62 to R65: PUBLISH at the image store. -/
def servePublish (who : SessionRef) (body : List Byte) (s : State) : State × Answer :=
  if body = [] then (s, .refuse .badRequest 0)
  else
    match readItems body.length 1 body with
    | .error n => (s, .refuse .badRequest n)
    | .ok items =>
      match firstItem s.leavesImage items with
      | some n => (s, .refuse .range n)
      | none =>
        match firstItem (s.notOwned who) items with
        | some n => (s, .refuse .notOwner n)
        | none => s.publish items

/-- R62: PUBLISH. -/
def execPublish (p : Port) (tag : Byte) (session : Half) (body : List Byte) (s : State) :
    Host.Outcome State Fault Refusal :=
  .next (s.request p ⟨tag, Kind.publish.code, session, body⟩ (fenced p session (servePublish · body)))

/-! ## SNAPSHOT -/

/-- R73: the size of a zone's section, where the zone is 0 or defined. -/
def State.sectionSize (s : State) (z : Nat) : Option Nat :=
  if z = 0 then some (10 + Config.systemBits / 8 + 2 * Config.systemWords)
  else (s.zone z).map fun r => 10 + r.imageSize

/-- R74: the bits and words of a zone as a section carries them. -/
def State.imageBytes (s : State) (bits words : List Nat) : List Byte :=
  packBytes (bits.length / 8) (bits.map s.bit) ++ words.flatMap fun i => halfBytes (s.word i)

/-- R74: the owner code of a section. -/
def ZoneStatus.ownerCode : ZoneStatus → Byte
  | .owned owner => owner.port.code
  | _ => 0

/-- R74, R188: the section of a zone. -/
def State.sectionOf (s : State) (z : Nat) : List Byte :=
  if z = 0 then
    [0, 1, 15, 0] ++ halfBytes s.systemZone.generation ++ halfBytes (natHalf Config.systemBits) ++
      halfBytes (natHalf Config.systemWords) ++
      s.imageBytes (List.range Config.systemBits) (List.range Config.systemWords)
  else
    match s.zone z with
    | some r =>
      [natByte z, r.status.code, r.status.ownerCode, r.tenure] ++ halfBytes r.generation ++
        halfBytes (natHalf r.bitCount) ++ halfBytes (natHalf r.wordCount) ++ s.imageBytes r.bitIndices r.wordIndices
    | none => []

/-- R73: the position, counted from 1, of the first byte that passes `bad`. -/
def firstPosition (bad : Byte → Bool) (body : List Byte) : Option Nat := (body.findIdx? bad).map (· + 1)

/-- R73: SNAPSHOT at the image store. -/
def serveSnapshot (_who : SessionRef) (body : List Byte) (s : State) : State × Answer :=
  if body.length = 0 ∨ 8 < body.length then (s, .refuse .badRequest 0)
  else
    match firstPosition (fun b => decide (Config.zoneCount < b.toNat)) body with
    | some n => (s, .refuse .range n)
    | none =>
      match firstPosition (fun b => (s.sectionSize b.toNat).isNone) body with
      | some n => (s, .refuse .notFound n)
      | none =>
        let payload := (body.map fun b => (s.sectionSize b.toNat).getD 0).sum
        if 508 < payload then (s, .refuse .tooLarge payload)
        else
          (s, .done body.length ([natByte body.length, s.epoch] ++ body.flatMap fun b => s.sectionOf b.toNat))

/-- R73: SNAPSHOT. -/
def execSnapshot (p : Port) (tag : Byte) (session : Half) (body : List Byte) (s : State) :
    Host.Outcome State Fault Refusal :=
  .next (s.request p ⟨tag, Kind.snapshot.code, session, body⟩ (fenced p session (serveSnapshot · body)))

/-! ## READ_POINTS -/

/-- R75: the reference's index is outside the image. -/
def refOutside (h : Half) : Bool :=
  if (pointRef h).1 then decide (Config.wordPoints ≤ (pointRef h).2) else decide (Config.bitPoints ≤ (pointRef h).2)

/-- R75: the zone number and value reported for a reference. -/
def State.readRef (s : State) (h : Half) : List Byte :=
  if (pointRef h).1 then natByte (s.wordHolder (pointRef h).2).number :: halfBytes (s.word (pointRef h).2)
  else natByte (s.bitHolder (pointRef h).2).number :: halfBytes (natHalf (flagNat (s.bit (pointRef h).2)))

/-- R75: READ_POINTS at the image store. -/
def serveReadPoints (_who : SessionRef) (body : List Byte) (s : State) : State × Answer :=
  if body.length < 2 ∨ 64 < body.length ∨ body.length % 2 = 1 then (s, .refuse .badRequest 0)
  else
    let refs := halves body
    match (refs.findIdx? refOutside).map (· + 1) with
    | some n => (s, .refuse .range n)
    | none => (s, .done refs.length (refs.flatMap s.readRef))

/-- R75: READ_POINTS. -/
def execReadPoints (p : Port) (tag : Byte) (session : Half) (body : List Byte) (s : State) :
    Host.Outcome State Fault Refusal :=
  .next (s.request p ⟨tag, Kind.readPoints.code, session, body⟩ (fenced p session (serveReadPoints · body)))

end Sys2Proof.Machine
end

