-- ==== Sys2Proof/Machine/Watches.lean ====
section
/-!
DEFINITION. Requests of the attention unit (chapter 9): SET_WATCH (R161), CLEAR_WATCH (R162), READ_ATTENTION (R152, R166),
SET_ATTENTION_MASK (R167).
-/

namespace Sys2Proof.Machine

/-- The attention record of a port; a session's record always exists (R157). -/
def State.record (s : State) (p : Port) : AttentionRecord := (s.attention.get p).getD .start

/-- The attention record of a port replaced. -/
def State.setRecord (s : State) (p : Port) (r : AttentionRecord) : State :=
  { s with attention := s.attention.set p (some r) }

/-- R161 check 5: the zone may be watched. -/
def State.zoneExists (s : State) (z : Nat) : Bool := z == 0 || (s.zone z).isSome

/-- R161 check 6: the bit lies in the zone's bit range. -/
def State.zoneHasBit (s : State) (z b : Nat) : Bool :=
  if z = 0 then decide (b < Config.systemBits) else (s.zone z).any fun r => r.hasBit b

/-- R161 check 6: the bit a watch kind names lies in the zone; CHANGE and OWNERSHIP name none. -/
def State.watchBitMeets (s : State) (z : Nat) : WatchKind → Bool
  | .rise b => s.zoneHasBit z b
  | .fall b => s.zoneHasBit z b
  | .change => true
  | .ownership => true

/-- R158, R161: a watch newly set. -/
def Watch.set (zone : Nat) (kind : WatchKind) : Watch := { zone := zone, kind := kind, fired := false, overrun := 0 }

/-- R161: a slot filled. -/
def AttentionRecord.fill (r : AttentionRecord) (slot : Nat) (w : Option Watch) : AttentionRecord :=
  { r with slots := r.slots.write none slot w }

/-- R158: the watch in a slot. -/
def AttentionRecord.slot (r : AttentionRecord) (slot : Nat) : Option Watch := r.slots.read none slot

/-- R161: SET_WATCH at the attention unit. -/
def serveSetWatch (who : SessionRef) (body : List Byte) (s : State) : State × Answer :=
  match body with
  | [slot, zone, kindByte, bitHi, bitLo] =>
    match watchKindOf kindByte (half bitHi bitLo) with
    | none => (s, .refuse .badRequest 1)
    | some kind =>
      if Config.slotCount ≤ slot.toNat then (s, .refuse .range 1)
      else if Config.zoneCount < zone.toNat then (s, .refuse .range 2)
      else if !s.zoneExists zone.toNat then (s, .refuse .notFound 0)
      else if !s.watchBitMeets zone.toNat kind then (s, .refuse .range 3)
      else
        (s.setRecord who.port ((s.record who.port).fill slot.toNat (some (.set zone.toNat kind))),
          .done (flagNat ((s.record who.port).slot slot.toNat).isSome) [])
  | _ => (s, .refuse .badRequest 0)

/-- R161: SET_WATCH. -/
def execSetWatch (p : Port) (tag : Byte) (session : Half) (body : List Byte) (s : State) :
    Host.Outcome State Fault Refusal :=
  .next (s.request p ⟨tag, Kind.setWatch.code, session, body⟩ (fenced p session (serveSetWatch · body)))

/-- R162: CLEAR_WATCH at the attention unit. -/
def serveClearWatch (who : SessionRef) (body : List Byte) (s : State) : State × Answer :=
  match body with
  | [slot] =>
    if Config.slotCount ≤ slot.toNat then (s, .refuse .range 1)
    else
      match (s.record who.port).slot slot.toNat with
      | none => (s, .refuse .notFound 0)
      | some w => (s.setRecord who.port ((s.record who.port).fill slot.toNat none), .done (flagNat w.fired) [])
  | _ => (s, .refuse .badRequest 0)

/-- R162: CLEAR_WATCH. -/
def execClearWatch (p : Port) (tag : Byte) (session : Half) (body : List Byte) (s : State) :
    Host.Outcome State Fault Refusal :=
  .next (s.request p ⟨tag, Kind.clearWatch.code, session, body⟩ (fenced p session (serveClearWatch · body)))

/-! ## READ_ATTENTION -/

/-- R166, R188: the pair of a slot. -/
def slotBytes (w : Option Watch) : List Byte :=
  match w with
  | some w => [natByte (1 + 2 * flagNat w.fired), w.overrun]
  | none => [0, 0]

/-- R166, R188: the 30 bytes of a READ_ATTENTION reply. -/
def AttentionRecord.report (r : AttentionRecord) : List Byte :=
  [r.pending.setWidth 8, r.mask.setWidth 8] ++ ((List.range Config.slotCount).flatMap fun k => slotBytes (r.slot k)) ++
    [r.gone] ++ halfBytes r.granted ++ halfBytes r.grantedBroken ++ halfBytes r.revoked ++ clockBytes r.zones ++
    [r.ports.setWidth 8]

/-- R166 step 2: a watch after a read. -/
def Watch.unfire (w : Watch) : Watch := { w with fired := false, overrun := 0 }

/-- R166: the record after a read, with what is left pending. -/
def AttentionRecord.cleared (r : AttentionRecord) (pending : CauseSet) : AttentionRecord :=
  { r with
      pending := pending, gone := 0, granted := 0, grantedBroken := 0, revoked := 0, zones := 0, ports := 0,
      slots := r.slots.mapValues (Option.map Watch.unfire) }.relevel

/-- R152: what the message exchange does with a MESSAGE cause that a read found pending. -/
inductive MessageRead where
  | again
  | restart
  | clear
deriving DecidableEq, Repr

/-- R152: by the queues of the port. -/
def State.messageRead (s : State) (p : Port) : MessageRead :=
  let depth := (s.exchange.normal.get p).length
  let m := (s.exchange.sessions.get p).getD .start
  if !(s.exchange.urgent.get p).isEmpty then .again
  else if m.threshold.toNat ≤ depth then .again
  else if depth ≠ 0 ∧ m.time ≠ 0 then .restart
  else .clear

/-- R152: the cause left pending after a read. -/
def MessageRead.pending : MessageRead → CauseSet
  | .again => Cause.message.bit
  | .restart => 0
  | .clear => 0

/-- R152: the coalesce timer after a read. -/
def State.afterMessageRead (s : State) (p : Port) : MessageRead → State
  | .again => s
  | .restart => s.startCoalesce p
  | .clear => s.stopCoalesce p

/-- R152, R166: the record and the coalesce timer after a read. -/
def State.readAttention (s : State) (p : Port) (r : AttentionRecord) : State :=
  if r.pending &&& Cause.message.bit != 0 then
    (s.afterMessageRead p (s.messageRead p)).setRecord p (r.cleared (s.messageRead p).pending)
  else s.setRecord p (r.cleared 0)

/-- R166: READ_ATTENTION at the attention unit. -/
def serveReadAttention (who : SessionRef) (body : List Byte) (s : State) : State × Answer :=
  if body = [] then
    let r := s.record who.port
    (s.readAttention who.port r, ⟨.done, r.pending.setWidth 16, r.report⟩)
  else (s, .refuse .badRequest 0)

/-- R166: READ_ATTENTION. -/
def execReadAttention (p : Port) (tag : Byte) (session : Half) (body : List Byte) (s : State) :
    Host.Outcome State Fault Refusal :=
  .next (s.request p ⟨tag, Kind.readAttention.code, session, body⟩ (fenced p session (serveReadAttention · body)))

/-! ## SET_ATTENTION_MASK -/

/-- R167: SET_ATTENTION_MASK at the attention unit. -/
def serveSetAttentionMask (who : SessionRef) (body : List Byte) (s : State) : State × Answer :=
  match body with
  | [b] =>
    match causeSetOf b with
    | none => (s, .refuse .badRequest 1)
    | some mask =>
      let r := s.record who.port
      (s.setRecord who.port { r with mask := mask }.relevel, ⟨.done, r.mask.setWidth 16, []⟩)
  | _ => (s, .refuse .badRequest 0)

/-- R167: SET_ATTENTION_MASK. -/
def execSetAttentionMask (p : Port) (tag : Byte) (session : Half) (body : List Byte) (s : State) :
    Host.Outcome State Fault Refusal :=
  .next (s.request p ⟨tag, Kind.setAttentionMask.code, session, body⟩ (fenced p session (serveSetAttentionMask · body)))

end Sys2Proof.Machine
end

