-- ==== Sys2Proof/Machine/LinkEvents.lean ====
section
/-!
DEFINITION. The port link's events (chapter 1): SELECTION_START (R2), STATUS_BYTE_COMPLETE (R4), BYTE_SHIFTED (R4, R5),
SELECTION_END (R6 to R12), IGNORED_SELECTION_END (R19), the byte on PpSDO (R4), and the table of services (R11, R186).
-/

namespace Sys2Proof.Machine

/-- R11: the service of each kind. IDENTIFY and JOIN are not fenced (R24). -/
def serviceOf (k : Kind) (p : Port) (session : Half) (body : List Byte) : State → State × Answer :=
  match k with
  | .identify => serveIdentify p body
  | .join => serveJoin p body
  | .leave => fenced p session (serveLeave · body)
  | .ping => fenced p session (servePing · body)
  | .defineZone => fenced p session (serveDefineZone · body)
  | .retireZone => fenced p session (serveRetireZone · body)
  | .setZonePolicy => fenced p session (serveSetZonePolicy · body)
  | .loadSafeImage => fenced p session (serveLoadSafeImage · body)
  | .queryZone => fenced p session (serveQueryZone · body)
  | .publish => fenced p session (servePublish · body)
  | .snapshot => fenced p session (serveSnapshot · body)
  | .readPoints => fenced p session (serveReadPoints · body)
  | .claim => fenced p session (serveClaim · body)
  | .release => fenced p session (serveRelease · body)
  | .handOver => fenced p session (serveHandOver · body)
  | .acquire => fenced p session (serveAcquire · body)
  | .releaseToken => fenced p session (serveReleaseToken · body)
  | .cancelWait => fenced p session (serveCancelWait · body)
  | .setTokenLimit => fenced p session (serveSetTokenLimit · body)
  | .queryTokens => fenced p session (serveQueryTokens · body)
  | .setTimer => fenced p session (serveSetTimer · body)
  | .resetTimer => fenced p session (serveResetTimer · body)
  | .freeTimer => fenced p session (serveFreeTimer · body)
  | .queryTimer => fenced p session (serveQueryTimer · body)
  | .send => fenced p session (serveSend · body)
  | .receive => fenced p session (serveReceive · body)
  | .flushQueue => fenced p session (serveFlushQueue · body)
  | .setCoalesce => fenced p session (serveSetCoalesce · body)
  | .setWatch => fenced p session (serveSetWatch · body)
  | .clearWatch => fenced p session (serveClearWatch · body)
  | .readAttention => fenced p session (serveReadAttention · body)
  | .setAttentionMask => fenced p session (serveSetAttentionMask · body)
  | .raiseFault => fenced p session (serveRaiseFault · body)
  | .clearFault => fenced p session (serveClearFault · body)
  | .ackFault => fenced p session (serveAckFault · body)
  | .readFaults => fenced p session (serveReadFaults · body)

/-- R11: the service that a request's kind code names; the link's own answer where it names none. -/
def serveRequest (p : Port) (r : Request) : State → State × Answer :=
  match Kind.ofCode r.kind with
  | some k => serviceOf k p r.session r.body
  | none => serveUnknown

/-! ## The link's events -/

/-- R2: a selection taken, with its captured status. -/
def Link.select (l : Link) (status : Byte) : Link :=
  { l with selection := .selected, received := [], excess := false, captured := some status, position := 0 }

/-- R19: a selection that the link does not take. -/
def Link.ignore (l : Link) : Link :=
  { l with selection := .ignored, received := [], excess := false, captured := none, position := 0 }

/-- R2, R19: SELECTION_START: PpSEL asserted on an IDLE link. Nothing happens where it already stands asserted (entry 2). -/
def execSelectionStart (p : Port) (s : State) : Host.Outcome State Fault Refusal :=
  .next <|
    match (s.links.get p).selection with
    | .idle =>
      if s.phase = .running then s.setLink p ((s.links.get p).select (s.statusByte p))
      else s.setLink p (s.links.get p).ignore
    | .selected => s
    | .ignored => s

/-- R4: the flags that the captured status reported as set are cleared. -/
def Link.statusSent (l : Link) (status : Byte) : Link :=
  { l with discarded := l.discarded && !statusDiscarded status, refused := l.refused && !statusRefused status }

/-- R4: STATUS_BYTE_COMPLETE. -/
def execStatusByteComplete (p : Port) (s : State) : Host.Outcome State Fault Refusal :=
  .next <|
    match (s.links.get p).selection, (s.links.get p).captured with
    | .selected, some status => s.setLink p ((s.links.get p).statusSent status)
    | .selected, none => s
    | .idle, _ => s
    | .ignored, _ => s

/-- R2: the reply that the selection carries: the slot's, where the captured status reports one. -/
def Link.carried (l : Link) : Option (List Byte) :=
  match l.captured with
  | some status => if statusReply status then l.reply else none
  | none => none

/-- R4: the reply position after one more byte: the first byte of a selection shifts the status byte out. -/
def Link.nextPosition (l : Link) : Nat :=
  match l.received, l.carried with
  | _ :: _, some reply => if l.position < reply.length then l.position + 1 else l.position
  | _ :: _, none => l.position
  | [], _ => l.position

/-- R5: a byte stored, up to the first 264; beyond them only whether it was other than 00 hex. -/
def Link.shift (l : Link) (b : Byte) : Link :=
  if l.received.length < Config.largestRequest then { l with received := l.received ++ [b], position := l.nextPosition }
  else { l with excess := l.excess || b != 0, position := l.nextPosition }

/-- R4, R5: BYTE_SHIFTED. -/
def execByteShifted (p : Port) (b : Byte) (s : State) : Host.Outcome State Fault Refusal :=
  .next <|
    match (s.links.get p).selection with
    | .selected => s.setLink p ((s.links.get p).shift b)
    | .idle => s
    | .ignored => s

/-- R4, R191: the byte that the link shifts out with the next byte shifted in; none where PpSDO is not driven. -/
def Link.dataOut (l : Link) : Option Byte :=
  match l.selection with
  | .selected =>
    match l.received with
    | [] => l.captured
    | _ :: _ => some ((l.carried.bind fun reply => reply[l.position]?).getD 0)
  | .idle => none
  | .ignored => none

/-- R6 step 1, R7: the reply leaves the slot where the selection shifted out its last byte. -/
def Link.removeReply (l : Link) : Link :=
  match l.carried with
  | some reply => if l.position = reply.length then { l with reply := none } else l
  | none => l

/-- R6: the link back in IDLE. -/
def Link.toIdle (l : Link) : Link := { l with selection := .idle }

/-- R6: the end of a SELECTED selection: reply removal, classification, disposal. -/
def State.endSelection (s : State) (p : Port) : State :=
  let l := s.links.get p
  let t := s.setLink p l.removeReply.toIdle
  if fetchOnly l.received l.excess then t
  else
    match classify l.received l.excess with
    | none => t.setLink p (t.links.get p).discardFrame
    | some r => t.dispose p r (serveRequest p r)

/-- R6: SELECTION_END: PpSEL negated on a SELECTED link. Nothing happens on another (entry 2). -/
def execSelectionEnd (p : Port) (s : State) : Host.Outcome State Fault Refusal :=
  .next <|
    match (s.links.get p).selection with
    | .selected => s.endSelection p
    | .idle => s
    | .ignored => s

/-- R19: IGNORED_SELECTION_END: PpSEL negated on an IGNORED link. -/
def execIgnoredSelectionEnd (p : Port) (s : State) : Host.Outcome State Fault Refusal :=
  .next <|
    match (s.links.get p).selection with
    | .ignored => s.setLink p (s.links.get p).toIdle
    | .idle => s
    | .selected => s

end Sys2Proof.Machine
end

