-- ==== Sys2Proof/Machine/Resets.lean ====
section
/-!
DEFINITION. The two resets and the release from them (R17 to R20, R38, R59, R60, R77, R98, R115, R135, R155, R156, R170,
R182).
-/

namespace Sys2Proof.Machine

/-! ## Warm reset -/

/-- R1, R19: a link at a warm reset. -/
def Link.warmReset (l : Link) : Link := Link.afterReset (if l.selection = .idle then .idle else .ignored)

/-- R38: the monitor's points at 0. -/
def monitorZeros : Points :=
  { bits := (List.range 12).map fun i => (48 + i, false), words := (List.range 4).map fun i => (48 + i, 0) }

/-- R115: the token arbiter's points at 0. -/
def tokenZeros : Points :=
  { bits := (List.range Config.tokenCount).map fun t => (32 + t, false),
    words := (List.range Config.tokenCount).map fun t => (32 + t, 0) }

/-- R155: the exchange's words at a warm reset. -/
def exchangeResetWords : Points :=
  { bits := [], words := (54, natHalf Config.bufferCount) :: (List.range 4).map fun i => (55 + i, 0) }

/-- R98: the zone table's points at a warm reset: bit 64+z for every defined zone, and every bit 96+z at 0. -/
def State.orphanPoints (s : State) : Points :=
  { bits := (zoneNumbers.map fun z => (64 + z, (s.zone z).isSome)) ++ zoneNumbers.map fun z => (96 + z, false), words := [] }

/-- R135: every point of the timer array. -/
def State.allTimerPoints (s : State) : Points :=
  { bits := (List.range Config.timerCount).map fun t => (t, timerDone (s.timer t)),
    words := (List.range Config.timerCount).map fun t => (t, timerCount (s.timer t)) }

/-- R98: a defined zone at a warm reset, its policy applied. -/
def ZoneRecord.warmReset (r : ZoneRecord) : ZoneRecord :=
  match r.status with
  | .owned _ => { r with status := .orphaned, tenure := r.tenure + 1 }
  | .vacant => { r with status := .orphaned }
  | .handover _ => { r with status := .orphaned }
  | .orphaned => r

/-- R98: a zone at a warm reset: its loss-policy write, then its move. No notice of the reset reaches a timer (R135) or a
watch (R170). -/
def State.zoneWarmReset (s : State) (z : Nat) : State :=
  match s.zone z with
  | none => s
  | some r =>
    let t :=
      match r.policyPoints with
      | some w => (s.storeCounted [z] w).1
      | none => s
    t.setZone z ((t.zone z).map ZoneRecord.warmReset)

/-- R115: a token at a warm reset. -/
def Token.warmReset (t : Token) : Token := { Token.powerOn with limit := t.limit }

/-- R115: the token arbiter at a warm reset. -/
def State.tokensWarmReset (s : State) : State :=
  (List.range Config.tokenCount).foldl (fun s t => s.setToken t (s.token t).warmReset) s

/-- R170: no attention record. R155: the exchange at its reset values. R38: every port OFFLINE. R1, R19: the links. -/
def State.endAllSessions (s : State) : State :=
  { s with
      ports := .fill .offline
      attention := .fill none
      exchange := .reset
      links :=
        { a := s.links.a.warmReset, b := s.links.b.warmReset, c := s.links.c.warmReset, d := s.links.d.warmReset } }

/-- R17, R18: the clock and the epoch of a warm reset, and RSTN low. -/
def State.resetClock (s : State) : State :=
  { s with phase := .held, clock := 0, epoch := s.epoch + 1, tickDue := false, freeWordDue := false }

/-- R182: fault 4088 entered, without attention: every session has ended. -/
def State.resetFault (s : State) : State := s.enterFault 4088 .part 0

/-- R135: the timer array at a warm reset, against the image as the other blocks' writes leave it, with its one write and
the notice of that write. -/
def State.timersWarmReset (s : State) : State :=
  let t := s.mapTimers fun a => a.restart.reevaluate s.bits
  t.writeSystem t.allTimerPoints

/-- R19: the warm reset: the records, then each block's system-zone write, then the timer array. -/
def State.warmReset (s : State) : State :=
  let s1 := s.resetClock.endAllSessions
  let s2 := zoneNumbers.foldl State.zoneWarmReset s1
  let s3 := (s2.storeSystem s2.orphanPoints).1
  let s4 := (s3.storeSystem monitorZeros).1
  let s5 := (s4.tokensWarmReset.storeSystem tokenZeros).1
  let s6 := (s5.storeSystem exchangeResetWords).1
  let s7 := (s6.resetFault.storeSystem (faultPoints s6 s6.resetFault)).1
  s7.timersWarmReset

/-- R19: WARM_RESET: RSTN has been low for 1 µs while the part is out of power-on reset and RSTN was high. Nothing happens
where the part is already held (entry 2). DESIGN CHOICE (entry 22): an expiry or a tick event that is due at the clock's value
and that the queue has not taken before the reset is dropped with no effect. -/
def execWarmReset (s : State) : Host.Outcome State Fault Refusal :=
  .next <| if s.phase = .running then s.warmReset else s

/-- R19, R20: RSTN_RISE: a held part runs. A rise while the power-on reset is active changes nothing (entry 11). -/
def execRstnRise (s : State) : Host.Outcome State Fault Refusal :=
  .next <| if s.phase = .held then { s with phase := .running } else s

/-! ## Power-on reset -/

/-- R1: a link at the power-on reset, by the level of its PpSEL. -/
def powerOnLink (selAsserted : PortSet) (p : Port) : Link :=
  Link.afterReset (if portIn p selAsserted then .ignored else .idle)

/-- R20: POWER_ON_RESET: supply is applied, with PpSEL asserted on the ports given; every block takes its power-on values.
The queue and the model's own count of free choices stand. -/
def execPowerOnReset (selAsserted : PortSet) (s : State) : Host.Outcome State Fault Refusal :=
  .next (State.powerOn .powerOn
    { a := powerOnLink selAsserted .A, b := powerOnLink selAsserted .B, c := powerOnLink selAsserted .C,
      d := powerOnLink selAsserted .D } s.freeDraws s.pending)

/-- R20: POWER_ON_RESET_END, with RSTN low or high: the part stays held, or runs. -/
def execPowerOnResetEnd (rstnLow : Bool) (s : State) : Host.Outcome State Fault Refusal :=
  .next <| if s.phase = .powerOn then { s with phase := if rstnLow then .held else .running } else s

/-- R156: FREE_BUFFER_WORD_WRITE: the exchange's first event after power-on writes word 54 as the length of the free list,
64 (entry 19). -/
def execFreeBufferWordWrite (s : State) : Host.Outcome State Fault Refusal :=
  .next <|
    if s.phase = .running ∧ s.freeWordDue then
      { s with freeWordDue := false }.writeSystem { bits := [], words := [(54, natHalf s.exchange.free.length)] }
    else s

end Sys2Proof.Machine
end

