-- ==== Sys2Proof/Machine/Dispatch.lean ====
section
/-!
DEFINITION. The dispatch: one arm for each command, each a direct call of its meaning.
-/

namespace Sys2Proof.Machine

def exec (i : Instr) (s : State) : Host.Outcome State Fault Refusal :=
  match i with
  | .selectionStart p => Sys2Proof.Machine.execSelectionStart p s
  | .statusByteComplete p => Sys2Proof.Machine.execStatusByteComplete p s
  | .selectionEnd p => Sys2Proof.Machine.execSelectionEnd p s
  | .unknownKind p tag kind session body => Sys2Proof.Machine.execUnknownKind p tag kind session body s
  | .identify p tag session body => Sys2Proof.Machine.execIdentify p tag session body s
  | .join p tag session body => Sys2Proof.Machine.execJoin p tag session body s
  | .leave p tag session body => Sys2Proof.Machine.execLeave p tag session body s
  | .ping p tag session body => Sys2Proof.Machine.execPing p tag session body s
  | .cellClockAdvance => Sys2Proof.Machine.execCellClockAdvance s
  | .monitorFirstExpiry p => Sys2Proof.Machine.execMonitorFirstExpiry p s
  | .monitorSecondExpiry p => Sys2Proof.Machine.execMonitorSecondExpiry p s
  | .defineZone p tag session body => Sys2Proof.Machine.execDefineZone p tag session body s
  | .retireZone p tag session body => Sys2Proof.Machine.execRetireZone p tag session body s
  | .setZonePolicy p tag session body => Sys2Proof.Machine.execSetZonePolicy p tag session body s
  | .loadSafeImage p tag session body => Sys2Proof.Machine.execLoadSafeImage p tag session body s
  | .queryZone p tag session body => Sys2Proof.Machine.execQueryZone p tag session body s
  | .publish p tag session body => Sys2Proof.Machine.execPublish p tag session body s
  | .snapshot p tag session body => Sys2Proof.Machine.execSnapshot p tag session body s
  | .readPoints p tag session body => Sys2Proof.Machine.execReadPoints p tag session body s
  | .claim p tag session body => Sys2Proof.Machine.execClaim p tag session body s
  | .release p tag session body => Sys2Proof.Machine.execRelease p tag session body s
  | .handOver p tag session body => Sys2Proof.Machine.execHandOver p tag session body s
  | .takeoverDeadlineExpiry z => Sys2Proof.Machine.execTakeoverDeadlineExpiry z s
  | .acquire p tag session body => Sys2Proof.Machine.execAcquire p tag session body s
  | .releaseToken p tag session body => Sys2Proof.Machine.execReleaseToken p tag session body s
  | .cancelWait p tag session body => Sys2Proof.Machine.execCancelWait p tag session body s
  | .setTokenLimit p tag session body => Sys2Proof.Machine.execSetTokenLimit p tag session body s
  | .queryTokens p tag session body => Sys2Proof.Machine.execQueryTokens p tag session body s
  | .holdDeadlineExpiry t => Sys2Proof.Machine.execHoldDeadlineExpiry t s
  | .timerTick => Sys2Proof.Machine.execTimerTick s
  | .setTimer p tag session body => Sys2Proof.Machine.execSetTimer p tag session body s
  | .resetTimer p tag session body => Sys2Proof.Machine.execResetTimer p tag session body s
  | .freeTimer p tag session body => Sys2Proof.Machine.execFreeTimer p tag session body s
  | .queryTimer p tag session body => Sys2Proof.Machine.execQueryTimer p tag session body s
  | .send p tag session body => Sys2Proof.Machine.execSend p tag session body s
  | .receive p tag session body => Sys2Proof.Machine.execReceive p tag session body s
  | .flushQueue p tag session body => Sys2Proof.Machine.execFlushQueue p tag session body s
  | .setCoalesce p tag session body => Sys2Proof.Machine.execSetCoalesce p tag session body s
  | .coalesceDeadlineExpiry p => Sys2Proof.Machine.execCoalesceDeadlineExpiry p s
  | .setWatch p tag session body => Sys2Proof.Machine.execSetWatch p tag session body s
  | .clearWatch p tag session body => Sys2Proof.Machine.execClearWatch p tag session body s
  | .readAttention p tag session body => Sys2Proof.Machine.execReadAttention p tag session body s
  | .setAttentionMask p tag session body => Sys2Proof.Machine.execSetAttentionMask p tag session body s
  | .raiseFault p tag session body => Sys2Proof.Machine.execRaiseFault p tag session body s
  | .clearFault p tag session body => Sys2Proof.Machine.execClearFault p tag session body s
  | .ackFault p tag session body => Sys2Proof.Machine.execAckFault p tag session body s
  | .readFaults p tag session body => Sys2Proof.Machine.execReadFaults p tag session body s
  | .warmReset => Sys2Proof.Machine.execWarmReset s
  | .rstnRise => Sys2Proof.Machine.execRstnRise s
  | .powerOnReset selAsserted => Sys2Proof.Machine.execPowerOnReset selAsserted s
  | .powerOnResetEnd rstnLow => Sys2Proof.Machine.execPowerOnResetEnd rstnLow s
  | .freeBufferWordWrite => Sys2Proof.Machine.execFreeBufferWordWrite s
  | .byteShifted p b => Sys2Proof.Machine.execByteShifted p b s
  | .ignoredSelectionEnd p => Sys2Proof.Machine.execIgnoredSelectionEnd p s

end Sys2Proof.Machine
end

