-- ==== Sys2Proof/Safety.lean ====
section
/-!
DEFINITION. The laws of the state that spec/ says the part keeps, the conditions under which a request is served, and which
blocks a command may change. The statements for the provers are written in these words.
-/

namespace Sys2Proof

/-- The row of a request kind: the arrival of that request (entry 1). -/
def Kind.command (k : Kind) (p : Port) (tag : Byte) (session : Half) (body : List Byte) : Instr :=
  match k with
  | .identify => .identify p tag session body
  | .join => .join p tag session body
  | .leave => .leave p tag session body
  | .ping => .ping p tag session body
  | .defineZone => .defineZone p tag session body
  | .retireZone => .retireZone p tag session body
  | .setZonePolicy => .setZonePolicy p tag session body
  | .loadSafeImage => .loadSafeImage p tag session body
  | .queryZone => .queryZone p tag session body
  | .publish => .publish p tag session body
  | .snapshot => .snapshot p tag session body
  | .readPoints => .readPoints p tag session body
  | .claim => .claim p tag session body
  | .release => .release p tag session body
  | .handOver => .handOver p tag session body
  | .acquire => .acquire p tag session body
  | .releaseToken => .releaseToken p tag session body
  | .cancelWait => .cancelWait p tag session body
  | .setTokenLimit => .setTokenLimit p tag session body
  | .queryTokens => .queryTokens p tag session body
  | .setTimer => .setTimer p tag session body
  | .resetTimer => .resetTimer p tag session body
  | .freeTimer => .freeTimer p tag session body
  | .queryTimer => .queryTimer p tag session body
  | .send => .send p tag session body
  | .receive => .receive p tag session body
  | .flushQueue => .flushQueue p tag session body
  | .setCoalesce => .setCoalesce p tag session body
  | .setWatch => .setWatch p tag session body
  | .clearWatch => .clearWatch p tag session body
  | .readAttention => .readAttention p tag session body
  | .setAttentionMask => .setAttentionMask p tag session body
  | .raiseFault => .raiseFault p tag session body
  | .clearFault => .clearFault p tag session body
  | .ackFault => .ackFault p tag session body
  | .readFaults => .readFaults p tag session body

/-- R24: every kind but IDENTIFY and JOIN is fenced. -/
def Kind.isFenced : Kind → Bool
  | .identify => false
  | .join => false
  | _ => true

end Sys2Proof

namespace Sys2Proof.Machine

/-! ## Serving a request -/

/-- R11: a well-formed frame of the port's link is an arrival: the part runs, the link is in no selection that it ignores,
and the reply slot is empty. -/
abbrev State.hears (s : State) (p : Port) : Prop := s.takesFrames p = true ∧ (s.links.get p).reply = none

/-- R24: a request that carries the number of `m` passes to its service: it is an arrival, and `m` is the current session of
the port, ONLINE or LATE. -/
abbrev State.serves (s : State) (p : Port) (m : Membership) : Prop := s.hears p ∧ (s.ports.get p).session = some m

/-- The session that `m` is on port `p`. -/
abbrev Membership.on (m : Membership) (p : Port) : SessionRef := { port := p, number := m.number }

/-- R12: the state with a frame in the reply slot of a port. -/
def State.replied (s : State) (p : Port) (frame : List Byte) : State :=
  s.setLink p { s.links.get p with reply := some frame }

end Sys2Proof.Machine

namespace Sys2Proof

open Machine

/-- R24: what a fenced kind does on a port without the session that its session field names: the reply NO_SESSION, with
detail 1 where the port has another session, and no other change. -/
def Kind.fencedOff (k : Kind) : Prop :=
  ∀ (s : State) (p : Port) (tag : Byte) (session : Half) (body : List Byte), s.hears p →
    (∀ m, (s.ports.get p).session = some m → m.number ≠ session) →
    exec (k.command p tag session body) s =
      .next (s.replied p ((Answer.mk .noSession (if (s.ports.get p).session.isSome then 1 else 0) []).frame tag k.code
        (s.ports.get p).stateCode))

end Sys2Proof

namespace Sys2Proof.Machine

/-- The part's answer to a request that a service refuses: the monitor's deadline is restarted (R25), the refusal stands in
the reply slot, nothing else changes. -/
def State.refused (s : State) (p : Port) (m : Membership) (tag : Byte) (k : Kind) (o : ReplyOutcome) (detail : Nat) : State :=
  (s.qualify p m.number).replied p ((Answer.mk o (natHalf detail) []).frame tag k.code 1)

/-! ## Laws -/

/-- Entry 14: every table of the state is in its canonical form. -/
def State.canonical (s : State) : Prop :=
  Memory.wf none s.zones ∧ Memory.wf false s.bits ∧ Memory.wf 0 s.words ∧ Memory.wf Token.powerOn s.tokens ∧
    Memory.wf none s.timers ∧ Memory.wf none s.exchange.buffers ∧
    ∀ p r, s.attention.get p = some r → Memory.wf none r.slots

/-- R139, R157, R160: each port has an attention record and an exchange state exactly while it has a current session, and
each record's level is asserted exactly when its pending set and its mask have a cause in common. -/
def State.attentive (s : State) : Prop :=
  ∀ p, (s.attention.get p).isSome = (s.ports.get p).session.isSome ∧
    (s.exchange.sessions.get p).isSome = (s.ports.get p).session.isSome ∧
    ∀ r, s.attention.get p = some r → r.atn = (r.pending &&& r.mask != 0)

/-- R41: the ranges of a zone lie in the definable area. -/
def ZoneRecord.inArea (r : ZoneRecord) : Bool :=
  decide ((r.bitCount = 0 ∨ (128 ≤ r.bitFirst ∧ r.bitFirst + r.bitCount ≤ 4096)) ∧
    (r.wordCount = 0 ∨ (96 ≤ r.wordFirst ∧ r.wordFirst + r.wordCount ≤ 1024)))

/-- R48: two zones have no point in common. -/
def ZoneRecord.apartFrom (r q : ZoneRecord) : Bool :=
  !(rangesMeet r.bitFirst r.bitCount q.bitFirst q.bitCount) && !(rangesMeet r.wordFirst r.wordCount q.wordFirst q.wordCount)

/-- R45: an owner's port is not the standby of its zone. -/
def ZoneRecord.standbyOff (r : ZoneRecord) : Bool :=
  match r.status with
  | .owned owner => r.standby != some owner.port
  | _ => true

/-- R41: every defined zone has a number from 1 to 31 and lies in the definable area. -/
def State.zonesInArea (s : State) : Prop := ∀ z r, s.zone z = some r → 1 ≤ z ∧ z ≤ 31 ∧ r.inArea = true

/-- R48: no two defined zones have a point in common. -/
def State.zonesApart (s : State) : Prop :=
  ∀ z r z' r', s.zone z = some r → s.zone z' = some r' → z ≠ z' → r.apartFrom r' = true

/-- R41, R45, R48: the laws of the zone table. -/
def State.zonesLawful (s : State) : Prop :=
  s.zonesInArea ∧ s.zonesApart ∧ ∀ z r, s.zone z = some r → r.standbyOff = true

/-- R171: the list holds at most 16 entries of distinct numbers, and at most one carries the first-out mark. -/
def State.faultsLawful (s : State) : Prop :=
  s.faults.length ≤ Config.faultEntries ∧ (s.faults.map FaultEntry.number).Nodup ∧
    (s.faults.filter FaultEntry.firstOut).length ≤ 1

/-- R118: the done bits and count words of the system zone show the timers. -/
def State.showsTimers (s : State) : Prop :=
  ∀ n, n < Config.timerCount → s.bit n = timerDone (s.timer n) ∧ s.word n = timerCount (s.timer n)

/-- R140: word 54 shows the length of the free list, and word 55+p the depth of the two queues of port p together. -/
def State.showsExchange (s : State) : Prop :=
  s.word 54 = natHalf s.exchange.free.length ∧
    ∀ p : Port, s.word (55 + p.index) = natHalf ((s.exchange.urgent.get p).length + (s.exchange.normal.get p).length)

/-- R140, R156: words 55 to 58 show the depths of the queues, and word 54 the free list once the exchange's first event after
power-on has written it. -/
def State.showsExchangeOnceWritten (s : State) : Prop :=
  (s.freeWordDue = false → s.showsExchange) ∧
    ∀ p : Port, s.word (55 + p.index) = natHalf ((s.exchange.urgent.get p).length + (s.exchange.normal.get p).length)

/-- R136: the number of post-queue entries that name buffer `b`. -/
def State.entriesOf (s : State) (b : Nat) : Nat :=
  (Port.all.map fun p => ((s.exchange.urgent.get p ++ s.exchange.normal.get p).filter fun e => e.buffer == b).length).sum

/-- R139: the number of buffers in use whose sender is the session. -/
def State.sentBy (s : State) (r : SessionRef) : Nat :=
  ((List.range Config.bufferCount).filter fun b => (s.buffer b).any fun k => k.sender == r).length

/-- R136 to R139: a buffer in use is one of the 64 and counts a reference, 1 to 3, for each entry that names it, and no entry
names another; the free list holds exactly the other buffers, each once; a port without a current session has no entries; and
the quota of each current session is the number of buffers in use that it sent, at most 24. -/
def State.exchangeLawful (s : State) : Prop :=
  (∀ b k, s.buffer b = some k →
    b < Config.bufferCount ∧ 1 ≤ k.references ∧ k.references ≤ 3 ∧ k.references = s.entriesOf b) ∧
  (∀ b, s.buffer b = none → s.entriesOf b = 0) ∧
  (s.exchange.free.Nodup ∧ ∀ b, b ∈ s.exchange.free ↔ b < Config.bufferCount ∧ s.buffer b = none) ∧
  (∀ p, s.session p = none → s.exchange.urgent.get p = [] ∧ s.exchange.normal.get p = []) ∧
  ∀ p r e, s.session p = some r → s.exchange.sessions.get p = some e →
    e.quota = s.sentBy r ∧ e.quota ≤ Config.sessionBuffers

/-- R173: bits 60 to 63 and words 52 and 53 show the fault list: an entry, an entry that no port has acknowledged, 16
entries, the first-out mark, the number of entries and the overflow count. -/
def State.showsFaults (s : State) : Prop :=
  (s.bit 60 = !s.faults.isEmpty ∧ s.bit 61 = s.faults.any (fun e => e.acknowledged == 0) ∧
    s.bit 62 = decide (16 ≤ s.faults.length) ∧ s.bit 63 = s.faults.any FaultEntry.firstOut) ∧
  s.word 52 = natHalf s.faults.length ∧ s.word 53 = s.overflow

/-- R101, R106: the session on port `p` waits for a token that the session on port `q` holds. -/
def State.waitsOn (s : State) (p q : Port) : Prop :=
  ∃ t h, t < Config.tokenCount ∧ (∃ w ∈ (s.token t).waiters, w.port = p) ∧ (s.token t).hold = some h ∧ h.holder.port = q

/-- R100, R101, R106: a FREE token has no waiters and a HELD one is not broken; its holder and its waiters are current
sessions; a port stands in one wait list at most, and there once; and no session waits, over whatever number of links, for a
token that it holds itself. -/
def State.tokensLawful (s : State) : Prop :=
  (∀ t, t < Config.tokenCount →
    ((s.token t).hold = none → (s.token t).waiters = []) ∧
    (∀ h, (s.token t).hold = some h → (s.token t).broken = false ∧ s.session h.holder.port = some h.holder) ∧
    (∀ w ∈ (s.token t).waiters, s.session w.port = some w) ∧ ((s.token t).waiters.map SessionRef.port).Nodup) ∧
  (∀ t u, t < Config.tokenCount → u < Config.tokenCount → t ≠ u →
    ∀ w ∈ (s.token t).waiters, ∀ v ∈ (s.token u).waiters, w.port ≠ v.port) ∧
  ∀ p : Port, ¬ Relation.TransGen s.waitsOn p p

/-- R17, R28, R90, R103, R150: every deadline lies at the clock or ahead of it, by no more than its block can set it: 255
periods of 5 ms, delays of 10 ms, limits of 100 ms or coalesce times of 1 ms; and a monitor time is not 0 (R26). -/
def State.deadlinesAhead (s : State) : Prop :=
  (∀ p m, (s.ports.get p).session = some m → m.monitorTime ≠ 0 ∧ (m.deadline - s.clock).toNat ≤ 1275) ∧
  (∀ z r d, 1 ≤ z → z ≤ 31 → s.zone z = some r → r.status = .handover d → (d - s.clock).toNat ≤ 2550) ∧
  (∀ n h d, n < Config.tokenCount → (s.token n).hold = some h → h.deadline = some d → (d - s.clock).toNat ≤ 25500) ∧
  ∀ p e d, s.exchange.sessions.get p = some e → e.deadline = some d → (d - s.clock).toNat ≤ 255

/-! ## What an event leaves of a zone -/

/-- R88: the points of a zone in `t` are what its loss policy leaves of them: for HOLD those of `s`, for CLEAR and for
SUBSTITUTE without a loaded image all 0, for SUBSTITUTE with one the image's values in index order. -/
def ZoneRecord.policyLeaves (r : ZoneRecord) (s t : State) : Prop :=
  (r.policy = .hold →
    (∀ i, r.hasBit i = true → t.bit i = s.bit i) ∧ ∀ i, r.hasWord i = true → t.word i = s.word i) ∧
  ((r.policy = .clear ∨ ∃ g : SafeImage, r.policy = .substitute g ∧ g.loaded = false) →
    (∀ i, r.hasBit i = true → t.bit i = false) ∧ ∀ i, r.hasWord i = true → t.word i = 0) ∧
  ∀ g : SafeImage, r.policy = .substitute g → g.loaded = true →
    (∀ i v, i < r.bitCount → g.bits[i]? = some v → t.bit (r.bitFirst + i) = v) ∧
    ∀ i v, i < r.wordCount → g.words[i]? = some v → t.word (r.wordFirst + i) = v

/-- R88: the record of a zone once its loss policy has been applied: HOLD leaves it, the others count one write event. -/
def ZoneRecord.policyApplied (clock : Clock) (epoch : Byte) (r : ZoneRecord) : ZoneRecord :=
  match r.policy with
  | .hold => r
  | .clear => { r with generation := seqNext r.generation, lastTime := clock, lastEpoch := epoch }
  | .substitute _ => { r with generation := seqNext r.generation, lastTime := clock, lastEpoch := epoch }

/-- R81: ZONE attention for zone `z` has reached the session of port `q`, if it has one. -/
def State.zoneTold (s t : State) (z : Nat) (q : Port) : Prop :=
  (t.attention.get q).map (fun a => (a.pending.getLsbD 3, a.zones.getLsbD z)) = (s.attention.get q).map fun _ => (true, true)

/-! ## Which blocks a command reaches -/

/-- The pieces of the state that a frame statement speaks of. -/
inductive Block where
  | resetPhase
  | clock
  | sessionCounter
  | port (p : Port)
  | link (p : Port)
  | zones
  | definablePoints
  | tokens
  | timerSettings
  | exchange
  | faults
deriving DecidableEq, Repr

/-- What a timer holds beside its run: its configuration, its session and its source-undefined flag. -/
abbrev Armed.settings (t : Armed) : TimerKind × Nat × Option Nat × Base × Half × Option SessionRef × Bool :=
  (t.kind, t.source, t.resetBit, t.base, t.preset, t.session, t.sourceUndefined)

/-- A block stands the same in two states. -/
def Block.same (s t : State) : Block → Prop
  | .resetPhase => t.phase = s.phase ∧ t.epoch = s.epoch
  | .clock => t.clock = s.clock
  | .sessionCounter => t.sessionCounter = s.sessionCounter
  | .port p => t.ports.get p = s.ports.get p
  | .link p => t.links.get p = s.links.get p
  | .zones => ∀ z, t.zone z = s.zone z
  | .definablePoints => (∀ i, 128 ≤ i → t.bit i = s.bit i) ∧ ∀ i, 96 ≤ i → t.word i = s.word i
  | .tokens => ∀ n, t.token n = s.token n
  | .timerSettings => ∀ n, (t.timer n).map Armed.settings = (s.timer n).map Armed.settings
  | .exchange => t.exchange = s.exchange
  | .faults => t.faults = s.faults ∧ t.overflow = s.overflow

/-- The blocks that every request may change: the port's own record (R25) and the port's own link (R12). -/
def requestBlocks (p : Port) : List Block := [.port p, .link p]

/-- The blocks that the end of a session may change beside those of its request (R34). -/
def endBlocks : List Block := [.zones, .tokens, .timerSettings, .exchange, .faults]

/-- Every block. -/
def allBlocks : List Block :=
  [.resetPhase, .clock, .sessionCounter, .port .A, .port .B, .port .C, .port .D, .link .A, .link .B, .link .C, .link .D,
    .zones, .definablePoints, .tokens, .timerSettings, .exchange, .faults]

/-- The blocks that a request kind may change beside the port's own record and link. -/
def requestReaches : Kind → List Block
  | .identify => []
  | .join => [.sessionCounter, .definablePoints] ++ endBlocks
  | .leave => endBlocks
  | .ping => []
  | .defineZone => [.zones, .timerSettings]
  | .retireZone => [.zones, .definablePoints, .timerSettings]
  | .setZonePolicy => [.zones]
  | .loadSafeImage => [.zones]
  | .queryZone => []
  | .publish => [.zones, .definablePoints]
  | .snapshot => []
  | .readPoints => []
  | .claim => [.zones]
  | .release => [.zones]
  | .handOver => [.zones]
  | .acquire => [.tokens]
  | .releaseToken => [.tokens]
  | .cancelWait => [.tokens]
  | .setTokenLimit => [.tokens]
  | .queryTokens => []
  | .setTimer => [.timerSettings]
  | .resetTimer => []
  | .freeTimer => [.timerSettings]
  | .queryTimer => []
  | .send => [.exchange]
  | .receive => [.exchange]
  | .flushQueue => [.exchange]
  | .setCoalesce => [.exchange]
  | .setWatch => []
  | .clearWatch => []
  | .readAttention => [.exchange]
  | .setAttentionMask => []
  | .raiseFault => [.faults]
  | .clearFault => [.faults]
  | .ackFault => [.faults]
  | .readFaults => []

/-- The blocks that a command which is no request may change; SELECTION_END may carry any request. -/
def eventReaches : Instr → List Block
  | .selectionStart p => [.link p]
  | .statusByteComplete p => [.link p]
  | .byteShifted p _ => [.link p]
  | .ignoredSelectionEnd p => [.link p]
  | .selectionEnd p => requestBlocks p ++ [.sessionCounter, .definablePoints] ++ endBlocks
  | .unknownKind p _ _ _ _ => requestBlocks p
  | .cellClockAdvance => [.clock, .port .A, .port .B, .port .C, .port .D, .definablePoints] ++ endBlocks
  | .monitorFirstExpiry p => [.port p]
  | .monitorSecondExpiry p => [.port p, .definablePoints] ++ endBlocks
  | .takeoverDeadlineExpiry _ => [.zones, .faults]
  | .holdDeadlineExpiry _ => [.tokens, .faults]
  | .timerTick => []
  | .coalesceDeadlineExpiry _ => [.exchange]
  | .rstnRise => [.resetPhase]
  | .powerOnResetEnd _ => [.resetPhase]
  | .freeBufferWordWrite => []
  | .warmReset => allBlocks
  | .powerOnReset _ => allBlocks
  | _ => []

/-- The next state of a command; the state itself where the command has none. -/
def State.after (s : State) (c : Instr) : State :=
  match exec c s with
  | .next t => t
  | .fault _ => s
  | .refused _ => s

/-- A state whose next step goes on. -/
def State.goesOn (s : State) : Prop := ∃ t, step s = .next t

end Sys2Proof.Machine
end

