-- ==== Sys2Proof/Certificates/Slice0/Obligations.lean ====
section
/-!
DEFINITION. The statements for the provers. A request row is stated for a port with a current session `m`, ONLINE or LATE
(`State.serves`); `s.qualify p m.number` is the state as the monitor's part of the arrival leaves it (R25, stated by
`ArrivalRestartsTheMonitor`), and `replied` puts a frame in the reply slot (R12). Points and replies are written out as the
rules give them. Where a clause rests on a choice of the model, its docstring names the log entry.
-/

open Sys2Proof Sys2Proof.Machine

/-! ## The machine -/

/-- A step takes the command at the front and runs it on the rest of the queue; with none waiting the part idles (entry
12). -/
def Obligations.StepTakesTheFrontCommand : Prop :=
  (∀ (c : Instr) (s : State) (rest : List Instr),
    step { s with pending := c :: rest } = exec c { s with pending := rest }) ∧
  ∀ s : State, step { s with pending := [] } = .next { s with pending := [] }

/-- Every command, in every state, goes on to a next state and leaves the commands that wait as they are. -/
def Obligations.EveryCommandGoesOn : Prop :=
  ∀ (c : Instr) (s : State), ∃ t, exec c s = .next t ∧ t.pending = s.pending

/-- The values that power-on reset leaves (R1, R17, R18, R21, R22, R43, R59, R99, R116, R117, R156, R170, R171), with every
PpSEL negated and the part running (entry 10). -/
def Obligations.ResetHoldsThePowerOnValues : Prop :=
  let s := State.reset
  (s.clock = 0 ∧ s.epoch = 0 ∧ s.sessionCounter = 0 ∧ s.phase = .running) ∧
  (∀ p, s.ports.get p = .offline ∧ s.attention.get p = none ∧ s.exchange.sessions.get p = none ∧
    s.exchange.urgent.get p = [] ∧ s.exchange.normal.get p = [] ∧ s.atn p = false) ∧
  (∀ p, (s.links.get p).selection = .idle ∧ (s.links.get p).reply = none ∧ (s.links.get p).received = [] ∧
    (s.links.get p).excess = false ∧ (s.links.get p).captured = none ∧ (s.links.get p).position = 0 ∧
    (s.links.get p).discarded = false ∧ (s.links.get p).refused = false ∧ (s.links.get p).discardedCount = 0 ∧
    (s.links.get p).refusedCount = 0) ∧
  (s.systemZone.generation = 0 ∧ s.systemZone.lastTime = 0 ∧ s.systemZone.lastEpoch = 0 ∧ ∀ z, s.zone z = none) ∧
  (∀ i, s.bit i = false ∧ s.word i = 0) ∧
  (∀ t, (s.token t).hold = none ∧ (s.token t).limit = 0 ∧ (s.token t).waiters = [] ∧ (s.token t).broken = false) ∧
  (∀ n, s.timer n = none) ∧
  ((∀ b, s.buffer b = none) ∧ s.exchange.free = List.range 64 ∧ s.exchange.counter = 0 ∧ s.exchange.discards = 0) ∧
  s.faults = [] ∧ s.overflow = 0 ∧ s.pending = []

/-! ## The port link -/

/-- R2: a selection that starts while the part runs empties the receive buffer, captures the status byte and puts the reply
position at 0. R19: one that starts in reset is IGNORED. -/
def Obligations.SelectionStartTakesOrIgnores : Prop :=
  ∀ (s : State) (p : Port), (s.links.get p).selection = .idle →
    (s.phase = .running →
      exec (.selectionStart p) s =
        .next (s.setLink p { s.links.get p with
          selection := .selected, received := [], excess := false, captured := some (s.statusByte p), position := 0 })) ∧
    (s.phase ≠ .running →
      ∃ t, exec (.selectionStart p) s = .next t ∧ (t.links.get p).selection = .ignored ∧ (t.links.get p).received = [] ∧
        (t.links.get p).reply = (s.links.get p).reply ∧ (t.links.get p).discarded = (s.links.get p).discarded ∧
        (t.links.get p).refused = (s.links.get p).refused)

/-- R3: the byte a selection captures reports the seven fields as they stand at its start, in the places of R183. -/
def Obligations.StatusByteReportsSevenFields : Prop :=
  ∀ (s : State) (p : Port), (s.links.get p).selection = .idle → s.phase = .running →
    ∃ (t : State) (b : Byte), exec (.selectionStart p) s = .next t ∧ (t.links.get p).captured = some b ∧
      b.getLsbD 7 = (s.links.get p).reply.isSome ∧ b.getLsbD 6 = s.atn p ∧
      b.getLsbD 5 = (s.ports.get p).session.isSome ∧ b.getLsbD 4 = (s.ports.get p).isLate ∧
      b.getLsbD 3 = (s.links.get p).discarded ∧ b.getLsbD 2 = (s.links.get p).refused ∧
      (b.extractLsb' 0 2).toNat = p.index

/-- R4: when the status byte is out, the flags it reported as set are cleared and no other. R5: each byte shifted in is kept,
up to the first 264; beyond them the link keeps whether one was other than 00 hex. R4, R7: each byte after the status byte
moves the reply position on, up to the reply's length, in a selection that carries the slot's reply. R4: the byte shifted out
is the captured status first, then the byte of the carried reply at the reply position, and 00 hex after the reply's last byte
or without a reply; outside a SELECTED selection nothing is driven, no byte is kept and no flag changes. -/
def Obligations.BytesShiftThroughASelection : Prop :=
  (∀ (s : State) (p : Port) (status : Byte), (s.links.get p).selection = .selected →
    (s.links.get p).captured = some status →
    let l := s.links.get p
    exec (.statusByteComplete p) s =
      .next (s.setLink p { l with
        discarded := if status.getLsbD 3 then false else l.discarded
        refused := if status.getLsbD 2 then false else l.refused }) ∧
    (∀ b : Byte, ∃ t, exec (.byteShifted p b) s = .next t ∧
      let l' := t.links.get p
      t = s.setLink p { l with received := l'.received, excess := l'.excess, position := l'.position } ∧
      (l.received.length < 264 → l'.received = l.received ++ [b] ∧ l'.excess = l.excess) ∧
      (264 ≤ l.received.length → l'.received = l.received ∧ l'.excess = (l.excess || b != 0)) ∧
      (l.received = [] ∨ status.getLsbD 7 = false ∨ l.reply = none → l'.position = l.position) ∧
      (∀ reply, l.received ≠ [] → status.getLsbD 7 = true → l.reply = some reply →
        l'.position = if l.position < reply.length then l.position + 1 else l.position)) ∧
    (l.received = [] → l.dataOut = some status) ∧
    (∀ reply, l.received ≠ [] → status.getLsbD 7 = true → l.reply = some reply →
      (∀ b, reply[l.position]? = some b → l.dataOut = some b) ∧ (reply.length ≤ l.position → l.dataOut = some 0)) ∧
    (l.received ≠ [] → status.getLsbD 7 = false ∨ l.reply = none → l.dataOut = some 0)) ∧
  ∀ (s : State) (p : Port), (s.links.get p).selection = .idle ∨ (s.links.get p).selection = .ignored →
    (s.links.get p).dataOut = none ∧ exec (.statusByteComplete p) s = .next s ∧
    ∀ b : Byte, exec (.byteShifted p b) s = .next s

/-- R7: the reply leaves the slot at the end of a selection that shifted out its last byte. R5: a fetch-only selection causes
nothing more. R9: a frame that is not well-formed is discarded. R10: a well-formed frame that finds the slot occupied is
refused. R19: the end of an IGNORED selection only takes the link back to IDLE. -/
def Obligations.SelectionEndsWithoutAnArrival : Prop :=
  ∀ (s : State) (p : Port),
    let l := s.links.get p
    let reply := if l.captured.any statusReply ∧ l.position = (l.reply.getD []).length then none else l.reply
    (l.selection = .selected → fetchOnly l.received l.excess = true →
      exec (.selectionEnd p) s = .next (s.setLink p { l with selection := .idle, reply := reply })) ∧
    (l.selection = .selected → fetchOnly l.received l.excess = false → classify l.received l.excess = none →
      exec (.selectionEnd p) s =
        .next (s.setLink p { l with
          selection := .idle, reply := reply, discarded := true, discardedCount := satInc l.discardedCount })) ∧
    (∀ r, l.selection = .selected → fetchOnly l.received l.excess = false → classify l.received l.excess = some r →
      reply.isSome →
      exec (.selectionEnd p) s =
        .next (s.setLink p { l with
          selection := .idle, reply := reply, refused := true, refusedCount := satInc l.refusedCount })) ∧
    (l.selection = .ignored → exec (.ignoredSelectionEnd p) s = .next (s.setLink p { l with selection := .idle }))

/-- R6, R11: a selection that shifted in the frame of a request, with any number of 00 bytes after it, is that request's
row on the link as the end of the selection leaves it (entry 1). -/
def Obligations.SelectionEndIsTheRequest : Prop :=
  ∀ (s : State) (p : Port) (tag : Byte) (session : Half) (body : List Byte) (trailing : Nat),
    let l := s.links.get p
    let reply := if l.captured.any statusReply ∧ l.position = (l.reply.getD []).length then none else l.reply
    let ended := s.setLink p { l with selection := .idle, reply := reply }
    s.phase = .running → l.selection = .selected → l.excess = false → body.length ≤ 256 →
    (∀ k : Kind, l.received = (Request.mk tag k.code session body).frame ++ List.replicate trailing 0 →
      exec (.selectionEnd p) s = exec (k.command p tag session body) ended) ∧
    ∀ kind : Byte, Kind.ofCode kind = none →
      l.received = (Request.mk tag kind session body).frame ++ List.replicate trailing 0 →
      exec (.selectionEnd p) s = exec (.unknownKind p tag kind session body) ended

/-- R8, R183, R185: which frames are well-formed, and what a frame says. Reading a request frame gives back the request, with
every tag, kind, session and body that a frame holds, and with any number of 00 bytes after it. No other bytes are
well-formed: whatever is read as a request is its frame with 00 bytes after it, holds a body of at most 256 bytes, and no
byte other than 00 was shifted in beyond the 264th. The fields of a frame stand most significant byte first: the last two
clauses write fields, and the PING frame of R185, out in bytes. -/
def Obligations.RequestFrameReadsBack : Prop :=
  (∀ (r : Request) (trailing : Nat), r.body.length ≤ 256 →
    classify (r.frame ++ List.replicate trailing 0) false = some r) ∧
  (∀ (received : List Byte) (excess : Bool) (r : Request), classify received excess = some r →
    excess = false ∧ r.body.length ≤ 256 ∧ ∃ trailing, received = r.frame ++ List.replicate trailing 0) ∧
  (∀ r : Request,
    let fields := halfBytes (natHalf (r.body.length + 8)) ++ [r.tag, r.kind] ++ halfBytes r.session ++ r.body
    r.frame = fields ++ halfBytes (checkValue fields)) ∧
  (halfBytes 0x1234 = [0x12, 0x34] ∧ clockBytes 0x12345678 = [0x12, 0x34, 0x56, 0x78]) ∧
  (Request.mk 2 0x04 7 []).frame = [0x00, 0x08, 0x02, 0x04, 0x00, 0x07, 0x4D, 0x72]

/-- R10: a request whose frame finds the reply slot occupied is refused: REFUSED and the count, and nothing else. R19: while
the part is in reset, or in a selection that the link ignores, a request row does nothing (entry 1). -/
def Obligations.RequestsThatDoNotArrive : Prop :=
  ∀ (s : State) (p : Port) (k : Kind) (tag : Byte) (session : Half) (body : List Byte),
    let l := s.links.get p
    (s.takesFrames p = true → l.reply.isSome →
      exec (k.command p tag session body) s =
        .next (s.setLink p { l with refused := true, refusedCount := satInc l.refusedCount })) ∧
    (s.takesFrames p = true → l.reply.isSome → ∀ kind : Byte,
      exec (.unknownKind p tag kind session body) s =
        .next (s.setLink p { l with refused := true, refusedCount := satInc l.refusedCount })) ∧
    (s.phase ≠ .running ∨ l.selection = .ignored →
      exec (k.command p tag session body) s = .next s ∧
      ∀ kind : Byte, exec (.unknownKind p tag kind session body) s = .next s)

/-- R24: every kind but IDENTIFY and JOIN is refused NO_SESSION on a port without the session that its session field names,
with detail 0 where the port has none and 1 where it has another; the reply shows the port's state as it stands, and no
block's state changes. -/
def Obligations.FencedRequestsAreRefused : Prop := ∀ k : Kind, k.isFenced = true → k.fencedOff

/-- R12: every arrival puts exactly one reply in the slot, with its tag, its kind and the port state that results. A refusal
leaves every block as the monitor's part of the arrival left it, and has an empty body; a LIST_FULL alone also counts (R175). -/
def Obligations.EveryArrivalGetsOneReply : Prop :=
  ∀ (s : State) (p : Port) (k : Kind) (tag : Byte) (session : Half) (body : List Byte), s.hears p →
    ∃ (t : State) (a : Answer), exec (k.command p tag session body) s = .next t ∧
      (t.links.get p).reply = some (a.frame tag k.code (t.ports.get p).stateCode) ∧
      (a.outcome ≠ .done → a.outcome ≠ .queued → a.body = [] ∧
        (a.outcome ≠ .listFull →
          t = (s.qualify p session).replied p (a.frame tag k.code (t.ports.get p).stateCode)))

/-- R11: a kind byte that names no request is answered BAD_REQUEST with detail 0, with or without a session. R15, R16, R188:
IDENTIFY reports its 39 bytes, and with the body 01 hex sets this link's two counts to 0 after the report; any other body is
BAD_REQUEST. -/
def Obligations.UnknownKindAndIdentify : Prop :=
  ∀ (s : State) (p : Port) (tag : Byte) (session : Half), s.hears p →
    let u := s.qualify p session
    let state := (u.ports.get p).stateCode
    let report : List Byte := [0x6B, 2, 0x0C, 4, 2, 4, 0x10, 0, 4, 0, 31, 4, 0, 1, 0, 16, 3, 32, 64, 60, 24, 8, 16, 1, 8, 2, 8] ++
      clockBytes s.clock ++ [s.epoch, p.code] ++ halfBytes (s.links.get p).discardedCount ++
      halfBytes (s.links.get p).refusedCount ++ halfBytes s.exchange.discards
    (∀ (kind : Byte) (body : List Byte), Kind.ofCode kind = none → exec (.unknownKind p tag kind session body) s =
      .next (u.replied p ((Answer.mk .badRequest 0 []).frame tag kind state))) ∧
    (∀ body, body = [] ∨ body = [0] → exec (.identify p tag session body) s =
      .next (u.replied p ((Answer.mk .done 0 report).frame tag 0x01 state))) ∧
    (exec (.identify p tag session [1]) s =
      .next (u.setLink p { u.links.get p with
        discardedCount := 0, refusedCount := 0
        reply := some ((Answer.mk .done 0 report).frame tag 0x01 state) })) ∧
    (∀ body, body ≠ [] → body ≠ [0] → body ≠ [1] → exec (.identify p tag session body) s =
      .next (u.replied p ((Answer.mk .badRequest 0 []).frame tag 0x01 state)))

/-! ## Sessions -/

/-- R26, R28, R36: a JOIN on a port without a session begins one: the counter's next number, ONLINE, the monitor time and
deadline, a fresh attention record and exchange state, the port's points, PEER to the other sessions, and the reply. A body
that is not two bytes holding 1 to 255 is BAD_REQUEST, in any port state. -/
def Obligations.JoinBeginsASession : Prop :=
  ∀ (s : State) (p : Port) (tag : Byte) (session : Half), s.hears p →
    (∀ time : Byte, (s.ports.get p).session = none → time ≠ 0 →
      let n := seqNext s.sessionCounter
      ∃ t, exec (.join p tag session [0, time]) s = .next t ∧
        t.sessionCounter = n ∧
        t.ports.get p = .online ⟨n, time, s.clock + BitVec.ofNat 32 (time.toNat * 5), 0⟩ ∧
        (∀ q, q ≠ p → t.ports.get q = s.ports.get q) ∧
        t.attention.get p = some ⟨0, 0b111111, 0, 0, 0, 0, 0, 0, [], false⟩ ∧
        t.exchange.sessions.get p = some ⟨0, 1, 0, none⟩ ∧
        t.bit (48 + p.index) = true ∧ t.bit (52 + p.index) = false ∧ t.bit (56 + p.index) = false ∧
        t.word (48 + p.index) = n ∧
        (∀ q, q ≠ p → (t.attention.get q).map (fun r => (r.pending &&& 16, r.ports)) =
          (s.attention.get q).map fun r => (16, r.ports ||| p.single)) ∧
        (t.links.get p).reply = some ((Answer.mk .done n [0, 0]).frame tag 0x02 1) ∧
        (∀ z, t.zone z = s.zone z) ∧ t.tokens = s.tokens ∧ t.faults = s.faults ∧ t.clock = s.clock) ∧
    ∀ body : List Byte, (∀ time : Byte, time ≠ 0 → body ≠ [0, time]) →
      exec (.join p tag session body) s =
        .next ((s.qualify p session).replied p
          ((Answer.mk .badRequest 0 []).frame tag 0x02 ((s.qualify p session).ports.get p).stateCode))

/-- R26, R27, R28: a JOIN on a port with a session ends it first, with fault 4084+p (entered, or dropped by a full list), and
begins the new one with nothing of the old; the reply's body holds the old number. -/
def Obligations.JoinReplacesTheSession : Prop :=
  ∀ (s : State) (p : Port) (m : Membership) (tag time : Byte) (session : Half), s.serves p m → time ≠ 0 →
    let n := seqNext s.sessionCounter
    ∃ t, exec (.join p tag session [0, time]) s = .next t ∧
      t.sessionCounter = n ∧
      t.ports.get p = .online ⟨n, time, s.clock + BitVec.ofNat 32 (time.toNat * 5), 0⟩ ∧
      t.attention.get p = some ⟨0, 0b111111, 0, 0, 0, 0, 0, 0, [], false⟩ ∧
      t.exchange.sessions.get p = some ⟨0, 1, 0, none⟩ ∧
      t.exchange.urgent.get p = [] ∧ t.exchange.normal.get p = [] ∧
      (t.hasFault (natHalf (4084 + p.index)) = true ∨ 16 ≤ t.faults.length) ∧
      t.bit (48 + p.index) = true ∧ t.bit (52 + p.index) = false ∧ t.bit (56 + p.index) = false ∧
      t.word (48 + p.index) = n ∧
      (t.links.get p).reply = some ((Answer.mk .done n (halfBytes m.number)).frame tag 0x02 1)

/-- R29: LEAVE ends the session: the port OFFLINE, its attention record, exchange state and queue entries gone, its points
at 0, PEER to the other sessions, and the reply with port state OFFLINE. A LEAVE with a body is BAD_REQUEST and the session
continues. -/
def Obligations.LeaveEndsTheSession : Prop :=
  ∀ (s : State) (p : Port) (m : Membership) (tag : Byte), s.serves p m →
    (∃ t, exec (.leave p tag m.number []) s = .next t ∧
      t.ports.get p = .offline ∧ (∀ q, q ≠ p → t.ports.get q = s.ports.get q) ∧
      t.attention.get p = none ∧ t.exchange.sessions.get p = none ∧
      t.exchange.urgent.get p = [] ∧ t.exchange.normal.get p = [] ∧
      t.bit (48 + p.index) = false ∧ t.bit (52 + p.index) = false ∧ t.bit (56 + p.index) = false ∧
      t.word (48 + p.index) = 0 ∧
      (∀ q, q ≠ p → (t.attention.get q).map (fun r => (r.pending &&& 16, r.ports)) =
        (s.attention.get q).map fun r => (16, r.ports ||| p.single)) ∧
      t.sessionCounter = s.sessionCounter ∧
      (t.links.get p).reply = some ((Answer.mk .done 0 []).frame tag 0x03 0)) ∧
    ∀ body : List Byte, body ≠ [] →
      exec (.leave p tag m.number body) s = .next (s.refused p m tag .leave .badRequest 0)

/-- R30: PING is fenced; it has no effect beyond its arrival (R25); with an empty body it is answered DONE with the session's
LATE count, which does not drop, and with a body BAD_REQUEST with detail 0. -/
def Obligations.PingReportsTheLateCount : Prop :=
  Kind.ping.fencedOff ∧
  ∀ (s : State) (p : Port) (m : Membership) (tag : Byte), s.serves p m →
    (∃ t, exec (.ping p tag m.number []) s = .next t ∧
      t = (s.qualify p m.number).replied p ((Answer.mk .done m.lateCount []).frame tag 0x04 1) ∧
      t.ports.get p = .online { m with deadline := s.clock + BitVec.ofNat 32 (m.monitorTime.toNat * 5) }) ∧
    ∀ body : List Byte, body ≠ [] →
      exec (.ping p tag m.number body) s = .next (s.refused p m tag .ping .badRequest 0)

/-- R25: an arrival of any kind first passes the monitor, then its service, and its reply shows the port state that results.
The monitor restarts the deadline of a port whose session the arrival carries, takes a LATE port back to ONLINE with bit
52+p at 0 and PEER to the other sessions, and does nothing otherwise. -/
def Obligations.ArrivalRestartsTheMonitor : Prop :=
  (∀ (s : State) (p : Port) (k : Kind) (tag : Byte) (session : Half) (body : List Byte), s.hears p →
    let r := serviceOf k p session body (s.qualify p session)
    exec (k.command p tag session body) s = .next (r.1.replied p (r.2.frame tag k.code (r.1.ports.get p).stateCode))) ∧
  ∀ (s : State) (p : Port) (m : Membership),
    (s.ports.get p = .online m → s.qualify p m.number =
      s.setPort p (.online { m with deadline := s.clock + BitVec.ofNat 32 (m.monitorTime.toNat * 5) })) ∧
    (s.ports.get p = .late m →
      let t := s.qualify p m.number
      t.ports.get p = .online { m with deadline := s.clock + BitVec.ofNat 32 (m.monitorTime.toNat * 5) } ∧
      (∀ q, q ≠ p → t.ports.get q = s.ports.get q) ∧ t.bit (52 + p.index) = false ∧
      (∀ q, q ≠ p → (t.attention.get q).map (fun r => (r.pending &&& 16, r.ports)) =
        (s.attention.get q).map fun r => (16, r.ports ||| p.single)) ∧
      (∀ z, t.zone z = s.zone z) ∧ t.tokens = s.tokens ∧ t.exchange = s.exchange ∧ t.faults = s.faults ∧
      t.links = s.links) ∧
    ∀ n : Half, (∀ m, (s.ports.get p).session = some m → m.number ≠ n) → s.qualify p n = s

/-- R31: the deadline of an ONLINE port reached (entry 3): LATE, one more on the LATE count, the next deadline one monitor
time on, bit 52+p, PEER to the other sessions; the session goes on with all it holds, and gets no attention beside a watch's.
Nothing happens where the clock stands at no such deadline (entry 2). -/
def Obligations.FirstExpiryMakesThePortLate : Prop :=
  ∀ (s : State) (p : Port),
    (∀ m, s.ports.get p = .online m → m.deadline = s.clock →
      ∃ t, exec (.monitorFirstExpiry p) s = .next t ∧
        t.ports.get p = .late { m with
          lateCount := satInc m.lateCount, deadline := m.deadline + BitVec.ofNat 32 (m.monitorTime.toNat * 5) } ∧
        (∀ q, q ≠ p → t.ports.get q = s.ports.get q) ∧ t.bit (52 + p.index) = true ∧
        (∀ q, q ≠ p → (t.attention.get q).map (fun r => (r.pending &&& 16, r.ports)) =
          (s.attention.get q).map fun r => (16, r.ports ||| p.single)) ∧
        ((t.attention.get p).map fun r => (r.pending &&& 0b111101, r.ports)) =
          ((s.attention.get p).map fun r => (r.pending &&& 0b111101, r.ports)) ∧
        (∀ z, t.zone z = s.zone z) ∧ t.tokens = s.tokens ∧ t.exchange = s.exchange ∧ t.faults = s.faults ∧
        t.links = s.links) ∧
    ((∀ m, s.ports.get p = .online m → m.deadline ≠ s.clock) →
      exec (.monitorFirstExpiry p) s = .next s)

/-- R32: the deadline of a LATE port reached (entry 3): LOST, with the session's records gone, the port's points, fault
4080+p (entered, or dropped by a full list) and PEER to the other sessions. `zonesInArea` is R41's law of the zone table:
a loss-policy write then leaves the system zone alone. Nothing happens where the clock stands at no such deadline (entry 2). -/
def Obligations.SecondExpiryLosesTheSession : Prop :=
  ∀ (s : State) (p : Port),
    (∀ m, s.ports.get p = .late m → m.deadline = s.clock → s.zonesInArea →
      ∃ t, exec (.monitorSecondExpiry p) s = .next t ∧
        t.ports.get p = .lost ∧ (∀ q, q ≠ p → t.ports.get q = s.ports.get q) ∧
        t.attention.get p = none ∧ t.exchange.sessions.get p = none ∧
        t.exchange.urgent.get p = [] ∧ t.exchange.normal.get p = [] ∧
        t.bit (48 + p.index) = false ∧ t.bit (52 + p.index) = false ∧ t.bit (56 + p.index) = true ∧
        t.word (48 + p.index) = 0 ∧
        (t.hasFault (natHalf (4080 + p.index)) = true ∨ 16 ≤ t.faults.length) ∧
        (∀ q, q ≠ p → (t.attention.get q).map (fun r => (r.pending &&& 16, r.ports)) =
          (s.attention.get q).map fun r => (16, r.ports ||| p.single)) ∧
        t.sessionCounter = s.sessionCounter ∧ t.links = s.links) ∧
    ((∀ m, s.ports.get p = .late m → m.deadline ≠ s.clock) →
      exec (.monitorSecondExpiry p) s = .next s)

/-- R27, R89, R91, R113, R132, R147: what a session's end leaves, by LEAVE, by loss or by a new JOIN. No zone is owned by
it, no token held or waited for, no timer attached, and no entry stands in its port's queues. R113: its wait entry leaves
its list; each token it held passes to the head of the wait list, a new hold with the token's own limit, its broken value
told to the head (set for a loss, clear for a LEAVE), or goes FREE with the broken flag set for a loss alone; bit and
word 32+n show the holder. R79, R164: the other sessions' OWNERSHIP watches fire, once each, on the zones that it owned
and on those in HANDOVER with its port as standby, and on no other zone. R91: such a zone in HANDOVER is ORPHANED with
its tenure kept, its bits and fault 4032+z written (entered, or dropped by a full list) and the claim-rights sessions
told. R89: at a LEAVE each zone it owned passes to its standby's session where that is ONLINE, else it is VACANT, one
tenure up. What a loss does to the zones it owned is the next statement's; every other zone stands. That the zones lie in
their area (R41) is a premise of the clauses on points. -/
def Obligations.EndedSessionHoldsNothing : Prop :=
  ∀ (s t : State) (p : Port) (m : Membership) (loss : Bool),
    ((s.serves p m ∧ loss = false ∧ ∃ tag, exec (.leave p tag m.number []) s = .next t) ∨
      (s.serves p m ∧ loss = true ∧ ∃ tag session time, time ≠ 0 ∧ exec (.join p tag session [0, time]) s = .next t) ∨
      (s.ports.get p = .late m ∧ loss = true ∧ m.deadline = s.clock ∧
        exec (.monitorSecondExpiry p) s = .next t)) →
    (∀ z r, 1 ≤ z → z ≤ 31 → t.zone z = some r → r.status ≠ .owned (m.on p)) ∧
    (∀ n, n < 16 → (t.token n).heldBy (m.on p) = false ∧ m.on p ∉ (t.token n).waiters) ∧
    (∀ n a, t.timer n = some a → a.session ≠ some (m.on p)) ∧
    (t.exchange.urgent.get p = [] ∧ t.exchange.normal.get p = []) ∧
    (∀ n, n < 16 →
      let k := s.token n
      let waiting := k.waiters.filter fun w => decide (w ≠ m.on p)
      ((∀ h, k.hold = some h → h.holder ≠ m.on p) → t.token n = { k with waiters := waiting }) ∧
      ∀ h, k.hold = some h → h.holder = m.on p →
        (waiting = [] → t.token n = { k with hold := none, waiters := [], broken := loss } ∧
          (s.zonesInArea → t.bit (32 + n) = false ∧ t.word (32 + n) = 0)) ∧
        ∀ w rest, waiting = w :: rest →
          t.token n = {
            hold := some {
              holder := w
              grantTime := s.clock
              deadline := if k.limit = 0 then none else some (s.clock + BitVec.ofNat 32 (k.limit.toNat * 100)) }
            limit := k.limit
            waiters := rest
            broken := false } ∧
          (w.port ≠ p →
            (t.attention.get w.port).map (fun a =>
              (a.pending.getLsbD 2, if loss then a.grantedBroken.getLsbD n else a.granted.getLsbD n)) =
                (s.attention.get w.port).map fun _ => (true, true)) ∧
          (s.zonesInArea → t.bit (32 + n) = true ∧ t.word (32 + n) = w.port.code.setWidth 16)) ∧
    (∀ q a k w, q ≠ p → s.attention.get q = some a → a.slot k = some w → w.kind = .ownership →
      let moves := 1 ≤ w.zone ∧ w.zone ≤ 31 ∧ ∃ r, s.zone w.zone = some r ∧
        (r.status = .owned (m.on p) ∨ ((∃ d, r.status = .handover d) ∧ r.standby = some p))
      ∃ a', t.attention.get q = some a' ∧
        (moves → a'.pending.getLsbD 1 = true ∧ a'.slot k = some (
          if w.fired then { w with overrun := if w.overrun = 255 then 255 else w.overrun + 1 }
          else { w with fired := true })) ∧
        (¬ moves → a'.slot k = some w)) ∧
    ∀ z, 1 ≤ z → z ≤ 31 →
      (s.zone z = none → t.zone z = none) ∧
      ∀ r, s.zone z = some r →
        (r.status ≠ .owned (m.on p) → (∀ d, r.status = .handover d → r.standby ≠ some p) → t.zone z = some r) ∧
        (∀ d, r.status = .handover d → r.standby = some p →
          t.zone z = some { r with status := .orphaned } ∧
          (t.hasFault (natHalf (4032 + z)) = true ∨ 16 ≤ t.faults.length) ∧
          (∀ q, q ≠ p → portIn q r.rights = true → s.zoneTold t z q) ∧
          (s.zonesInArea → t.bit (64 + z) = true ∧ t.bit (96 + z) = false)) ∧
        (loss = false → r.status = .owned (m.on p) →
          (∀ q mq, q ≠ p → r.standby = some q → s.ports.get q = .online mq →
            t.zone z = some { r with status := .owned (mq.on q), tenure := r.tenure + 1, standby := none } ∧
            s.zoneTold t z q) ∧
          ((∀ q mq, q ≠ p → r.standby = some q → s.ports.get q ≠ .online mq) →
            t.zone z = some { r with status := .vacant, tenure := r.tenure + 1 } ∧
            ∀ q, q ≠ p → portIn q r.rights = true → s.zoneTold t z q))

/-- R17: the cell clock counts milliseconds modulo 2^32 while the part runs, and stands while it is in reset. R17, R31, R32,
R93, R111, R119, R151: a deadline expires at the clock value that it names. The queue may take the expiry there, before or
after the arrivals of that value (R33); an advance first takes, in an order that is free (entries 3, 5), every expiry and the
tick event still due at the value that the clock leaves, each as its own command, and nothing else. The last clause is the law
of the deadlines: every step keeps each of them no further ahead of the clock than its block can set it, so none is ever
passed. That the flag tickDue says that a value's tick event is due is the model's own (entry 4). -/
def Obligations.ClockCountsMilliseconds : Prop :=
  (∀ s : State,
    (s.phase ≠ .running → exec .cellClockAdvance s = .next s) ∧
    (s.phase = .running →
      let due : Instr → Prop := fun c =>
        (∃ p m, c = .monitorFirstExpiry p ∧ s.ports.get p = .online m ∧ m.deadline = s.clock) ∨
        (∃ p m, c = .monitorSecondExpiry p ∧ s.ports.get p = .late m ∧ m.deadline = s.clock) ∨
        (∃ z r, c = .takeoverDeadlineExpiry z ∧ 1 ≤ z ∧ z ≤ 31 ∧ s.zone z = some r ∧ r.status = .handover s.clock) ∨
        (∃ n h, c = .holdDeadlineExpiry n ∧ n < 16 ∧ (s.token n).hold = some h ∧ h.deadline = some s.clock) ∨
        (∃ p e, c = .coalesceDeadlineExpiry p ∧ s.exchange.sessions.get p = some e ∧ e.deadline = some s.clock) ∨
        (c = .timerTick ∧ s.tickDue = true)
      ((∀ c, ¬ due c) → exec .cellClockAdvance s = .next { s with clock := s.clock + 1, tickDue := true }) ∧
      ∃ (order : List Instr) (draws : Nat), order.Nodup ∧ (∀ c, c ∈ order ↔ due c) ∧
        exec .cellClockAdvance s =
          .next { order.foldl State.after { s with freeDraws := draws } with clock := s.clock + 1, tickDue := true })) ∧
  ∀ s t : State, s.deadlinesAhead → step s = .next t → t.deadlinesAhead

/-! ## Zones -/

/-- R41, R48: DEFINE_ZONE makes its checks in the order of R48, the first that fails giving the outcome: a body of ten bytes,
a claim-rights byte without other bits, a point at all, a number of at most 31, ranges that lie as R41 states, an UNDEFINED
number (the one named, or for 0 the lowest), and no point in another zone, whose lowest number is the detail. R49: one that
passes fills the record of the number, writes word 59, raises ZONE for the definer and answers the number; every other zone
and every point of the definable area stands. R131: a timer has its source-undefined flag cleared where each bit that it names
then has a holding zone, and is otherwise as the arrival left it. -/
def Obligations.DefineZoneFillsTheRecord : Prop :=
  ∀ (s : State) (p : Port) (m : Membership) (tag : Byte), s.serves p m →
    let refusedWith := fun (body : List Byte) (o : ReplyOutcome) (detail : Nat) =>
      exec (.defineZone p tag m.number body) s = .next (s.refused p m tag .defineZone o detail)
    (∀ body : List Byte, body.length ≠ 10 → refusedWith body .badRequest 0) ∧
    ∀ (n rightsByte : Byte) (firstBit bits firstWord words : Half),
      let body := [n] ++ halfBytes firstBit ++ halfBytes bits ++ halfBytes firstWord ++ halfBytes words ++ [rightsByte]
      let bitFirst := firstBit.toNat
      let bitCount := bits.toNat
      let wordFirst := firstWord.toNat
      let wordCount := words.toNat
      let bitsFit := bitCount % 8 = 0 ∧ bitCount ≤ 3968 ∧
        (bitCount = 0 ∨ (bitFirst % 8 = 0 ∧ 128 ≤ bitFirst ∧ bitFirst ≤ 4088 ∧ bitFirst + bitCount ≤ 4096))
      let wordsFit := wordCount ≤ 928 ∧
        (wordCount = 0 ∨ (96 ≤ wordFirst ∧ wordFirst ≤ 1023 ∧ wordFirst + wordCount ≤ 1024))
      let meets := fun r : ZoneRecord =>
        (0 < bitCount ∧ 0 < r.bitCount ∧ bitFirst < r.bitFirst + r.bitCount ∧ r.bitFirst < bitFirst + bitCount) ∨
        (0 < wordCount ∧ 0 < r.wordCount ∧ wordFirst < r.wordFirst + r.wordCount ∧ r.wordFirst < wordFirst + wordCount)
      let chosen := fun z : Nat => 1 ≤ z ∧ z ≤ 31 ∧ s.zone z = none ∧
        (z = n.toNat ∨ (n.toNat = 0 ∧ ∀ z', 1 ≤ z' → z' < z → s.zone z' ≠ none))
      (15 < rightsByte.toNat → refusedWith body .badRequest 1) ∧
      (rightsByte.toNat ≤ 15 →
        (bitCount = 0 → wordCount = 0 → refusedWith body .badRequest 2) ∧
        (bitCount ≠ 0 ∨ wordCount ≠ 0 →
          (31 < n.toNat → refusedWith body .range 1) ∧
          (n.toNat ≤ 31 →
            (¬ bitsFit → refusedWith body .range 2) ∧
            (bitsFit →
              (¬ wordsFit → refusedWith body .range 3) ∧
              (wordsFit →
                ((∀ z, ¬ chosen z) → refusedWith body .tableFull n.toNat) ∧
                ∀ z, chosen z →
                  (∀ z' r', 1 ≤ z' → z' ≤ 31 → s.zone z' = some r' → meets r' →
                    (∀ z'' r'', 1 ≤ z'' → z'' < z' → s.zone z'' = some r'' → ¬ meets r'') →
                    refusedWith body .overlap z') ∧
                  ((∀ z' r', 1 ≤ z' → z' ≤ 31 → s.zone z' = some r' → ¬ meets r') →
                    ∃ t, exec (.defineZone p tag m.number body) s = .next t ∧
                      t.zone z = some {
                        status := .owned (m.on p)
                        bitFirst := if bitCount = 0 then 0 else bitFirst
                        bitCount := bitCount
                        wordFirst := if wordCount = 0 then 0 else wordFirst
                        wordCount := wordCount
                        standby := none
                        delay := 0
                        policy := .hold
                        rights := rightsByte.setWidth 4 ||| p.single
                        generation := 0
                        tenure := 1
                        lastTime := s.clock
                        lastEpoch := s.epoch } ∧
                      (∀ z', z' ≠ z → t.zone z' = s.zone z') ∧
                      t.word 59 = natHalf t.definedZones.length ∧
                      ((t.attention.get p).map fun r => (r.pending &&& 8, r.zones)) =
                        ((s.attention.get p).map fun r => (8, r.zones ||| (1#32 <<< z))) ∧
                      (∀ i, 128 ≤ i → t.bit i = s.bit i) ∧ (∀ i, 96 ≤ i → t.word i = s.word i) ∧
                      (∀ k a, (s.qualify p m.number).timer k = some a →
                        let held := fun b : Nat =>
                          b < 128 ∨ ∃ z' r', 1 ≤ z' ∧ z' ≤ 31 ∧ t.zone z' = some r' ∧ r'.hasBit b = true
                        (held a.source → (∀ b, a.resetBit = some b → held b) →
                          t.timer k = some { a with sourceUndefined := false }) ∧
                        (¬ held a.source ∨ (∃ b, a.resetBit = some b ∧ ¬ held b) → t.timer k = some a)) ∧
                      (t.links.get p).reply = some ((Answer.mk .done (natHalf z) []).frame tag 0x10 1)))))))

/-- R55: RETIRE_ZONE refuses a body of another length, a number outside 1 to 31, an UNDEFINED zone, one OWNED by another
session, one VACANT or ORPHANED for a port without the right, and one in HANDOVER. R56: by the owner, or of a VACANT or
ORPHANED zone by a port with the right, it leaves the number UNDEFINED, every point of the zone at 0 and every other point of
the definable area as it was, and writes word 59 and, of bits 64 to 127, bit 64+z alone, to 0 where the zone was ORPHANED (R44).
R131: it marks the timers that named the zone's bits. R165: each watch on the zone leaves its slot, the slot joins the
session's GONE set, beside which no other slot joins it, and WATCH is pending. `zonesInArea` is R41's law of the zone table; a
record's slots are in canonical form by entry 14. -/
def Obligations.RetireZoneClearsTheZone : Prop :=
  ∀ (s : State) (p : Port) (m : Membership) (tag : Byte), s.serves p m →
    let refusedWith := fun (body : List Byte) (o : ReplyOutcome) (detail : Nat) =>
      exec (.retireZone p tag m.number body) s = .next (s.refused p m tag .retireZone o detail)
    (∀ body : List Byte, body.length ≠ 1 → refusedWith body .badRequest 0) ∧
    ∀ n : Byte,
      (n.toNat = 0 ∨ 31 < n.toNat → refusedWith [n] .range 1) ∧
      (1 ≤ n.toNat → n.toNat ≤ 31 →
        (s.zone n.toNat = none → refusedWith [n] .notFound 0) ∧
        ∀ r, s.zone n.toNat = some r →
          (∀ owner, r.status = .owned owner → owner ≠ m.on p → refusedWith [n] .notOwner 0) ∧
          (r.status = .vacant ∨ r.status = .orphaned → portIn p r.rights = false → refusedWith [n] .notPermitted 0) ∧
          (∀ d, r.status = .handover d → refusedWith [n] .zoneState 0) ∧
          (s.zonesInArea →
            (r.status = .owned (m.on p) ∨ ((r.status = .vacant ∨ r.status = .orphaned) ∧ portIn p r.rights = true)) →
            ∃ t, exec (.retireZone p tag m.number [n]) s = .next t ∧
              t.zone n.toNat = none ∧ (∀ z, z ≠ n.toNat → t.zone z = s.zone z) ∧
              (∀ i, r.hasBit i = true → t.bit i = false) ∧ (∀ i, r.hasWord i = true → t.word i = 0) ∧
              (∀ i, 128 ≤ i → r.hasBit i = false → t.bit i = s.bit i) ∧
              (∀ i, 96 ≤ i → r.hasWord i = false → t.word i = s.word i) ∧
              t.word 59 = natHalf t.definedZones.length ∧
              (r.status = .orphaned → t.bit (64 + n.toNat) = false) ∧
              (∀ i, 64 ≤ i → i < 128 → (i = 64 + n.toNat → r.status ≠ .orphaned) → t.bit i = s.bit i) ∧
              (∀ q a k w, t.attention.get q = some a → a.slot k = some w → w.zone ≠ n.toNat) ∧
              (∀ q a, s.attention.get q = some a → Memory.wf none a.slots →
                ∃ a', t.attention.get q = some a' ∧
                  (∀ k w, a.slot k = some w → w.zone = n.toNat → a'.slot k = none) ∧
                  (∀ k, (∀ w, a.slot k = some w → w.zone ≠ n.toNat) →
                    (a'.slot k).map (fun w => (w.zone, w.kind)) = (a.slot k).map fun w => (w.zone, w.kind)) ∧
                  (∀ k, k < 8 →
                    a'.gone.getLsbD k = (a.gone.getLsbD k || (a.slot k).any fun w => decide (w.zone = n.toNat))) ∧
                  ((∃ k w, a.slot k = some w ∧ w.zone = n.toNat) → a'.pending.getLsbD 1 = true)) ∧
              (∀ k a, t.timer k = some a → (r.hasBit a.source || a.resetBit.any r.hasBit) = true →
                a.sourceUndefined = true) ∧
              (t.links.get p).reply = some ((Answer.mk .done 0 []).frame tag 0x11 1)))

/-- R51, R54: SET_ZONE_POLICY and LOAD_SAFE_IMAGE make their checks in the order of their tables, the first that fails giving
the outcome and changing nothing. R52, R53: a SET_ZONE_POLICY that passes replaces policy, standby, delay and claim rights
together; an entered SUBSTITUTE has a new image of zeros, not loaded, and a kept one its image. R54: a LOAD_SAFE_IMAGE that
passes replaces the image's contents and sets its loaded flag. Neither changes anything else. -/
def Obligations.PolicyAndSafeImageAreSet : Prop :=
  ∀ (s : State) (p : Port) (m : Membership) (tag : Byte), s.serves p m →
    let u := s.qualify p m.number
    let policyRefused := fun (body : List Byte) (o : ReplyOutcome) (detail : Nat) =>
      exec (.setZonePolicy p tag m.number body) s = .next (s.refused p m tag .setZonePolicy o detail)
    let loadRefused := fun (body : List Byte) (o : ReplyOutcome) (detail : Nat) =>
      exec (.loadSafeImage p tag m.number body) s = .next (s.refused p m tag .loadSafeImage o detail)
    (∀ body : List Byte, body.length ≠ 5 → policyRefused body .badRequest 0) ∧ loadRefused [] .badRequest 0 ∧
    (∀ n policyByte standbyByte delay rightsByte : Byte,
      2 < policyByte.toNat ∨ 4 < standbyByte.toNat ∨ 15 < rightsByte.toNat →
      policyRefused [n, policyByte, standbyByte, delay, rightsByte] .badRequest 1) ∧
    ∀ (n delay : Byte) (policy : PolicyCode) (standby : Option Port) (requested : PortSet) (values : List Byte),
      let body : List Byte := [n, match policy with | .hold => 0 | .clear => 1 | .substitute => 2,
        match standby with | none => 0 | some q => q.code, delay, requested.setWidth 8]
      let rights := requested ||| p.single
      (n.toNat = 0 ∨ 31 < n.toNat → policyRefused body .range 1 ∧ loadRefused (n :: values) .range 1) ∧
      (1 ≤ n.toNat → n.toNat ≤ 31 →
        (s.zone n.toNat = none → policyRefused body .notFound 0 ∧ loadRefused (n :: values) .notFound 0) ∧
        ∀ r, s.zone n.toNat = some r →
          let size := r.bitCount / 8 + 2 * r.wordCount
          let enters := policy = .substitute ∧ ∀ image, r.policy ≠ .substitute image
          (r.status ≠ .owned (m.on p) → policyRefused body .notOwner 0 ∧ loadRefused (n :: values) .notOwner 0) ∧
          (r.status = .owned (m.on p) →
            (∀ q, standby = some q → portIn q rights = false ∨ q = p → policyRefused body .notPermitted 0) ∧
            ((∀ q, standby = some q → portIn q rights = true ∧ q ≠ p) →
              (enters → 255 < size → policyRefused body .tooLarge size) ∧
              (enters → size ≤ 255 → s.safeFreeBits < r.bitCount ∨ s.safeFreeWords < r.wordCount →
                policyRefused body .safeStoreFull
                  ((if s.safeFreeBits < r.bitCount then 1 else 0) + (if s.safeFreeWords < r.wordCount then 2 else 0))) ∧
              ((enters → size ≤ 255 ∧ r.bitCount ≤ s.safeFreeBits ∧ r.wordCount ≤ s.safeFreeWords) →
                exec (.setZonePolicy p tag m.number body) s =
                  .next ((u.setZone n.toNat (some { r with
                    policy :=
                      match policy, r.policy with
                      | .hold, _ => .hold
                      | .clear, _ => .clear
                      | .substitute, .substitute image => .substitute image
                      | .substitute, _ => .substitute ⟨false, List.replicate r.bitCount false, List.replicate r.wordCount 0⟩
                    standby := standby
                    delay := delay
                    rights := rights })).replied p ((Answer.mk .done 0 []).frame tag 0x12 1)))) ∧
            ((∀ image, r.policy ≠ .substitute image) → loadRefused (n :: values) .zoneState 0) ∧
            (∀ image, r.policy = .substitute image →
              (values.length ≠ size → loadRefused (n :: values) .badRequest 2) ∧
              (values.length = size →
                exec (.loadSafeImage p tag m.number (n :: values)) s =
                  .next ((u.setZone n.toNat (some { r with
                    policy := .substitute ⟨true, (values.take (r.bitCount / 8)).flatMap unpackByte,
                      halves (values.drop (r.bitCount / 8))⟩ })).replied p ((Answer.mk .done 0 []).frame tag 0x13 1))))))

/-- R58, R74, R75, R110, R130, R180: a request that reads makes its checks, with the details that its rule names (R58,
R73, R75, R110, R130, R180); one that passes is answered from the state as its arrival finds it, and changes nothing
beside the arrival's own effect (R25). R188: the later clauses write out the bytes of a QUERY_ZONE record after the
number, of a SNAPSHOT section (R74: a byte of bits holds the lowest index in its most significant place), of a
QUERY_TOKENS section, of a QUERY_TIMER reply and of a READ_FAULTS entry. -/
def Obligations.ReadingRequestsChangeNothing : Prop :=
  (∀ (s : State) (p : Port) (m : Membership) (tag : Byte), s.serves p m →
    let u := s.qualify p m.number
    (∀ body : List Byte,
      (body.length ≠ 1 →
        exec (.queryZone p tag m.number body) s = .next (s.refused p m tag .queryZone .badRequest 0) ∧
        exec (.queryTimer p tag m.number body) s = .next (s.refused p m tag .queryTimer .badRequest 0)) ∧
      (body ≠ [] →
        exec (.queryTokens p tag m.number body) s = .next (s.refused p m tag .queryTokens .badRequest 0) ∧
        exec (.readFaults p tag m.number body) s = .next (s.refused p m tag .readFaults .badRequest 0)) ∧
      (body = [] ∨ 8 < body.length →
        exec (.snapshot p tag m.number body) s = .next (s.refused p m tag .snapshot .badRequest 0)) ∧
      (body.length < 2 ∨ 64 < body.length ∨ body.length % 2 = 1 →
        exec (.readPoints p tag m.number body) s = .next (s.refused p m tag .readPoints .badRequest 0))) ∧
    (∀ n : Byte, 31 < n.toNat →
      exec (.queryZone p tag m.number [n]) s = .next (s.refused p m tag .queryZone .range 1) ∧
      exec (.queryTimer p tag m.number [n]) s = .next (s.refused p m tag .queryTimer .range 1)) ∧
    (∀ (before after : List Byte) (n : Byte), before.length + after.length < 8 →
      (31 < n.toNat → (∀ k ∈ before, k.toNat ≤ 31) → exec (.snapshot p tag m.number (before ++ n :: after)) s =
        .next (s.refused p m tag .snapshot .range (before.length + 1))) ∧
      ((∀ k ∈ before ++ n :: after, k.toNat ≤ 31) → n.toNat ≠ 0 → s.zone n.toNat = none →
        (∀ k ∈ before, k.toNat = 0 ∨ (s.zone k.toNat).isSome) → exec (.snapshot p tag m.number (before ++ n :: after)) s =
        .next (s.refused p m tag .snapshot .notFound (before.length + 1)))) ∧
    (∀ zs : List Byte, zs ≠ [] → zs.length ≤ 8 →
      (∀ n ∈ zs, n.toNat ≤ 31 ∧ (n.toNat = 0 ∨ (s.zone n.toNat).isSome)) →
      let payload := (zs.map fun n => if n.toNat = 0 then 218 else (s.zone n.toNat).elim 0 fun r => 10 + r.imageSize).sum
      508 < payload → exec (.snapshot p tag m.number zs) s = .next (s.refused p m tag .snapshot .tooLarge payload)) ∧
    (∀ (before after : List Half) (h : Half), before.length + after.length < 32 →
      ((h.getLsbD 15 = false ∧ 4096 ≤ h.toNat) ∨ (h.getLsbD 15 = true ∧ 1024 ≤ h.toNat - 32768)) →
      (∀ k ∈ before, (k.getLsbD 15 = false → k.toNat < 4096) ∧ (k.getLsbD 15 = true → k.toNat - 32768 < 1024)) →
      exec (.readPoints p tag m.number ((before ++ h :: after).flatMap halfBytes)) s =
        .next (s.refused p m tag .readPoints .range (before.length + 1))) ∧
    (∀ n : Byte, n.toNat ≤ 31 → exec (.queryZone p tag m.number [n]) s =
      .next (u.replied p ((Answer.mk .done 0 ([n] ++ u.zoneReport n.toNat ++ halfBytes (natHalf u.safeFreeBits) ++
        halfBytes (natHalf u.safeFreeWords))).frame tag 0x14 1))) ∧
    (∀ zs : List Byte, zs ≠ [] → zs.length ≤ 8 →
      (∀ n ∈ zs, n.toNat ≤ 31 ∧ (n.toNat = 0 ∨ (s.zone n.toNat).isSome)) →
      (zs.map fun n => if n.toNat = 0 then 218 else (s.zone n.toNat).elim 0 fun r => 10 + r.imageSize).sum ≤ 508 →
      exec (.snapshot p tag m.number zs) s =
        .next (u.replied p ((Answer.mk .done (natHalf zs.length)
          ([natByte zs.length, s.epoch] ++ zs.flatMap fun n => u.sectionOf n.toNat)).frame tag 0x21 1))) ∧
    (∀ refs : List Half, refs ≠ [] → refs.length ≤ 32 →
      (∀ h ∈ refs, (h.getLsbD 15 = false → h.toNat < 4096) ∧ (h.getLsbD 15 = true → h.toNat - 32768 < 1024)) →
      exec (.readPoints p tag m.number (refs.flatMap halfBytes)) s =
        .next (u.replied p ((Answer.mk .done (natHalf refs.length) (refs.flatMap fun h =>
          if h.getLsbD 15 then
            natByte (u.wordHolder (h.toNat - 32768)).number :: halfBytes (u.word (h.toNat - 32768))
          else
            [natByte (u.bitHolder h.toNat).number, 0, if u.bit h.toNat then 1 else 0])).frame tag 0x22 1))) ∧
    (exec (.queryTokens p tag m.number []) s =
      .next (u.replied p ((Answer.mk .done 16 (clockBytes s.clock ++
        (List.range 16).flatMap fun t => (u.token t).report s.clock)).frame tag 0x34 1))) ∧
    (∀ n : Byte, n.toNat ≤ 31 → exec (.queryTimer p tag m.number [n]) s =
      .next (u.replied p ((Answer.mk .done (natHalf n.toNat) (timerReport u.bits (u.timer n.toNat))).frame tag 0x3B 1))) ∧
    exec (.readFaults p tag m.number []) s =
      .next (u.replied p ((Answer.mk .done (natHalf s.faults.length) ([natByte s.faults.length] ++ halfBytes s.overflow ++
        [s.epoch] ++ clockBytes s.clock ++ s.faults.flatMap FaultEntry.report)).frame tag 0x53 1))) ∧
  (∀ (s : State) (z : Nat), z ≠ 0 →
    (s.zone z = none → s.zoneReport z = List.replicate 29 0) ∧
    ∀ r : ZoneRecord, s.zone z = some r →
      let state : Byte := match r.status with | .owned _ => 1 | .vacant => 2 | .handover _ => 3 | .orphaned => 4
      let allocated : Byte := match r.policy with | .substitute image => if image.loaded then 3 else 1 | _ => 0
      let due : Byte := match r.status with | .handover _ => 4 | _ => 0
      s.zoneReport z =
        [state] ++ halfBytes (natHalf r.bitFirst) ++ halfBytes (natHalf r.bitCount) ++ halfBytes (natHalf r.wordFirst) ++
          halfBytes (natHalf r.wordCount) ++
          (match r.status with | .owned owner => owner.port.code :: halfBytes owner.number | _ => [0, 0, 0]) ++
          [match r.standby with | some q => q.code | none => 0, r.delay,
            match r.policy with | .hold => 0 | .clear => 1 | .substitute _ => 2, allocated + due, r.rights.setWidth 8] ++
          halfBytes r.generation ++ [r.tenure] ++ clockBytes r.lastTime ++ [r.lastEpoch] ++
          (match r.status with | .handover d => clockBytes d | _ => [0, 0, 0, 0]) ∧
      s.sectionOf z =
        [natByte z, state, match r.status with | .owned owner => owner.port.code | _ => 0, r.tenure] ++
          halfBytes r.generation ++ halfBytes (natHalf r.bitCount) ++ halfBytes (natHalf r.wordCount) ++
          ((List.range (r.bitCount / 8)).map fun k =>
            let i := r.bitFirst + 8 * k
            BitVec.ofBoolListBE [s.bit i, s.bit (i + 1), s.bit (i + 2), s.bit (i + 3), s.bit (i + 4), s.bit (i + 5),
              s.bit (i + 6), s.bit (i + 7)]) ++
          (List.range r.wordCount).flatMap fun k => halfBytes (s.word (r.wordFirst + k))) ∧
  (∀ s : State, s.sectionOf 0 = [0, 1, 15, 0] ++ halfBytes s.systemZone.generation ++ [0, 128, 0, 96] ++
    ((List.range 16).map fun k =>
      let i := 8 * k
      BitVec.ofBoolListBE [s.bit i, s.bit (i + 1), s.bit (i + 2), s.bit (i + 3), s.bit (i + 4), s.bit (i + 5),
        s.bit (i + 6), s.bit (i + 7)]) ++
    (List.range 96).flatMap fun k => halfBytes (s.word k)) ∧
  (∀ (t : Token) (clock : Clock), t.report clock =
    (match t.hold with | some h => [1, h.holder.port.code] ++ halfBytes h.holder.number | none => [0, 0, 0, 0]) ++
    (match t.hold with | some h => clockBytes h.grantTime | none => [0, 0, 0, 0]) ++ [t.limit] ++
    (match t.hold with
      | some h => (match h.deadline with | some d => clockBytes (d - clock) | none => [0, 0, 0, 0])
      | none => [0, 0, 0, 0]) ++
    [if t.broken then 1 else 0, natByte t.waiters.length] ++
    (List.range 3).flatMap fun i =>
      match t.waiters[i]? with | some w => w.port.code :: halfBytes w.number | none => [0, 0, 0]) ∧
  (∀ bits : Memory Bool, timerReport bits none = [0, 0, 0, 0, 0, 0xFF, 0xFF, 0xFF, 0xFF, 0, 0, 0, 0, 0, 0, 0, 0] ∧
    ∀ a : Armed,
      let kind : Byte := match a.kind with | .delay => 0 | .offDelay => 1 | .retain => 2
      let base : Byte := match a.base with | .ms1 => 0 | .ms10 => 1 | .ms100 => 2
      let phase : Byte := match a.phase with | .idle => 0 | .timing => 1 | .done => 2 | .on => 3 | .holding => 4
      let undefined : Byte := if a.sourceUndefined then 1 else 0
      let source : Byte := if bits.read false a.source then 2 else 0
      let reset : Byte := if a.resetBit.any (fun b => bits.read false b) then 12 else 0
      timerReport bits (some a) =
        [1, kind, base] ++ halfBytes a.preset ++ halfBytes (natHalf a.source) ++
        (match a.resetBit with | some b => halfBytes (natHalf b) | none => [0xFF, 0xFF]) ++ [phase] ++ halfBytes a.count ++
        [if a.done then 1 else 0] ++ (match a.session with | some r => r.port.code :: halfBytes r.number | none => [0, 0, 0]) ++
        [undefined + source + reset]) ∧
  ∀ e : FaultEntry, e.report =
    halfBytes e.number ++ [match e.origin with | .port q => q.code | .part => 15] ++ halfBytes e.originSession ++
      clockBytes e.firstTime ++ [e.firstEpoch] ++ clockBytes e.lastTime ++ [e.lastEpoch, e.repeats,
        e.acknowledged.setWidth 8 + if e.firstOut then 0x80 else 0]

/-- R42, R188: in every state zone 0 is reported OWNED with owner code 15 and owner session 0, bits 0 to 127 and words 0 to
95, no standby, delay 0, policy HOLD, no safe image, no claim rights and tenure 0; only its generation and last write vary.
R43, R70: a system-zone write that changes words alone stores them and changes neither, and no block takes notice of it; one
that changes a bit counts one generation more, from 65535 to 1, and takes the clock and the epoch. The second write is stated
for bits that no timer names: a timer that sees a changed bit may write in its turn (R69, R118). -/
def Obligations.ZoneZeroIsFixed : Prop :=
  (∀ (s : State) (p : Port) (m : Membership) (tag : Byte), s.serves p m →
    ∃ (t : State) (safe : List Byte), exec (.queryZone p tag m.number [0]) s = .next t ∧
      (t.links.get p).reply = some ((Answer.mk .done 0 ([0, 1, 0, 0, 0, 128, 0, 0, 0, 96, 15, 0, 0, 0, 0, 0, 0, 0] ++
        halfBytes t.systemZone.generation ++ [0] ++ clockBytes t.systemZone.lastTime ++ [t.systemZone.lastEpoch] ++
        [0, 0, 0, 0] ++ safe)).frame tag 0x14 1)) ∧
  (∀ (s : State) (w : Points), (∀ b ∈ w.bits, s.bit b.1 = b.2) →
    ∃ words bits, s.writeSystem w = { s with words := words, bits := bits } ∧
      (∀ i, (s.writeSystem w).bit i = s.bit i) ∧
      ∀ i, (s.writeSystem w).word i = ((w.words.reverse.find? fun x => x.1 == i).map Prod.snd).getD (s.word i)) ∧
  ∀ (s : State) (w : Points), (w.bits.map Prod.fst).Nodup → (∃ b ∈ w.bits, s.bit b.1 ≠ b.2) →
    (∀ n a, s.timer n = some a → ∀ b ∈ w.bits, a.source ≠ b.1 ∧ a.resetBit ≠ some b.1) →
    let t := s.writeSystem w
    t.systemZone.generation = (if s.systemZone.generation = 65535 then 1 else s.systemZone.generation + 1) ∧
      t.systemZone.lastTime = s.clock ∧ t.systemZone.lastEpoch = s.epoch ∧
      (∀ b ∈ w.bits, t.bit b.1 = b.2) ∧ ∀ i, (∀ b ∈ w.bits, b.1 ≠ i) → t.bit i = s.bit i

/-! ## Publishing -/

/-- R62 to R69: a PUBLISH whose items are well-formed and name points of the session's own zones alone gives each point
of the definable area the value of the last item that names it, counts each touched zone once, answers their generations,
and fires every CHANGE watch on a touched zone. R68, R163: beside the system zone, whose watches the arrival and the
timers may fire too, a watch fires once where it is a CHANGE watch on a touched zone, a RISE watch whose bit was 0 and is
1 or a FALL watch whose bit was 1 and is 0, by its flag or, once that is set, by its overrun, which stays at 255, with
WATCH pending; and else stands as it was: an OWNERSHIP watch always does. R62, R187: the later clauses write the four
item forms out in bytes, with the points that each names in index order and what reading goes on with; the last reads one
list of one item of each form. -/
def Obligations.PublishStoresAndCounts : Prop :=
  (∀ (s : State) (p : Port) (m : Membership) (tag : Byte) (body : List Byte) (items : List Points), s.serves p m →
    body ≠ [] → readItems body.length 1 body = .ok items →
    (∀ item ∈ items, s.leavesImage item = false ∧ s.notOwned (m.on p) item = false) →
    let bits := items.flatMap Points.bits
    let words := items.flatMap Points.words
    let touched := zoneNumbers.filter fun z =>
      bits.any (fun b => s.bitHolder b.1 == .zone z) || words.any fun w => s.wordHolder w.1 == .zone z
    ∃ t, exec (.publish p tag m.number body) s = .next t ∧
      (∀ i, 128 ≤ i → t.bit i = ((bits.reverse.find? fun b => b.1 == i).map Prod.snd).getD (s.bit i)) ∧
      (∀ i, 96 ≤ i → t.word i = ((words.reverse.find? fun w => w.1 == i).map Prod.snd).getD (s.word i)) ∧
      (∀ z ∈ touched, t.zone z = (s.zone z).map fun r =>
        { r with generation := seqNext r.generation, lastTime := s.clock, lastEpoch := s.epoch }) ∧
      (∀ z, z ∉ touched → t.zone z = s.zone z) ∧
      (∀ q a k w, s.attention.get q = some a → a.slot k = some w → w.kind = .change → w.zone ∈ touched →
        ∃ a' w', t.attention.get q = some a' ∧ a'.slot k = some w' ∧ w'.fired = true ∧ a'.pending.getLsbD 1 = true) ∧
      (∀ q a k w, s.attention.get q = some a → a.slot k = some w →
        (w.kind = .change → w.zone ≠ 0) → (∀ i, w.kind = .rise i ∨ w.kind = .fall i → 128 ≤ i) →
        let fires : Bool := match w.kind with
          | .change => decide (w.zone ∈ touched)
          | .rise i => !s.bit i && t.bit i
          | .fall i => s.bit i && !t.bit i
          | .ownership => false
        ∃ a', t.attention.get q = some a' ∧
          a'.slot k = some (if fires then
            (if w.fired then { w with overrun := if w.overrun = 255 then 255 else w.overrun + 1 }
              else { w with fired := true })
            else w) ∧
          (fires = true → a'.pending.getLsbD 1 = true)) ∧
      (t.links.get p).reply = some ((Answer.mk .done (natHalf touched.length) (touched.flatMap fun z =>
        natByte z :: halfBytes ((s.zone z).elim 0 fun r => seqNext r.generation))).frame tag 0x20 1)) ∧
  (∀ (fuel number : Nat) (first : Half) (rest : List Byte),
    let andThen := fun item : Points => (readItems fuel (number + 1) rest).map (item :: ·)
    (∀ v : Bool, readItems (fuel + 1) number ([1] ++ halfBytes first ++ [if v then 1 else 0] ++ rest) =
      andThen ⟨[(first.toNat, v)], []⟩) ∧
    (∀ values : List Byte, first.toNat % 8 = 0 → 1 ≤ values.length → values.length ≤ 255 →
      readItems (fuel + 1) number ([2] ++ halfBytes first ++ [natByte values.length] ++ values ++ rest) =
        andThen ⟨(List.range (8 * values.length)).map fun i =>
          (first.toNat + i, (values.getD (i / 8) 0).getLsbD (7 - i % 8)), []⟩) ∧
    (∀ value : Half, readItems (fuel + 1) number ([3] ++ halfBytes first ++ halfBytes value ++ rest) =
      andThen ⟨[], [(first.toNat, value)]⟩) ∧
    ∀ values : List Half, 1 ≤ values.length → values.length ≤ 255 →
      readItems (fuel + 1) number ([4] ++ halfBytes first ++ [natByte values.length] ++ values.flatMap halfBytes ++ rest) =
        andThen ⟨[], (List.range values.length).map fun i => (first.toNat + i, values.getD i 0)⟩) ∧
  readItems 22 1 [1, 0, 137, 1, 2, 0, 128, 1, 0xA5, 3, 0, 96, 0x12, 0x34, 4, 0, 97, 2, 0x56, 0x78, 0x9A, 0xBC] =
    .ok [⟨[(137, true)], []⟩,
      ⟨[(128, true), (129, false), (130, true), (131, false), (132, false), (133, true), (134, false), (135, true)], []⟩,
      ⟨[], [(96, 0x1234)]⟩, ⟨[], [(97, 0x5678), (98, 0x9ABC)]⟩]

/-- R63 to R65: a PUBLISH is refused by the first stage that an item fails: form, holding zone, ownership; the detail is the
first such item's number, and nothing is written. R63, R187: the middle clause writes every malformed item out in bytes: one
shorter than four bytes, a code that names no item, a BIT of a value above 1, a BIT_RUN that begins off a multiple of 8, has
no byte or runs past the body, a WORD without its last byte, a WORD_RUN of no value or past the body; as the first item of a
body it gives the detail 1, after a BIT item the detail 2. -/
def Obligations.PublishIsRefusedByStages : Prop :=
  ∀ (s : State) (p : Port) (m : Membership) (tag : Byte) (body : List Byte), s.serves p m →
    (body = [] → exec (.publish p tag m.number body) s = .next (s.refused p m tag .publish .badRequest 0)) ∧
    (∀ n, readItems body.length 1 body = .error n →
      exec (.publish p tag m.number body) s = .next (s.refused p m tag .publish .badRequest n)) ∧
    (∀ bad : List Byte,
      ((bad ≠ [] ∧ bad.length < 4) ∨
        ∃ code hi lo x rest, bad = code :: hi :: lo :: x :: rest ∧
          ((code ≠ 1 ∧ code ≠ 2 ∧ code ≠ 3 ∧ code ≠ 4) ∨ (code = 1 ∧ x ≠ 0 ∧ x ≠ 1) ∨
            (code = 2 ∧ (lo.toNat % 8 ≠ 0 ∨ x = 0 ∨ rest.length < x.toNat)) ∨ (code = 3 ∧ rest = []) ∨
            (code = 4 ∧ (x = 0 ∨ rest.length < 2 * x.toNat)))) →
      exec (.publish p tag m.number bad) s = .next (s.refused p m tag .publish .badRequest 1) ∧
      ∀ (first : Half) (v : Bool),
        exec (.publish p tag m.number ([1] ++ halfBytes first ++ [if v then 1 else 0] ++ bad)) s =
          .next (s.refused p m tag .publish .badRequest 2)) ∧
    ∀ (before after : List Points) (item : Points), readItems body.length 1 body = .ok (before ++ item :: after) →
      (s.leavesImage item = true → (∀ j ∈ before, s.leavesImage j = false) →
        exec (.publish p tag m.number body) s = .next (s.refused p m tag .publish .range (before.length + 1))) ∧
      (s.notOwned (m.on p) item = true → (∀ j ∈ before, s.notOwned (m.on p) j = false) →
        (∀ j ∈ before ++ item :: after, s.leavesImage j = false) →
        exec (.publish p tag m.number body) s = .next (s.refused p m tag .publish .notOwner (before.length + 1)))

/-! ## Ownership -/

/-- R82, R83: a CLAIM refuses a body of another length, a number outside 1 to 31, an UNDEFINED zone and a port without the
right, in that order; one with the right is decided by the zone's state. -/
def Obligations.ClaimIsDecidedByTheZonesState : Prop :=
  ∀ (s : State) (p : Port) (m : Membership) (tag : Byte), s.serves p m →
    (∀ body : List Byte, body.length ≠ 1 →
      exec (.claim p tag m.number body) s = .next (s.refused p m tag .claim .badRequest 0)) ∧
    ∀ n : Byte,
      (n.toNat = 0 ∨ 31 < n.toNat → exec (.claim p tag m.number [n]) s = .next (s.refused p m tag .claim .range 1)) ∧
      (1 ≤ n.toNat → n.toNat ≤ 31 → s.zone n.toNat = none →
        exec (.claim p tag m.number [n]) s = .next (s.refused p m tag .claim .notFound 0)) ∧
      ∀ r, 1 ≤ n.toNat → n.toNat ≤ 31 → s.zone n.toNat = some r →
        (portIn p r.rights = false →
          exec (.claim p tag m.number [n]) s = .next (s.refused p m tag .claim .notPermitted 0)) ∧
        (portIn p r.rights = true →
          let z := n.toNat
          let u := s.qualify p m.number
          let taken := { r with
            status := .owned (m.on p)
            tenure := r.tenure + 1
            standby := if r.standby = some p then none else r.standby }
          let done := (Answer.mk .done 0 ((r.tenure + 1) :: halfBytes r.generation)).frame tag 0x28 1
          let noticed := (u.setZone z (some taken)).fireOwnership [z]
          (r.status = .vacant → exec (.claim p tag m.number [n]) s =
            .next ((noticed.raise .zone (.zone z) p).replied p done)) ∧
          (r.status = .orphaned → exec (.claim p tag m.number [n]) s =
            .next (((noticed.writeSystem ⟨[(64 + z, false)], []⟩).raise .zone (.zone z) p).replied p done)) ∧
          (∀ d, r.status = .handover d → r.standby = some p → exec (.claim p tag m.number [n]) s =
            .next (((noticed.writeSystem ⟨[(96 + z, false)], []⟩).raise .zone (.zone z) p).replied p done)) ∧
          (∀ d, r.status = .handover d → r.standby ≠ some p → exec (.claim p tag m.number [n]) s =
            .next (s.refused p m tag .claim .handoverPending (optPortCode r.standby).toNat)) ∧
          (r.status = .owned (m.on p) → exec (.claim p tag m.number [n]) s =
            .next (u.replied p ((Answer.mk .done 1 (r.tenure :: halfBytes r.generation)).frame tag 0x28 1))) ∧
          (∀ owner, r.status = .owned owner → owner ≠ m.on p → exec (.claim p tag m.number [n]) s =
            .next (s.refused p m tag .claim .zoneState owner.port.code.toNat)))

/-- R84: RELEASE, with each of its refusals. A RELEASE that passes makes the zone VACANT with the tenure one up, forms an
ownership notice, raises ZONE for every other session whose port is in the claim rights, and writes no point. -/
def Obligations.ReleaseMakesTheZoneVacant : Prop :=
  Kind.release.fencedOff ∧
  ∀ (s : State) (p : Port) (m : Membership) (tag : Byte), s.serves p m →
    (∀ body : List Byte, body.length ≠ 1 →
      exec (.release p tag m.number body) s = .next (s.refused p m tag .release .badRequest 0)) ∧
    (∀ n : Byte, n.toNat = 0 ∨ 31 < n.toNat →
      exec (.release p tag m.number [n]) s = .next (s.refused p m tag .release .range 1)) ∧
    (∀ n : Byte, 1 ≤ n.toNat → n.toNat ≤ 31 → s.zone n.toNat = none →
      exec (.release p tag m.number [n]) s = .next (s.refused p m tag .release .notFound 0)) ∧
    ∀ (n : Byte) (r : ZoneRecord), 1 ≤ n.toNat → n.toNat ≤ 31 → s.zone n.toNat = some r →
      (r.status ≠ .owned (m.on p) →
        exec (.release p tag m.number [n]) s = .next (s.refused p m tag .release .notOwner 0)) ∧
      (r.status = .owned (m.on p) →
        exec (.release p tag m.number [n]) s =
          .next (((((s.qualify p m.number).setZone n.toNat (some { r with status := .vacant, tenure := r.tenure + 1 })
              ).fireOwnership [n.toNat]).raiseFor .zone (.zone n.toNat)
                ((portsOf r.rights).filter fun q => q != p)).replied p ((Answer.mk .done 0 []).frame tag 0x29 1)))

/-- R85: HAND_OVER makes its eight checks in the order of R85, the first that fails giving the outcome. R86: one that passes
makes the zone OWNED by the target's session, drops the standby where it is the target, forms an ownership notice, raises ZONE
for the target, and writes no point. -/
def Obligations.HandOverPassesTheZone : Prop :=
  ∀ (s : State) (p : Port) (m : Membership) (tag : Byte), s.serves p m →
    let refusedWith := fun (body : List Byte) (o : ReplyOutcome) (detail : Nat) =>
      exec (.handOver p tag m.number body) s = .next (s.refused p m tag .handOver o detail)
    (∀ body : List Byte, body.length ≠ 2 → refusedWith body .badRequest 0) ∧
    (∀ n code : Byte, code.toNat = 0 ∨ 4 < code.toNat → refusedWith [n, code] .badRequest 1) ∧
    ∀ (n : Byte) (q : Port),
      (n.toNat = 0 ∨ 31 < n.toNat → refusedWith [n, q.code] .range 1) ∧
      (1 ≤ n.toNat → n.toNat ≤ 31 →
        (s.zone n.toNat = none → refusedWith [n, q.code] .notFound 0) ∧
        ∀ r, s.zone n.toNat = some r →
          (r.status ≠ .owned (m.on p) → refusedWith [n, q.code] .notOwner 0) ∧
          (r.status = .owned (m.on p) →
            (portIn q r.rights = false → refusedWith [n, q.code] .notPermitted 1) ∧
            (portIn q r.rights = true → q = p → refusedWith [n, q.code] .notPermitted 2) ∧
            (portIn q r.rights = true → q ≠ p → (∀ target, s.ports.get q ≠ .online target) →
              refusedWith [n, q.code] .notPermitted 3) ∧
            ∀ target, portIn q r.rights = true → q ≠ p → s.ports.get q = .online target →
              exec (.handOver p tag m.number [n, q.code]) s =
                .next (((((s.qualify p m.number).setZone n.toNat (some { r with
                    status := .owned (target.on q)
                    tenure := r.tenure + 1
                    standby := if r.standby = some q then none else r.standby })).fireOwnership [n.toNat]).raise .zone
                      (.zone n.toNat) q).replied p ((Answer.mk .done 0 []).frame tag 0x2A 1))))

/-- R93, R97: the takeover deadline of a zone in HANDOVER reached (entry 3): the zone passes to a standby that is ONLINE;
otherwise it is ORPHANED, the standby and the tenure kept, with its bits and fault 4032+z (entered, or dropped by a full
list). Nothing happens where the clock stands at no such deadline (entry 2). -/
def Obligations.TakeoverDeadlineActsOnTheStandby : Prop :=
  ∀ (s : State) (z : Nat), 1 ≤ z → z ≤ 31 →
    (∀ r d q mq, s.zone z = some r → r.status = .handover d → d = s.clock → r.standby = some q →
      s.ports.get q = .online mq →
      exec (.takeoverDeadlineExpiry z) s =
        .next ((((s.setZone z (some { r with status := .owned (mq.on q), tenure := r.tenure + 1, standby := none })
            ).fireOwnership [z]).writeSystem ⟨[(96 + z, false)], []⟩).raise .zone (.zone z) q)) ∧
    (∀ r d, s.zone z = some r → r.status = .handover d → d = s.clock →
      (∀ q mq, r.standby = some q → s.ports.get q ≠ .online mq) →
      ∃ t, exec (.takeoverDeadlineExpiry z) s = .next t ∧
        t.zone z = some { r with status := .orphaned } ∧ (∀ z', z' ≠ z → t.zone z' = s.zone z') ∧
        t.bit (64 + z) = true ∧ t.bit (96 + z) = false ∧
        (t.hasFault (natHalf (4032 + z)) = true ∨ 16 ≤ t.faults.length) ∧
        (∀ q, portIn q r.rights = true → (t.attention.get q).map (fun a => (a.pending &&& 8, a.zones)) =
          (s.attention.get q).map fun a => (8, a.zones ||| (1#32 <<< z))) ∧
        (∀ i, 128 ≤ i → t.bit i = s.bit i) ∧ t.ports = s.ports ∧ t.tokens = s.tokens ∧ t.exchange = s.exchange) ∧
    ((∀ r d, s.zone z = some r → r.status = .handover d → d ≠ s.clock) →
      exec (.takeoverDeadlineExpiry z) s = .next s)

/-- R88, R90: what the loss of its owner, LOST or REPLACED, leaves of a zone, whatever else the same event writes and in
whatever order (entry 5). The loss policy is applied: HOLD keeps the points and the record, CLEAR and SUBSTITUTE write the
points (0, or the loaded safe image) and count one write. The tenure rises by 1. A standby that is ONLINE takes the zone at
once for a delay of 0; for another delay the zone is in HANDOVER until the clock has advanced by the delay times 10 ms. With
no such standby it is ORPHANED, fault 4032+z is raised (entered, or dropped by a full list) and the claim-rights sessions are
told. Bits 64+z and 96+z follow. The laws of the zone table (R41, R48) are premises. -/
def Obligations.LostOwnersClearZoneReadsZero : Prop :=
  ∀ (s : State) (p : Port) (m : Membership) (c : Instr) (z : Nat) (r : ZoneRecord),
    ((c = .monitorSecondExpiry p ∧ s.ports.get p = .late m ∧ m.deadline = s.clock) ∨
      (s.serves p m ∧ ∃ tag session time, time ≠ 0 ∧ c = .join p tag session [0, time])) →
    s.zonesInArea → s.zonesApart → s.zone z = some r → r.status = .owned (m.on p) →
    let counted := r.policyApplied s.clock s.epoch
    ∃ t, exec c s = .next t ∧ r.policyLeaves s t ∧
      (∀ q mq, q ≠ p → r.standby = some q → s.ports.get q = .online mq → s.zoneTold t z q ∧
        t.bit (64 + z) = s.bit (64 + z) ∧
        (r.delay = 0 →
          t.zone z = some { counted with status := .owned (mq.on q), tenure := r.tenure + 1, standby := none } ∧
          t.bit (96 + z) = s.bit (96 + z)) ∧
        (r.delay ≠ 0 →
          t.zone z = some { counted with
            status := .handover (s.clock + BitVec.ofNat 32 (r.delay.toNat * 10)), tenure := r.tenure + 1 } ∧
          t.bit (96 + z) = true)) ∧
      ((∀ q mq, q ≠ p → r.standby = some q → s.ports.get q ≠ .online mq) →
        t.zone z = some { counted with status := .orphaned, tenure := r.tenure + 1 } ∧
        t.bit (64 + z) = true ∧ t.bit (96 + z) = s.bit (96 + z) ∧
        (t.hasFault (natHalf (4032 + z)) = true ∨ 16 ≤ t.faults.length) ∧
        ∀ q, q ≠ p → portIn q r.rights = true → s.zoneTold t z q)

/-! ## Tokens -/

/-- R103, R105: ACQUIRE is fenced and checks its body, its mode and the number; one that passes is decided by the token's
state: a FREE token is granted in either mode, with its broken flag reported and cleared and its points written; a held one is
refused, or the session is put at the tail of its wait list. R106: the last clause writes out the check on a session that
asks to wait, under the laws of the tokens (R100, R101), which each step keeps: one that already waits is refused with the
token it waits for; where the holder waits, over whatever number of links, for a token that the requester holds, the refusal
is DEADLOCK with that token; where it does not, the session is queued. -/
def Obligations.AcquireIsDecidedByTheTokensState : Prop :=
  Kind.acquire.fencedOff ∧
  ∀ (s : State) (p : Port) (m : Membership) (tag : Byte), s.serves p m →
    (∀ body : List Byte, body.length ≠ 2 →
      exec (.acquire p tag m.number body) s = .next (s.refused p m tag .acquire .badRequest 0)) ∧
    (∀ n mode : Byte, 1 < mode.toNat →
      exec (.acquire p tag m.number [n, mode]) s = .next (s.refused p m tag .acquire .badRequest 1)) ∧
    (∀ n mode : Byte, mode.toNat ≤ 1 → 15 < n.toNat →
      exec (.acquire p tag m.number [n, mode]) s = .next (s.refused p m tag .acquire .range 1)) ∧
    ∀ n : Byte, n.toNat ≤ 15 →
    let t := n.toNat
    let u := s.qualify p m.number
    let k := s.token t
    (∀ mode : Byte, mode = 0 ∨ mode = 1 → k.hold = none → exec (.acquire p tag m.number [n, mode]) s =
      .next (((u.setToken t { k with
          hold := some ⟨m.on p, s.clock,
            if k.limit = 0 then none else some (s.clock + BitVec.ofNat 32 (k.limit.toNat * 100))⟩
          broken := false }).writeSystem ⟨[(32 + t, true)], [(32 + t, p.code.setWidth 16)]⟩).replied p
        ((Answer.mk .done (if k.broken then 1 else 0) []).frame tag 0x30 1))) ∧
    (∀ (mode : Byte) (h : Hold), mode = 0 ∨ mode = 1 → k.hold = some h → h.holder = m.on p →
      exec (.acquire p tag m.number [n, mode]) s = .next (s.refused p m tag .acquire .alreadyHeld 0)) ∧
    ∀ h : Hold, k.hold = some h → h.holder ≠ m.on p →
      (exec (.acquire p tag m.number [n, 1]) s =
        .next (s.refused p m tag .acquire .tokenHeld h.holder.port.code.toNat)) ∧
      (∀ w, s.waitsFor p = some w → exec (.acquire p tag m.number [n, 0]) s =
        .next (s.refused p m tag .acquire .alreadyWaiting w)) ∧
      (∀ d, s.waitsFor p = none → s.deadlock p 4 h.holder.port = some d → exec (.acquire p tag m.number [n, 0]) s =
        .next (s.refused p m tag .acquire .deadlock d)) ∧
      (s.waitsFor p = none → s.deadlock p 4 h.holder.port = none → exec (.acquire p tag m.number [n, 0]) s =
        .next ((u.setToken t { k with waiters := k.waiters ++ [m.on p] }).replied p
          ((Answer.mk .queued (natHalf (k.waiters.length + 1)) []).frame tag 0x30 1))) ∧
      (s.tokensLawful →
        (∀ d < 16, ∀ w ∈ (s.token d).waiters, w.port = p → exec (.acquire p tag m.number [n, 0]) s =
          .next (s.refused p m tag .acquire .alreadyWaiting d)) ∧
        ((∀ d < 16, ∀ w ∈ (s.token d).waiters, w.port ≠ p) →
          (∀ (d : Nat) (last : Port) (g : Hold), d < 16 → Relation.ReflTransGen s.waitsOn h.holder.port last →
            (∃ w ∈ (s.token d).waiters, w.port = last) → (s.token d).hold = some g → g.holder.port = p →
            exec (.acquire p tag m.number [n, 0]) s = .next (s.refused p m tag .acquire .deadlock d)) ∧
          (¬ Relation.TransGen s.waitsOn h.holder.port p → exec (.acquire p tag m.number [n, 0]) s =
            .next ((u.setToken t { k with waiters := k.waiters ++ [m.on p] }).replied p
              ((Answer.mk .queued (natHalf (k.waiters.length + 1)) []).frame tag 0x30 1)))))

/-- R103, R104, R107: RELEASE_TOKEN is fenced and checks its body and the number; by the holder it passes the token to the
head of its wait list, with TOKEN attention and its points, or leaves it FREE; by another session it is refused NOT_HOLDER.
That the head is another session is R101's law. -/
def Obligations.ReleaseTokenPassesToTheHead : Prop :=
  Kind.releaseToken.fencedOff ∧
  ∀ (s : State) (p : Port) (m : Membership) (tag : Byte), s.serves p m →
    (∀ body : List Byte, body.length ≠ 1 →
      exec (.releaseToken p tag m.number body) s = .next (s.refused p m tag .releaseToken .badRequest 0)) ∧
    (∀ n : Byte, 15 < n.toNat →
      exec (.releaseToken p tag m.number [n]) s = .next (s.refused p m tag .releaseToken .range 1)) ∧
    ∀ n : Byte, n.toNat ≤ 15 →
    let t := n.toNat
    let u := s.qualify p m.number
    let k := s.token t
    (∀ h w rest, k.hold = some h → h.holder = m.on p → k.waiters = w :: rest → w ≠ m.on p →
      exec (.releaseToken p tag m.number [n]) s =
        .next ((((u.setToken t { k with
            hold := some ⟨w, s.clock,
              if k.limit = 0 then none else some (s.clock + BitVec.ofNat 32 (k.limit.toNat * 100))⟩
            waiters := rest
            broken := false }).writeSystem ⟨[(32 + t, true)], [(32 + t, w.port.code.setWidth 16)]⟩).raise .token
              (.granted t) w.port).replied p ((Answer.mk .done (natHalf w.port.code.toNat) []).frame tag 0x31 1))) ∧
    (∀ h, k.hold = some h → h.holder = m.on p → k.waiters = [] →
      exec (.releaseToken p tag m.number [n]) s =
        .next (((u.setToken t { k with hold := none, broken := false }).writeSystem
          ⟨[(32 + t, false)], [(32 + t, 0)]⟩).replied p ((Answer.mk .done 0 []).frame tag 0x31 1))) ∧
    (∀ h, k.hold = some h → h.holder ≠ m.on p → exec (.releaseToken p tag m.number [n]) s =
      .next (s.refused p m tag .releaseToken .notHolder h.holder.port.code.toNat)) ∧
    (k.hold = none → exec (.releaseToken p tag m.number [n]) s =
      .next (s.refused p m tag .releaseToken .notHolder 0))

/-- R108: CANCEL_WAIT is fenced and refuses a body; a session in no wait list is refused NOT_FOUND; else its entry leaves,
the entries behind it move up, the holder stays, and no point is written and no attention raised. That a port stands in one
wait list alone is R101's law. -/
def Obligations.CancelWaitLeavesTheList : Prop :=
  Kind.cancelWait.fencedOff ∧
  ∀ (s : State) (p : Port) (m : Membership) (tag : Byte), s.serves p m →
    (∀ body : List Byte, body ≠ [] →
      exec (.cancelWait p tag m.number body) s = .next (s.refused p m tag .cancelWait .badRequest 0)) ∧
    ((∀ t < 16, ∀ w ∈ (s.token t).waiters, w.port ≠ p) →
      exec (.cancelWait p tag m.number []) s = .next (s.refused p m tag .cancelWait .notFound 0)) ∧
    ∀ (t : Nat) (before behind : List SessionRef), t < 16 → (s.token t).waiters = before ++ m.on p :: behind →
      (∀ w ∈ before ++ behind, w.port ≠ p) → (∀ t' < 16, t' ≠ t → ∀ w ∈ (s.token t').waiters, w.port ≠ p) →
      exec (.cancelWait p tag m.number []) s =
        .next (((s.qualify p m.number).setToken t { s.token t with waiters := before ++ behind }).replied p
          ((Answer.mk .done (natHalf t) []).frame tag 0x32 1))

/-- R109: SET_TOKEN_LIMIT is fenced and checks its body and the number; one that passes replaces the limit alone, so that a
hold in progress keeps its deadline or its want of one, and answers the old limit. -/
def Obligations.SetTokenLimitKeepsTheHold : Prop :=
  Kind.setTokenLimit.fencedOff ∧
  ∀ (s : State) (p : Port) (m : Membership) (tag : Byte), s.serves p m →
    (∀ body : List Byte, body.length ≠ 2 →
      exec (.setTokenLimit p tag m.number body) s = .next (s.refused p m tag .setTokenLimit .badRequest 0)) ∧
    (∀ n limit : Byte, 15 < n.toNat →
      exec (.setTokenLimit p tag m.number [n, limit]) s = .next (s.refused p m tag .setTokenLimit .range 1)) ∧
    ∀ n limit : Byte, n.toNat ≤ 15 →
      exec (.setTokenLimit p tag m.number [n, limit]) s =
        .next (((s.qualify p m.number).setToken n.toNat { s.token n.toNat with limit := limit }).replied p
          ((Answer.mk .done (natHalf (s.token n.toNat).limit.toNat) []).frame tag 0x33 1))

/-- R111: the hold deadline of a token reached (entry 3): the holder is told that it is revoked, the token passes to the head
with its broken value, or is FREE with its broken flag set; its points are written and fault 4064+t raised (entered, or dropped
by a full list). Nothing happens where the clock stands at no such deadline (entry 2). That the head is another
session on another port is R101's law. -/
def Obligations.HoldDeadlineRevokesTheToken : Prop :=
  ∀ (s : State) (n : Nat), n < 16 →
    (∀ h d, (s.token n).hold = some h → h.deadline = some d → d = s.clock →
      (∀ w ∈ (s.token n).waiters, w.port ≠ h.holder.port) →
      ∃ t, exec (.holdDeadlineExpiry n) s = .next t ∧
        (t.attention.get h.holder.port).map (fun a => (a.pending &&& 4, a.revoked)) =
          ((s.attention.get h.holder.port).map fun a => (4, a.revoked ||| (1#16 <<< n))) ∧
        (t.hasFault (natHalf (4064 + n)) = true ∨ 16 ≤ t.faults.length) ∧
        (∀ n', n' ≠ n → t.token n' = s.token n') ∧
        (∀ w rest, (s.token n).waiters = w :: rest →
          t.token n = { s.token n with
            hold := some ⟨w, s.clock,
              if (s.token n).limit = 0 then none
              else some (s.clock + BitVec.ofNat 32 ((s.token n).limit.toNat * 100))⟩
            waiters := rest
            broken := false } ∧
          t.bit (32 + n) = true ∧ t.word (32 + n) = w.port.code.setWidth 16 ∧
          (t.attention.get w.port).map (fun a => (a.pending &&& 4, a.grantedBroken)) =
            ((s.attention.get w.port).map fun a => (4, a.grantedBroken ||| (1#16 <<< n)))) ∧
        ((s.token n).waiters = [] →
          t.token n = { s.token n with hold := none, broken := true } ∧
          t.bit (32 + n) = false ∧ t.word (32 + n) = 0) ∧
        (∀ z, t.zone z = s.zone z) ∧ t.ports = s.ports ∧ t.exchange = s.exchange ∧ t.links = s.links) ∧
    ((∀ h d, (s.token n).hold = some h → h.deadline = some d → d ≠ s.clock) →
      exec (.holdDeadlineExpiry n) s = .next s)

/-! ## Timers -/

/-- R126: SET_TIMER makes its ten checks in the order of R126, the first that fails giving the outcome and changing nothing. A
bit has a holding zone where it is a bit of the system zone or of a defined zone. R127: one that passes arms the timer with the
requested settings for the requesting session, its source-undefined flag clear, and answers the done value, which is 1 for an
OFF_DELAY timer alone, on a source that reads 1. A timer that shows no count and no done before and none after starts in its
phase without any write. -/
def Obligations.SetTimerArmsTheTimer : Prop :=
  ∀ (s : State) (p : Port) (m : Membership) (tag : Byte), s.serves p m →
    let refusedWith := fun (body : List Byte) (o : ReplyOutcome) (detail : Nat) =>
      exec (.setTimer p tag m.number body) s = .next (s.refused p m tag .setTimer o detail)
    (∀ body : List Byte, body.length ≠ 9 → refusedWith body .badRequest 0) ∧
    (∀ (n kindByte baseByte : Byte) (preset source reset : Half), 2 < kindByte.toNat ∨ 2 < baseByte.toNat →
      refusedWith ([n, kindByte, baseByte] ++ halfBytes preset ++ halfBytes source ++ halfBytes reset) .badRequest 1) ∧
    ∀ (n : Byte) (preset source reset : Half) (kind : TimerKind) (base : Base),
      let u := s.qualify p m.number
      let body : List Byte := [n, match kind with | .delay => 0 | .offDelay => 1 | .retain => 2,
        match base with | .ms1 => 0 | .ms10 => 1 | .ms100 => 2] ++ halfBytes preset ++ halfBytes source ++ halfBytes reset
      let usable := fun b : Nat =>
        b < 128 ∨ (b < 4096 ∧ ∃ z r, 1 ≤ z ∧ z ≤ 31 ∧ s.zone z = some r ∧ r.hasBit b = true)
      let offDelayDone := fun b : Nat =>
        (b = n.toNat ∧ kind = .offDelay) ∨ (b ≠ n.toNat ∧ b < 32 ∧ ∃ a, s.timer b = some a ∧ a.kind = .offDelay)
      let resetElsewhere := ∃ k a, k < 32 ∧ k ≠ n.toNat ∧ s.timer k = some a ∧ a.resetBit = some n.toNat
      let resetBit := if reset = 0xFFFF then none else some reset.toNat
      let held := resetBit.any fun b => u.bit b
      let rises := !held && u.bit source.toNat
      let done := rises && kind == .offDelay
      (reset ≠ 0xFFFF → reset = source → refusedWith body .badRequest 2) ∧
      (reset = 0xFFFF ∨ reset ≠ source →
        (31 < n.toNat → refusedWith body .range 1) ∧
        (n.toNat ≤ 31 →
          (preset.toNat = 0 ∨ 30000 < preset.toNat → refusedWith body .range 2) ∧
          (1 ≤ preset.toNat → preset.toNat ≤ 30000 →
            (¬ usable source.toNat → refusedWith body .range 3) ∧
            (usable source.toNat →
              (reset ≠ 0xFFFF → ¬ usable reset.toNat → refusedWith body .range 4) ∧
              ((reset ≠ 0xFFFF → usable reset.toNat) →
                (∀ a other, s.timer n.toNat = some a → a.session = some other → other ≠ m.on p →
                  refusedWith body .timerBusy other.port.code.toNat) ∧
                ((∀ a other, s.timer n.toNat = some a → a.session = some other → other = m.on p) →
                  (reset ≠ 0xFFFF → offDelayDone reset.toNat → refusedWith body .notPermitted 1) ∧
                  ((reset ≠ 0xFFFF → ¬ offDelayDone reset.toNat) →
                    (kind = .offDelay → resetElsewhere → refusedWith body .notPermitted 2) ∧
                    ((kind = .offDelay → ¬ resetElsewhere) →
                      (∃ t, exec (.setTimer p tag m.number body) s = .next t ∧
                        (t.timer n.toNat).map Armed.settings =
                          some (kind, source.toNat, resetBit, base, preset, some (m.on p), false) ∧
                        (t.links.get p).reply = some ((Answer.mk .done (if done then 1 else 0) []).frame tag 0x38 1)) ∧
                      (done = false → timerDone (u.timer n.toNat) = false → timerCount (u.timer n.toNat) = 0 →
                        exec (.setTimer p tag m.number body) s =
                          .next ((u.setTimer n.toNat (some {
                            kind := kind
                            source := source.toNat
                            resetBit := resetBit
                            base := base
                            preset := preset
                            count := 0
                            done := false
                            phase := if rises then .timing else if kind = .retain then .holding else .idle
                            timingSince := if rises then s.clock else 0
                            session := some (m.on p)
                            sourceUndefined := false })).replied p ((Answer.mk .done 0 []).frame tag 0x38 1)))))))))))

/-- R128, R129: RESET_TIMER and FREE_TIMER are fenced and check their body and the number; each is refused TIMER_BUSY for a
timer attached to another session. RESET_TIMER, whatever count, done value and phase the timer stands in, sets the count to 0
and gives done and phase by R127's evaluation of its bits: held, or a source rise, or the starting phase; it keeps the settings,
writes bit n and word n where they change (R118) and answers the done value. FREE_TIMER frees the timer, writes 0 where they
were not 0 and answers 0, or 1 where it was FREE. The record after the command is stated for a timer that names no done bit:
one that names a done bit may be reached by the notice of the write (R69). That the points show the timers is R118's law
(`showsTimers`). -/
def Obligations.ResetAndFreeTimer : Prop :=
  Kind.resetTimer.fencedOff ∧ Kind.freeTimer.fencedOff ∧
  ∀ (s : State) (p : Port) (m : Membership) (tag : Byte), s.serves p m →
    (∀ body : List Byte, body.length ≠ 1 →
      exec (.resetTimer p tag m.number body) s = .next (s.refused p m tag .resetTimer .badRequest 0) ∧
      exec (.freeTimer p tag m.number body) s = .next (s.refused p m tag .freeTimer .badRequest 0)) ∧
    (∀ n : Byte, 31 < n.toNat →
      exec (.resetTimer p tag m.number [n]) s = .next (s.refused p m tag .resetTimer .range 1) ∧
      exec (.freeTimer p tag m.number [n]) s = .next (s.refused p m tag .freeTimer .range 1)) ∧
    ∀ n : Byte, n.toNat ≤ 31 →
    let u := s.qualify p m.number
    let k := n.toNat
    (∀ a : Armed, u.timer k = some a → (a.session = none ∨ a.session = some (m.on p)) →
      let rises := !(a.resetBit.any fun b => u.bit b) && u.bit a.source
      let e : Armed := { a with
        count := 0
        done := rises && a.kind == .offDelay
        phase :=
          if rises then (if a.kind = .offDelay then .on else .timing) else if a.kind = .retain then .holding else .idle
        timingSince := if rises && a.kind != .offDelay then s.clock else a.timingSince }
      exec (.resetTimer p tag m.number [n]) s =
        .next ((if a.count = 0 ∧ a.done = e.done then u.setTimer k (some e)
          else (u.setTimer k (some e)).writeSystem ⟨[(k, e.done)], [(k, 0)]⟩).replied p
            ((Answer.mk .done (if e.done then 1 else 0) []).frame tag 0x39 1)) ∧
      exec (.freeTimer p tag m.number [n]) s =
        .next ((if a.count = 0 ∧ a.done = false then u.setTimer k none
          else (u.setTimer k none).writeSystem ⟨[(k, false)], [(k, 0)]⟩).replied p
            ((Answer.mk .done 0 []).frame tag 0x3A 1)) ∧
      (∃ t, exec (.resetTimer p tag m.number [n]) s = .next t ∧
        (∀ i, (t.timer i).map Armed.settings = (u.timer i).map Armed.settings) ∧
        (u.showsTimers → t.bit k = timerDone (t.timer k) ∧ t.word k = timerCount (t.timer k)) ∧
        (32 ≤ a.source → (∀ b, a.resetBit = some b → 32 ≤ b) →
          t.timer k = some e ∧ (u.showsTimers → t.bit k = e.done ∧ t.word k = 0))) ∧
      ∃ t, exec (.freeTimer p tag m.number [n]) s = .next t ∧ t.timer k = none ∧
        (∀ i, i ≠ k → (t.timer i).map Armed.settings = (u.timer i).map Armed.settings) ∧
        (u.showsTimers → t.bit k = false ∧ t.word k = 0)) ∧
    (s.timer k = none →
      exec (.resetTimer p tag m.number [n]) s = .next (s.refused p m tag .resetTimer .notFound 0) ∧
      exec (.freeTimer p tag m.number [n]) s = .next (u.replied p ((Answer.mk .done 1 []).frame tag 0x3A 1))) ∧
    ∀ a other, s.timer k = some a → a.session = some other → other ≠ m.on p →
      exec (.resetTimer p tag m.number [n]) s = .next (s.refused p m tag .resetTimer .timerBusy other.port.code.toNat) ∧
      exec (.freeTimer p tag m.number [n]) s = .next (s.refused p m tag .freeTimer .timerBusy other.port.code.toNat)

/-- R119 to R122: the tick event of a clock value (entry 4) counts each timer in TIMING that is not held, whose base divides
the value and that did not enter TIMING at it. Where none of them reaches its preset, every other timer stands and the words
show the counts; a timer that reaches it ends its phase, and shows so, where no timer's done bit is its source or reset bit.
R120 to R124: the last clause gives a timer's record after the edges that a PUBLISH of an ONLINE port makes on its source bit
and its reset bit, by its kind and phase, in one event; the points follow (R118). It is stated for a timer that names no done
bit, which the notices of the timer array's own writes do not reach. -/
def Obligations.TickCountsTheTimingTimers : Prop :=
  (∀ s : State,
    (s.tickDue = false → exec .timerTick s = .next s) ∧
    (s.tickDue = true →
      let ticks := fun a : Armed => s.clock.toNat % a.base.ms = 0 ∧ a.phase = .timing ∧
        (∀ b, a.resetBit = some b → s.bit b = false) ∧ a.timingSince ≠ s.clock
      (∃ t, exec .timerTick s = .next t ∧ t.tickDue = false ∧ t.clock = s.clock ∧
        ∀ n, (t.timer n).map Armed.settings = (s.timer n).map Armed.settings) ∧
      (s.showsTimers → (∀ n a, n < 32 → s.timer n = some a → ticks a → (a.count + 1).toNat < a.preset.toNat) →
        ∃ t, exec .timerTick s = .next t ∧
          ∀ n, n < 32 →
            (s.timer n = none → t.timer n = none) ∧
            (∀ a, s.timer n = some a → ticks a →
              t.timer n = some { a with count := a.count + 1 } ∧ t.word n = a.count + 1 ∧ t.bit n = s.bit n) ∧
            ∀ a, s.timer n = some a → ¬ ticks a → t.timer n = some a ∧ t.word n = s.word n ∧ t.bit n = s.bit n) ∧
      ∀ n a, n < 32 → s.timer n = some a → ticks a → a.count + 1 = a.preset → 32 ≤ a.source →
        (∀ b, a.resetBit = some b → 32 ≤ b) →
        ∃ t, exec .timerTick s = .next t ∧
          t.timer n = some { a with
            count := a.preset
            done := a.kind != .offDelay
            phase := if a.kind = .offDelay then .idle else .done } ∧
          t.bit n = (a.kind != .offDelay) ∧ t.word n = a.preset)) ∧
  ∀ (s : State) (p : Port) (m : Membership) (tag : Byte) (body : List Byte) (items : List Points), s.hears p →
    s.ports.get p = .online m → body ≠ [] → readItems body.length 1 body = .ok items →
    (∀ item ∈ items, s.leavesImage item = false ∧ s.notOwned (m.on p) item = false) →
    let after := fun i => (((items.flatMap Points.bits).reverse.find? fun b => b.1 == i).map Prod.snd).getD (s.bit i)
    let rise : Armed → Armed := fun a =>
      match a.kind, a.phase with
      | .delay, .idle => { a with phase := .timing, count := 0, done := false, timingSince := s.clock }
      | .offDelay, .idle => { a with phase := .on, count := 0, done := true }
      | .offDelay, .timing => { a with phase := .on, count := 0, done := true }
      | .retain, .holding => { a with phase := .timing, timingSince := s.clock }
      | _, _ => a
    let fall : Armed → Armed := fun a =>
      match a.kind, a.phase with
      | .delay, .timing => { a with phase := .idle, count := 0, done := false }
      | .delay, .done => { a with phase := .idle, count := 0, done := false }
      | .offDelay, .on => { a with phase := .timing, count := 0, done := true, timingSince := s.clock }
      | .retain, .timing => { a with phase := .holding }
      | _, _ => a
    ∃ t, exec (.publish p tag m.number body) s = .next t ∧
      (s.showsTimers → ∀ n, n < 32 → t.bit n = timerDone (t.timer n) ∧ t.word n = timerCount (t.timer n)) ∧
      (∀ n, s.timer n = none → t.timer n = none) ∧
      ∀ n a, s.timer n = some a → 32 ≤ a.source → (∀ b, a.resetBit = some b → 32 ≤ b) →
        let held : Armed := { a with count := 0, done := false, phase := if a.kind = .retain then .holding else .idle }
        (∀ b, a.resetBit = some b →
          (s.bit b = false → after b = true → t.timer n = some held) ∧
          (s.bit b = true → after b = false →
            t.timer n = some (if after a.source then rise held else held)) ∧
          (s.bit b = true → after b = true → t.timer n = some a)) ∧
        ((∀ b, a.resetBit = some b → s.bit b = false ∧ after b = false) →
          (after a.source = s.bit a.source → t.timer n = some a) ∧
          (s.bit a.source = false → after a.source = true → t.timer n = some (rise a)) ∧
          (s.bit a.source = true → after a.source = false → t.timer n = some (fall a)))

/-! ## Messages -/

/-- R142: SEND makes its six checks in the order of R142, the first that fails giving the outcome and changing nothing. R143:
one that passes takes the free list's head for the message, with the counter's next number, puts one entry at the tail of each
destination's queue of its priority, counts the sender's quota, and answers the number and the set of destinations. R150: an
URGENT append raises MESSAGE and leaves the coalesce timer; a NORMAL one that brings the depth to the threshold raises MESSAGE
and stops the timer; one below it to an empty queue starts the timer where the time is above 0. Every other session keeps its
settings, its timer and its attention as the arrival left them. R140: where words 54 to 58 show the free list and the queues
before, they show them after. -/
def Obligations.SendPostsTheMessage : Prop :=
  ∀ (s : State) (p : Port) (m : Membership) (tag : Byte), s.serves p m →
    let refusedWith := fun (body : List Byte) (o : ReplyOutcome) (detail : Nat) =>
      exec (.send p tag m.number body) s = .next (s.refused p m tag .send o detail)
    (∀ body : List Byte, body.length < 2 → refusedWith body .badRequest 0) ∧
    (∀ (code options : Byte) (payload : List Byte),
      (code.toNat = 0 ∨ (4 < code.toNat ∧ code.toNat < 255)) ∨ 3 < options.toNat →
      refusedWith (code :: options :: payload) .badRequest 1) ∧
    ∀ (destination : Option Port) (urgent returnFlag : Bool) (payload : List Byte),
      let body : List Byte := (match destination with | some q => q.code | none => 0xFF) ::
        ((if urgent then 1 else 0) + (if returnFlag then 2 else 0)) :: payload
      let reachedPorts := s.destinations p destination
      (60 < payload.length → refusedWith body .badRequest 2) ∧
      (payload.length ≤ 60 →
        (∀ q, destination = some q → s.session q = none → refusedWith body .noRoute q.code.toNat) ∧
        (destination = none → (∀ q, q ≠ p → s.session q = none) → refusedWith body .noRoute 0) ∧
        ((∃ q, (s.session q).isSome ∧ (destination = some q ∨ (destination = none ∧ q ≠ p))) →
          (∀ q, q ∈ reachedPorts ↔ (s.session q).isSome ∧ (destination = some q ∨ (destination = none ∧ q ≠ p))) ∧
          (24 ≤ s.quota p → refusedWith body .quota 24) ∧
          (s.quota p < 24 →
            (s.exchange.free = [] → refusedWith body .poolEmpty 0) ∧
            ∀ b rest, s.exchange.free = b :: rest →
              let number := seqNext s.exchange.counter
              let depth := fun q : Port => (s.exchange.normal.get q).length
              let full := fun q : Port => (s.exchange.sessions.get q).any fun e => decide (e.threshold.toNat ≤ depth q + 1)
              ∃ t, exec (.send p tag m.number body) s = .next t ∧
                t.exchange.counter = number ∧ t.exchange.free = rest ∧
                t.buffer b = some {
                  sender := m.on p
                  number := number
                  urgent := urgent
                  returnFlag := returnFlag
                  broadcast := destination.isNone
                  payload := payload
                  references := reachedPorts.length
                  sendTime := s.clock } ∧
                (∀ b', b' ≠ b → t.buffer b' = s.buffer b') ∧
                (∀ q, t.exchange.urgent.get q =
                  s.exchange.urgent.get q ++ (if urgent && q ∈ reachedPorts then [⟨b, .direct⟩] else [])) ∧
                (∀ q, t.exchange.normal.get q =
                  s.exchange.normal.get q ++ (if !urgent && q ∈ reachedPorts then [⟨b, .direct⟩] else [])) ∧
                (∀ q, t.exchange.sessions.get q = (s.exchange.sessions.get q).map fun e => { e with
                  quota := if q = p then e.quota + 1 else e.quota
                  deadline :=
                    if urgent = true ∨ q ∉ reachedPorts then e.deadline
                    else if e.threshold.toNat ≤ depth q + 1 then none
                    else if depth q = 0 ∧ e.time ≠ 0 then some (s.clock + BitVec.ofNat 32 e.time.toNat)
                    else e.deadline }) ∧
                (∀ q, t.attention.get q = ((s.qualify p m.number).attention.get q).map fun a =>
                  if q ∈ reachedPorts ∧ (urgent = true ∨ full q = true) then
                    { a with pending := a.pending ||| 1, atn := (a.pending ||| 1) &&& a.mask != 0 }
                  else a) ∧
                (s.showsExchange → t.showsExchange) ∧
                (t.links.get p).reply = some ((Answer.mk .done number
                  [natByte ((if .A ∈ reachedPorts then 1 else 0) + (if .B ∈ reachedPorts then 2 else 0) +
                    (if .C ∈ reachedPorts then 4 else 0) + (if .D ∈ reachedPorts then 8 else 0))]).frame tag 0x40 1))))

/-- R145: RECEIVE refuses a body, and QUEUE_EMPTY where both queues are empty; it takes the URGENT queue's head, or the NORMAL
queue's where that is empty, and answers what the buffer holds. R137, R139, R144: it releases the reference; the last one frees
the buffer to the tail of the free list, and the quota of the session that sent it falls by 1 where that session is still
current; every other quota stands. R150: a NORMAL queue left empty stops the coalesce timer of the port; no other timer and no
attention changes beside the arrival's own. R140: where words 54 to 58 show the free list and the queues before, they show
them after. -/
def Obligations.ReceiveTakesTheHead : Prop :=
  ∀ (s : State) (p : Port) (m : Membership) (tag : Byte), s.serves p m →
    (∀ body : List Byte, body ≠ [] →
      exec (.receive p tag m.number body) s = .next (s.refused p m tag .receive .badRequest 0)) ∧
    (s.exchange.urgent.get p = [] → s.exchange.normal.get p = [] →
      exec (.receive p tag m.number []) s = .next (s.refused p m tag .receive .queueEmpty 0)) ∧
    ∀ (e : Entry) (k : Buffer) (urgent normal : List Entry), s.buffer e.buffer = some k →
      ((s.exchange.urgent.get p = e :: urgent ∧ s.exchange.normal.get p = normal) ∨
        (s.exchange.urgent.get p = [] ∧ urgent = [] ∧ s.exchange.normal.get p = e :: normal)) →
      ∃ t, exec (.receive p tag m.number []) s = .next t ∧
        t.exchange.urgent.get p = urgent ∧ t.exchange.normal.get p = normal ∧
        (∀ q, q ≠ p → t.exchange.urgent.get q = s.exchange.urgent.get q ∧
          t.exchange.normal.get q = s.exchange.normal.get q) ∧
        (k.references ≤ 1 → t.buffer e.buffer = none ∧ t.exchange.free = s.exchange.free ++ [e.buffer]) ∧
        (2 ≤ k.references → t.buffer e.buffer = some { k with references := k.references - 1 } ∧
          t.exchange.free = s.exchange.free) ∧
        (∀ b, b ≠ e.buffer → t.buffer b = s.buffer b) ∧
        (∀ q, t.exchange.sessions.get q = (s.exchange.sessions.get q).map fun x => { x with
          quota := if k.references ≤ 1 ∧ s.session q = some k.sender then x.quota - 1 else x.quota
          deadline := if q = p ∧ normal = [] then none else x.deadline }) ∧
        t.attention = (s.qualify p m.number).attention ∧ t.exchange.discards = s.exchange.discards ∧
        (s.showsExchange → t.showsExchange) ∧
        (t.links.get p).reply = some ((Answer.mk .done (natHalf (urgent.length + normal.length))
          ([k.sender.port.code] ++ halfBytes k.sender.number ++ halfBytes k.number ++
            [(if e.delivery = .returned then 1 else 0) + (if k.urgent then 2 else 0) + (if k.returnFlag then 4 else 0) +
              (if k.broadcast then 8 else 0)] ++
            clockBytes (s.clock - k.sendTime) ++ [natByte k.payload.length] ++ k.payload)).frame tag 0x41 1)

/-- R148: FLUSH_QUEUE refuses a body of another length and a code that names no queue; it empties the named queues of the
requesting port, leaves its other queue, and answers how many entries left, and how many of them were returned and how many
discarded. R140: words 54 to 58 go on to show the exchange. Where each buffer that a leaving entry names is in use with a
reference for each of them (R136), an entry is returned exactly when it is DIRECT, its buffer's return flag is set, its
sender's session is still current and its sender's port is another (R146): it joins, in the order taken, URGENT before NORMAL,
as a RETURNED entry the tail of the sender's queue of the buffer's priority. Every other entry releases its reference, and the
last frees the buffer and takes 1 off the quota of a sender still current (R137, R139). R150: an URGENT return raises MESSAGE;
NORMAL returns that bring the depth to the threshold raise MESSAGE and stop the timer; below it, those to an empty queue start
it where the time is above 0; the port's own timer stops with its NORMAL queue; all other settings, timers and attention stand
as the arrival left them. -/
def Obligations.FlushQueueEmptiesTheNamedQueues : Prop :=
  ∀ (s : State) (p : Port) (m : Membership) (tag : Byte), s.serves p m →
    (∀ body : List Byte, body.length ≠ 1 →
      exec (.flushQueue p tag m.number body) s = .next (s.refused p m tag .flushQueue .badRequest 0)) ∧
    (∀ code : Byte, code.toNat = 0 ∨ 3 < code.toNat →
      exec (.flushQueue p tag m.number [code]) s = .next (s.refused p m tag .flushQueue .badRequest 1)) ∧
    ∀ (code : Byte) (urgent normal : Bool), flushCode code = some (urgent, normal) →
    let leaving := (if urgent then s.exchange.urgent.get p else []) ++ (if normal then s.exchange.normal.get p else [])
    let back := leaving.filter fun e => decide (e.delivery = .direct) && (s.buffer e.buffer).any fun k =>
      k.returnFlag && decide (s.session k.sender.port = some k.sender) && decide (k.sender.port ≠ p)
    let backTo (q : Port) (u : Bool) : List Entry :=
      (back.filter fun e => (s.buffer e.buffer).any fun k => decide (k.sender.port = q) && k.urgent == u).map fun e =>
        ⟨e.buffer, .returned⟩
    let released (b : Nat) : Nat := (leaving.filter fun e => decide (e ∉ back) && e.buffer == b).length
    let depth (q : Port) : Nat := (s.exchange.normal.get q).length + (backTo q false).length
    let full (q : Port) : Bool := (s.exchange.sessions.get q).any fun x => decide (x.threshold.toNat ≤ depth q)
    ∃ (t : State) (returned discarded : Nat), exec (.flushQueue p tag m.number [code]) s = .next t ∧
      t.exchange.urgent.get p = (if urgent then [] else s.exchange.urgent.get p) ∧
      t.exchange.normal.get p = (if normal then [] else s.exchange.normal.get p) ∧
      returned + discarded = leaving.length ∧
      t.exchange.discards.toNat = min 65535 (s.exchange.discards.toNat + discarded) ∧
      (normal = true → (t.exchange.sessions.get p).bind MessageSession.deadline = none) ∧
      (t.links.get p).reply = some ((Answer.mk .done (natHalf leaving.length) [natByte returned, natByte discarded]).frame
        tag 0x42 1) ∧
      (s.showsExchange → t.showsExchange) ∧
      ((∀ e ∈ leaving, ∃ k, s.buffer e.buffer = some k ∧
          (leaving.filter fun f => f.buffer == e.buffer).length ≤ k.references) →
        returned = back.length ∧
        (∀ q, q ≠ p → t.exchange.urgent.get q = s.exchange.urgent.get q ++ backTo q true ∧
          t.exchange.normal.get q = s.exchange.normal.get q ++ backTo q false) ∧
        (∀ q, t.attention.get q = ((s.qualify p m.number).attention.get q).map fun a =>
          if backTo q true ≠ [] ∨ (backTo q false ≠ [] ∧ full q = true) then
            { a with pending := a.pending ||| 1, atn := (a.pending ||| 1) &&& a.mask != 0 }
          else a) ∧
        (∀ b, released b = 0 → t.buffer b = s.buffer b) ∧
        (∀ b k, released b ≠ 0 → s.buffer b = some k →
          t.buffer b = if released b < k.references then some { k with references := k.references - released b } else none) ∧
        ∃ freed, t.exchange.free = s.exchange.free ++ freed ∧ freed.Nodup ∧
          (∀ b, b ∈ freed ↔ s.buffer b ≠ none ∧ t.buffer b = none) ∧
          ∀ q, t.exchange.sessions.get q = (s.exchange.sessions.get q).map fun x => { x with
            quota := x.quota - (freed.filter fun b => (s.buffer b).any fun k => decide (s.session q = some k.sender)).length
            deadline :=
              if q = p then (if normal then none else x.deadline)
              else if backTo q false = [] then x.deadline
              else if x.threshold.toNat ≤ depth q then none
              else if s.exchange.normal.get q = [] ∧ x.time ≠ 0 then some (s.clock + BitVec.ofNat 32 x.time.toNat)
              else x.deadline })

/-- R149: SET_COALESCE replaces the settings, stops the coalesce timer, and raises MESSAGE where the NORMAL depth is at least
the threshold, or starts the timer where entries wait below it and the time is above 0; a body of another length is refused,
and a threshold of 0 or above 16. R151: the deadline reached (entry 3) stops the timer, with MESSAGE where the NORMAL queue is
not empty; nothing happens where the clock stands at no such deadline (entry 2). -/
def Obligations.CoalescingIsSetAndExpires : Prop :=
  ∀ (s : State) (p : Port),
    (∀ (m : Membership) (tag threshold time : Byte), s.serves p m →
      let u := s.qualify p m.number
      let depth := (s.exchange.normal.get p).length
      let reply := (Answer.mk .done 0 []).frame tag 0x43 1
      let set := fun deadline : Option Clock =>
        u.mapMessages p fun e => { e with threshold := threshold, time := time, deadline := deadline }
      (∀ body : List Byte, body.length ≠ 2 →
        exec (.setCoalesce p tag m.number body) s = .next (s.refused p m tag .setCoalesce .badRequest 0)) ∧
      (threshold.toNat = 0 ∨ 16 < threshold.toNat →
        exec (.setCoalesce p tag m.number [threshold, time]) s = .next (s.refused p m tag .setCoalesce .range 1)) ∧
      (1 ≤ threshold.toNat → threshold.toNat ≤ 16 → threshold.toNat ≤ depth →
        exec (.setCoalesce p tag m.number [threshold, time]) s =
          .next (((set none).raise .message .none p).replied p reply)) ∧
      (threshold.toNat ≤ 16 → depth < threshold.toNat → depth ≠ 0 → time ≠ 0 →
        exec (.setCoalesce p tag m.number [threshold, time]) s =
          .next ((set (some (s.clock + BitVec.ofNat 32 time.toNat))).replied p reply)) ∧
      (threshold.toNat ≤ 16 → depth < threshold.toNat → (depth = 0 ∨ time = 0) →
        exec (.setCoalesce p tag m.number [threshold, time]) s = .next ((set none).replied p reply))) ∧
    (∀ e d, s.exchange.sessions.get p = some e → e.deadline = some d → d = s.clock →
      let stopped := s.mapMessages p fun e => { e with deadline := none }
      (s.exchange.normal.get p ≠ [] →
        exec (.coalesceDeadlineExpiry p) s = .next (stopped.raise .message .none p)) ∧
      (s.exchange.normal.get p = [] → exec (.coalesceDeadlineExpiry p) s = .next stopped)) ∧
    ((∀ e d, s.exchange.sessions.get p = some e → e.deadline = some d → d ≠ s.clock) →
      exec (.coalesceDeadlineExpiry p) s = .next s)

/-! ## Attention -/

/-- R161: SET_WATCH is fenced and checks its body, its kind, the slot, the zone and the bit in that order; one that passes
puts a new watch in the slot, its flag clear and its overrun 0, and answers whether it replaced one. R162: CLEAR_WATCH is
fenced and checks its body and the slot; it takes the slot's watch away and answers whether it had fired. Neither changes
anything else of the record. R163, R164: what a change notice and an ownership notice do to an attention record: each watch
that the notice names fires, by its flag or, once that is set, by its overrun, which stays at 255; WATCH is set and the level
recomputed where one did; nothing else of the state changes. That the record's slots are in canonical form is entry 14's. -/
def Obligations.WatchesAreSetAndCleared : Prop :=
  Kind.setWatch.fencedOff ∧ Kind.clearWatch.fencedOff ∧
  (∀ (s : State) (p : Port) (m : Membership) (tag : Byte), s.serves p m →
    (∀ body : List Byte, body.length ≠ 5 →
      exec (.setWatch p tag m.number body) s = .next (s.refused p m tag .setWatch .badRequest 0)) ∧
    (∀ body : List Byte, body.length ≠ 1 →
      exec (.clearWatch p tag m.number body) s = .next (s.refused p m tag .clearWatch .badRequest 0)) ∧
    (∀ slot : Byte, 7 < slot.toNat →
      exec (.clearWatch p tag m.number [slot]) s = .next (s.refused p m tag .clearWatch .range 1)) ∧
    (∀ (slot zone kindByte : Byte) (bit : Half),
      let setting := exec (.setWatch p tag m.number ([slot, zone, kindByte] ++ halfBytes bit)) s
      let refusedWith := fun (o : ReplyOutcome) (detail : Nat) => setting = .next (s.refused p m tag .setWatch o detail)
      (3 < kindByte.toNat → refusedWith .badRequest 1) ∧
      (kindByte.toNat ≤ 3 → 7 < slot.toNat → refusedWith .range 1) ∧
      (kindByte.toNat ≤ 3 → slot.toNat ≤ 7 → 31 < zone.toNat → refusedWith .range 2) ∧
      (kindByte.toNat ≤ 3 → slot.toNat ≤ 7 → 1 ≤ zone.toNat → zone.toNat ≤ 31 → s.zone zone.toNat = none →
        refusedWith .notFound 0) ∧
      (kindByte.toNat = 1 ∨ kindByte.toNat = 2 → slot.toNat ≤ 7 → zone.toNat = 0 → 128 ≤ bit.toNat →
        refusedWith .range 3) ∧
      (∀ r, kindByte.toNat = 1 ∨ kindByte.toNat = 2 → slot.toNat ≤ 7 → 1 ≤ zone.toNat → zone.toNat ≤ 31 →
        s.zone zone.toNat = some r → r.hasBit bit.toNat = false → refusedWith .range 3)) ∧
    ∀ (slot : Byte) (a : AttentionRecord), slot.toNat ≤ 7 →
    let u := s.qualify p m.number
    u.attention.get p = some a →
    (∀ (zone kindByte : Byte) (bit : Half) (kind : WatchKind), watchKindOf kindByte bit = some kind → zone.toNat ≤ 31 →
      (zone.toNat = 0 ∨ (s.zone zone.toNat).isSome) →
      (∀ b, kind = .rise b ∨ kind = .fall b →
        (zone.toNat = 0 → b < 128) ∧ ∀ r, zone.toNat ≠ 0 → s.zone zone.toNat = some r → r.hasBit b = true) →
      exec (.setWatch p tag m.number ([slot, zone, kindByte] ++ halfBytes bit)) s =
        .next ((u.setRecord p { a with
          slots := a.slots.write none slot.toNat (some ⟨zone.toNat, kind, false, 0⟩) }).replied p
            ((Answer.mk .done (if (a.slots.read none slot.toNat).isSome then 1 else 0) []).frame tag 0x48 1))) ∧
    (∀ w, a.slots.read none slot.toNat = some w →
      exec (.clearWatch p tag m.number [slot]) s =
        .next ((u.setRecord p { a with slots := a.slots.write none slot.toNat none }).replied p
          ((Answer.mk .done (if w.fired then 1 else 0) []).frame tag 0x49 1))) ∧
    (a.slots.read none slot.toNat = none →
      exec (.clearWatch p tag m.number [slot]) s = .next (s.refused p m tag .clearWatch .notFound 0))) ∧
  ∀ (s t : State) (sees : Watch → Bool),
    ((∃ (zs : List Nat) (edges : List (Nat × Bool)), t = s.fireChange ⟨zs, edges⟩ ∧ ∀ w : Watch, sees w =
        match w.kind with
        | .change => decide (w.zone ∈ zs)
        | .rise b => decide ((b, true) ∈ edges)
        | .fall b => decide ((b, false) ∈ edges)
        | .ownership => false) ∨
      ∃ zs : List Nat, t = s.fireOwnership zs ∧
        ∀ w : Watch, sees w = (decide (w.kind = .ownership) && decide (w.zone ∈ zs))) →
    t = { s with attention := t.attention } ∧
    ∀ q, (s.attention.get q = none → t.attention.get q = none) ∧
      ∀ a, s.attention.get q = some a → Memory.wf none a.slots →
        ∃ a', t.attention.get q = some a' ∧ a' = { a with slots := a'.slots, pending := a'.pending, atn := a'.atn } ∧
          (∀ k, a'.slot k = (a.slot k).map fun w =>
            if sees w then
              (if w.fired then { w with overrun := if w.overrun = 255 then 255 else w.overrun + 1 }
                else { w with fired := true })
            else w) ∧
          ((∃ k w, a.slot k = some w ∧ sees w = true) →
            a'.pending = a.pending ||| 0b000010 ∧ a'.atn = ((a.pending ||| 0b000010) &&& a.mask != 0)) ∧
          ((∀ k w, a.slot k = some w → sees w = false) → a' = a)

/-- R152, R166: READ_ATTENTION refuses a body. Without one it answers the pending set and the record as the arrival finds
them, then clears the causes, the fired flags, the overruns and the detail sets; a pending MESSAGE is set again while an
URGENT entry waits or the NORMAL queue stands at its threshold, and else is cleared, with the coalesce timer restarted where
entries wait below it and the time is above 0. -/
def Obligations.ReadAttentionReportsAndClears : Prop :=
  ∀ (s : State) (p : Port) (m : Membership) (tag : Byte), s.serves p m →
    (∀ body : List Byte, body ≠ [] →
      exec (.readAttention p tag m.number body) s = .next (s.refused p m tag .readAttention .badRequest 0)) ∧
    ∀ (a : AttentionRecord) (e : MessageSession),
    let u := s.qualify p m.number
    u.attention.get p = some a → s.exchange.sessions.get p = some e →
    let depth := (s.exchange.normal.get p).length
    let message := a.pending.getLsbD 0
    let again := message && (!(s.exchange.urgent.get p).isEmpty || decide (e.threshold.toNat ≤ depth))
    ∃ t a', exec (.readAttention p tag m.number []) s = .next t ∧
      t.attention.get p = some a' ∧
      a'.pending = (if again then 1 else 0) ∧ a'.mask = a.mask ∧ a'.gone = 0 ∧ a'.granted = 0 ∧ a'.grantedBroken = 0 ∧
      a'.revoked = 0 ∧ a'.zones = 0 ∧ a'.ports = 0 ∧
      (∀ k, a'.slot k = (a.slot k).map fun w => { w with fired := false, overrun := 0 }) ∧
      a'.atn = (again && a.mask.getLsbD 0) ∧
      t.exchange.sessions.get p = some { e with
        deadline :=
          if !message || again then e.deadline
          else if depth ≠ 0 ∧ e.time ≠ 0 then some (s.clock + BitVec.ofNat 32 e.time.toNat)
          else none } ∧
      (t.links.get p).reply = some ((Answer.mk .done (a.pending.setWidth 16)
        ([a.pending.setWidth 8, a.mask.setWidth 8] ++
          ((List.range 8).flatMap fun k =>
            match a.slot k with
            | some w => [if w.fired then 3 else 1, w.overrun]
            | none => [0, 0]) ++
          [a.gone] ++ halfBytes a.granted ++ halfBytes a.grantedBroken ++ halfBytes a.revoked ++ clockBytes a.zones ++
          [a.ports.setWidth 8])).frame tag 0x4A 1)

/-- R160, R167: SET_ATTENTION_MASK is fenced; a body that is not one byte is BAD_REQUEST 0, a byte with a bit outside the six
causes BAD_REQUEST 1; one that passes replaces the mask alone and answers the old one, and the port's level is asserted
exactly when a pending cause is in the new mask. -/
def Obligations.MaskDecidesTheLevel : Prop :=
  Kind.setAttentionMask.fencedOff ∧
  ∀ (s : State) (p : Port) (m : Membership) (tag : Byte), s.serves p m →
    (∀ body : List Byte, body.length ≠ 1 →
      exec (.setAttentionMask p tag m.number body) s = .next (s.refused p m tag .setAttentionMask .badRequest 0)) ∧
    (∀ b : Byte, 63 < b.toNat →
      exec (.setAttentionMask p tag m.number [b]) s = .next (s.refused p m tag .setAttentionMask .badRequest 1)) ∧
    ∀ (b : Byte) (a : AttentionRecord), b.toNat ≤ 63 → (s.qualify p m.number).attention.get p = some a →
      ∃ t, exec (.setAttentionMask p tag m.number [b]) s = .next t ∧
        t = ((s.qualify p m.number).setRecord p { a with
          mask := b.setWidth 6, atn := a.pending &&& b.setWidth 6 != 0 }).replied p
            ((Answer.mk .done (a.mask.setWidth 16) []).frame tag 0x4B 1) ∧
        t.atn p = (a.pending &&& b.setWidth 6 != 0)

/-! ## Faults -/

/-- R173, R174, R175, R177: RAISE_FAULT is fenced and checks its body and the number; one of 1 to 4031 repeats its entry,
appends one, or is refused LIST_FULL with the overflow count; a repeat and an append raise FAULT for every session, a refusal
for none. Where bits 60 to 63 and words 52 and 53 show the list before, they show it after; and bit 61 is 1 after a repeat
and an append. -/
def Obligations.RaiseFaultRepeatsAppendsOrIsRefused : Prop :=
  Kind.raiseFault.fencedOff ∧
  ∀ (s : State) (p : Port) (m : Membership) (tag : Byte), s.serves p m →
    (∀ body : List Byte, body.length ≠ 2 →
      exec (.raiseFault p tag m.number body) s = .next (s.refused p m tag .raiseFault .badRequest 0)) ∧
    (∀ n : Half, n.toNat = 0 ∨ 4031 < n.toNat →
      exec (.raiseFault p tag m.number (halfBytes n)) s = .next (s.refused p m tag .raiseFault .range 1)) ∧
    ∀ n : Half, 1 ≤ n.toNat → n.toNat ≤ 4031 →
    (∀ (before after : List FaultEntry) (e : FaultEntry), s.faults = before ++ e :: after → e.number = n →
      (∀ f ∈ before ++ after, f.number ≠ n) →
      ∃ t, exec (.raiseFault p tag m.number (halfBytes n)) s = .next t ∧
        t.faults = before ++ { e with
          repeats := satInc e.repeats, lastTime := s.clock, lastEpoch := s.epoch, acknowledged := 0 } :: after ∧
        t.overflow = s.overflow ∧ (s.showsFaults → t.showsFaults ∧ t.bit 61 = true) ∧
        (∀ q, (t.attention.get q).map (fun a => a.pending &&& 32) = (s.attention.get q).map fun _ => 32) ∧
        (t.links.get p).reply = some ((Answer.mk .done (natHalf (satInc e.repeats).toNat)
          [natByte (before.length + 1)]).frame tag 0x50 1)) ∧
    ((∀ f ∈ s.faults, f.number ≠ n) → s.faults.length < 16 →
      ∃ t, exec (.raiseFault p tag m.number (halfBytes n)) s = .next t ∧
        t.faults = s.faults ++ [{
          number := n
          origin := .port p
          originSession := m.number
          firstTime := s.clock
          firstEpoch := s.epoch
          lastTime := s.clock
          lastEpoch := s.epoch
          repeats := 1
          acknowledged := 0
          firstOut := s.faults.isEmpty }] ∧
        t.overflow = s.overflow ∧ (s.showsFaults → t.showsFaults ∧ t.bit 61 = true) ∧
        (∀ q, (t.attention.get q).map (fun a => a.pending &&& 32) = (s.attention.get q).map fun _ => 32) ∧
        (t.links.get p).reply = some ((Answer.mk .done 1 [natByte (s.faults.length + 1)]).frame tag 0x50 1)) ∧
    ((∀ f ∈ s.faults, f.number ≠ n) → 16 ≤ s.faults.length →
      ∃ t, exec (.raiseFault p tag m.number (halfBytes n)) s = .next t ∧
        t.faults = s.faults ∧ t.overflow = satInc s.overflow ∧ (s.showsFaults → t.showsFaults) ∧
        (∀ q, (t.attention.get q).map (fun a => a.pending &&& 32) =
          ((s.qualify p m.number).attention.get q).map fun a => a.pending &&& 32) ∧
        (t.links.get p).reply = some ((Answer.mk .listFull (satInc s.overflow) []).frame tag 0x50 1))

/-- R178, R179: CLEAR_FAULT and ACK_FAULT refuse a body of another length, a number outside 1 to 4095, for ACK_FAULT above
4095, and a number that is not in the list. R172, R173, R177, R178: a CLEAR_FAULT removes the entry and raises FAULT for
every session, but not while zone n - 4032 is ORPHANED, nor while port n - 4080 is LOST. R179: an ACK_FAULT adds the port
to the acknowledged set of the entry named, or of all for 0, and answers how many gained it. Where bits 60 to 63 and
words 52 and 53 show the list before, they show it after either. -/
def Obligations.FaultsAreClearedAndAcknowledged : Prop :=
  ∀ (s : State) (p : Port) (m : Membership) (tag : Byte), s.serves p m →
    (∀ body : List Byte, body.length ≠ 2 →
      exec (.clearFault p tag m.number body) s = .next (s.refused p m tag .clearFault .badRequest 0) ∧
      exec (.ackFault p tag m.number body) s = .next (s.refused p m tag .ackFault .badRequest 0)) ∧
    (∀ n : Half, n.toNat = 0 ∨ 4095 < n.toNat →
      exec (.clearFault p tag m.number (halfBytes n)) s = .next (s.refused p m tag .clearFault .range 1)) ∧
    (∀ n : Half, 4095 < n.toNat →
      exec (.ackFault p tag m.number (halfBytes n)) s = .next (s.refused p m tag .ackFault .range 1)) ∧
    ∀ n : Half, n.toNat ≤ 4095 →
    (n ≠ 0 → (∀ f ∈ s.faults, f.number ≠ n) →
      exec (.clearFault p tag m.number (halfBytes n)) s = .next (s.refused p m tag .clearFault .notFound 0) ∧
      exec (.ackFault p tag m.number (halfBytes n)) s = .next (s.refused p m tag .ackFault .notFound 0)) ∧
    (∀ z r, (∃ f ∈ s.faults, f.number = n) → n.toNat = 4032 + z → 1 ≤ z → z ≤ 31 → s.zone z = some r →
      r.status = .orphaned →
      exec (.clearFault p tag m.number (halfBytes n)) s = .next (s.refused p m tag .clearFault .conditionActive 1)) ∧
    (∀ q : Port, (∃ f ∈ s.faults, f.number = n) → n.toNat = 4080 + q.index → s.ports.get q = .lost →
      exec (.clearFault p tag m.number (halfBytes n)) s = .next (s.refused p m tag .clearFault .conditionActive 2)) ∧
    ((∃ f ∈ s.faults, f.number = n) → 1 ≤ n.toNat →
      (∀ z r, n.toNat = 4032 + z → 1 ≤ z → z ≤ 31 → s.zone z = some r → r.status ≠ .orphaned) →
      (∀ q : Port, n.toNat = 4080 + q.index → s.ports.get q ≠ .lost) →
      ∃ t, exec (.clearFault p tag m.number (halfBytes n)) s = .next t ∧
        t.faults = s.faults.filter (fun f => f.number != n) ∧ t.overflow = s.overflow ∧
        (s.showsFaults → t.showsFaults) ∧
        (∀ q, (t.attention.get q).map (fun a => a.pending &&& 32) = (s.attention.get q).map fun _ => 32) ∧
        (t.links.get p).reply = some ((Answer.mk .done (natHalf t.faults.length) []).frame tag 0x51 1)) ∧
    (n = 0 ∨ (∃ f ∈ s.faults, f.number = n) →
      ∃ t, exec (.ackFault p tag m.number (halfBytes n)) s = .next t ∧
        t.faults = s.faults.map (fun f =>
          if n = 0 ∨ f.number = n then { f with acknowledged := f.acknowledged ||| p.single } else f) ∧
        t.overflow = s.overflow ∧ (s.showsFaults → t.showsFaults) ∧
        (t.links.get p).reply = some ((Answer.mk .done
          (natHalf (s.faults.filter fun f => decide (n = 0 ∨ f.number = n) && !portIn p f.acknowledged).length) []).frame
            tag 0x52 1))

/-! ## Resets -/

/-- R18, R19, R38, R88, R98, R115, R135, R155, R170, R171, R182: a warm reset of a running part. It ends every session, empties
the exchange and the reply slots, frees every token and keeps its limit, counts the epoch and keeps the session counter. Every
defined zone is ORPHANED; its loss policy leaves its points, and counts one write unless it is HOLD, at the clock 0 and the
new epoch (entry 9). Every timer keeps its settings and is unattached; one that names no done bit restarts against the bits
as the reset leaves them, a RETAIN timer with its count; and the points show the timers. The fault list keeps its entries and
its overflow count, and raises 4088: repeated, appended, or dropped by a full list. The laws of the zone table (R41, R48) are
premises of the clauses on points of zones and of the fault list. A part already held takes no warm reset (entry 2). A deadline or a
tick event due at the clock's value and not taken by then goes with the rest, with no expiry (entry 22). -/
def Obligations.WarmResetKeepsAndDrops : Prop :=
  ∀ s : State,
    (s.phase ≠ .running → exec .warmReset s = .next s) ∧
    (s.phase = .running →
      ∃ t, exec .warmReset s = .next t ∧ t.phase = .held ∧ t.clock = 0 ∧ t.epoch = s.epoch + 1 ∧
        t.sessionCounter = s.sessionCounter ∧
        (∀ p, t.ports.get p = .offline ∧ t.attention.get p = none ∧ t.atn p = false) ∧
        t.exchange = Exchange.reset ∧
        (∀ p, (t.links.get p).reply = none ∧ (t.links.get p).discarded = false ∧ (t.links.get p).refused = false ∧
          (t.links.get p).discardedCount = 0 ∧ (t.links.get p).refusedCount = 0 ∧
          (t.links.get p).selection = if (s.links.get p).selection = .idle then .idle else .ignored) ∧
        (∀ z, 1 ≤ z → z ≤ 31 →
          (s.zone z = none → t.zone z = none) ∧
          ∀ r, s.zone z = some r →
            t.zone z = some { r.policyApplied 0 (s.epoch + 1) with
              status := .orphaned
              tenure := match r.status with | .owned _ => r.tenure + 1 | _ => r.tenure } ∧
            (s.zonesInArea → s.zonesApart → r.policyLeaves s t)) ∧
        (∀ n, n < 16 → t.token n = { hold := none, limit := (s.token n).limit, waiters := [], broken := false }) ∧
        (∀ n, (t.timer n).map Armed.settings = (s.timer n).map fun a => { a with session := none }.settings) ∧
        t.showsTimers ∧
        (∀ n a, s.timer n = some a → 32 ≤ a.source → (∀ b, a.resetBit = some b → 32 ≤ b) →
          let held := a.resetBit.any fun b => t.bit b
          let source := t.bit a.source
          t.timer n = some { a with
            session := none
            count := if held ∨ a.kind ≠ .retain then 0 else a.count
            done := !held && (match a.kind with | .delay => false | .offDelay => source | .retain => a.count == a.preset)
            phase :=
              match a.kind with
              | .delay => if !held && source then .timing else .idle
              | .offDelay => if !held && source then .on else .idle
              | .retain =>
                if held then .holding else if a.count = a.preset then .done else if source then .timing else .holding
            timingSince :=
              if !held && source && (a.kind == .delay || a.kind == .retain && a.count != a.preset) then 0
              else a.timingSince }) ∧
        (∀ (before after : List FaultEntry) (e : FaultEntry), s.faults = before ++ e :: after → e.number = 4088 →
          (∀ f ∈ before ++ after, f.number ≠ 4088) →
          t.overflow = s.overflow ∧ t.faults = before ++ { e with
            repeats := satInc e.repeats, lastTime := 0, lastEpoch := s.epoch + 1, acknowledged := 0 } :: after) ∧
        ((∀ f ∈ s.faults, f.number ≠ 4088) → s.faults.length < 16 →
          t.overflow = s.overflow ∧ t.faults = s.faults ++ [{
            number := 4088
            origin := .part
            originSession := 0
            firstTime := 0
            firstEpoch := s.epoch + 1
            lastTime := 0
            lastEpoch := s.epoch + 1
            repeats := 1
            acknowledged := 0
            firstOut := s.faults.isEmpty }]) ∧
        ((∀ f ∈ s.faults, f.number ≠ 4088) → 16 ≤ s.faults.length →
          t.overflow = satInc s.overflow ∧ t.faults = s.faults) ∧
        (s.zonesInArea → s.showsFaults → t.showsFaults) ∧
        (∀ i, 32 ≤ i → i < 60 → t.bit i = false) ∧ (∀ i, 32 ≤ i → i < 52 → t.word i = 0) ∧
        t.word 54 = 64 ∧ (∀ i, i < 4 → t.word (55 + i) = 0) ∧
        (∀ z, 1 ≤ z → z ≤ 31 → t.bit (64 + z) = (s.zone z).isSome ∧ t.bit (96 + z) = false))

/-- R19, R20, R156: RSTN's rise lets a held part run; a power-on reset puts every block at its power-on values, with the links
whose PpSEL is asserted IGNORED, and its end leaves the part held or running; the exchange's first event then writes word 54
as 64 while the free list is whole (entry 19). Each does nothing where its event is not there (entries 2 and 11). -/
def Obligations.PartLeavesItsResets : Prop :=
  ∀ s : State,
    (s.phase = .held → exec .rstnRise s = .next { s with phase := .running }) ∧
    (s.phase ≠ .held → exec .rstnRise s = .next s) ∧
    (∀ sel : PortSet, ∃ t, exec (.powerOnReset sel) s = .next t ∧
      t = { State.reset with
        phase := .powerOn
        links := t.links
        freeDraws := s.freeDraws
        pending := s.pending } ∧
      ∀ p, t.links.get p = Link.afterReset (if portIn p sel then .ignored else .idle)) ∧
    (∀ low : Bool, s.phase = .powerOn →
      exec (.powerOnResetEnd low) s = .next { s with phase := if low then .held else .running }) ∧
    (∀ low : Bool, s.phase ≠ .powerOn → exec (.powerOnResetEnd low) s = .next s) ∧
    (s.phase = .running → s.freeWordDue = true → s.exchange.free = List.range 64 →
      exec .freeBufferWordWrite s = .next { s with freeWordDue := false, words := s.words.write 0 54 64 }) ∧
    (s.phase ≠ .running ∨ s.freeWordDue = false → exec .freeBufferWordWrite s = .next s)

/-! ## Frames and laws -/

/-- R61 and the rules of each block: no request changes a block that is not among those its kind reaches, beside the port's
own record and link. -/
def Obligations.RequestsReachTheirBlocksAlone : Prop :=
  ∀ (s t : State) (k : Kind) (p : Port) (tag : Byte) (session : Half) (body : List Byte) (b : Block),
    exec (k.command p tag session body) s = .next t → b ∉ requestBlocks p ++ requestReaches k → b.same s t

/-- The same for the commands that are no requests. -/
def Obligations.EventsReachTheirBlocksAlone : Prop :=
  ∀ (s t : State) (c : Instr) (b : Block),
    (∀ k p tag session body, c ≠ Kind.command k p tag session body) →
    exec c s = .next t → b ∉ eventReaches c → b.same s t

/-- Entry 14: every step keeps every table of the state in its canonical form. R100, R101, R106: every step keeps the laws of
the tokens: a FREE token has no waiters and a HELD one is not broken, holders and waiters are current sessions, a port waits
in one list at most and there once, and none waits, over whatever number of links, for a token that it holds itself. -/
def Obligations.TablesStayCanonical : Prop :=
  (∀ s t : State, s.canonical → step s = .next t → t.canonical) ∧
  ∀ s t : State, s.tokensLawful → step s = .next t → t.tokensLawful

/-- R139, R157, R160: every step keeps an attention record and an exchange state for each port that has a session and for no
other, and each ATN level asserted exactly when a pending cause is in the mask. R136 to R139: every step keeps the laws of the
message exchange: each of the buffers 0 to 63 stands in the free list, once, or is in use by as many post-queue entries as it
counts references, 1 to 3; no entry names another buffer; a port without a session has no entries; and a session's quota is
the number of buffers in use that it sent, at most 24. The premise on the session counter leaves out the one case that R22
names: 65535 JOINs later a new session would bear the number of an ended one whose message still waits. -/
def Obligations.LevelsFollowTheirCauses : Prop :=
  (∀ s t : State, s.attentive → step s = .next t → t.attentive) ∧
  ∀ s t : State, s.exchangeLawful →
    (∀ b k, s.buffer b = some k → k.sender.number ≠ seqNext s.sessionCounter) → step s = .next t → t.exchangeLawful

/-- R41, R45, R48: every step keeps the defined zones numbered 1 to 31, inside the definable area and apart from one another,
and no owner's port the standby of its zone. While the zones are lawful, every step keeps the system zone showing two blocks.
R118: bits and words 0 to 31 show the done values and the counts of the timers. R140, R156: words 55 to 58 show the depth of
each port's queues, and word 54 the length of the free list from the exchange's first event after power-on on, which writes
it. -/
def Obligations.ZonesStayLawful : Prop :=
  (∀ s t : State, s.zonesLawful → step s = .next t → t.zonesLawful) ∧
  (∀ s t : State, s.zonesLawful → s.showsTimers → step s = .next t → t.showsTimers) ∧
  ∀ s t : State, s.zonesLawful → s.showsExchangeOnceWritten → step s = .next t → t.showsExchangeOnceWritten

/-- R171: every step keeps the fault list at no more than 16 entries of distinct numbers, one at most with the first-out
mark. R173: while the zones are lawful, every step keeps bits 60 to 63 and words 52 and 53 showing the list and the overflow
count. -/
def Obligations.FaultListStaysLawful : Prop :=
  (∀ s t : State, s.faultsLawful → step s = .next t → t.faultsLawful) ∧
  ∀ s t : State, s.zonesLawful → s.showsFaults → step s = .next t → t.showsFaults

/-- The laws of the state hold at reset: those that every step keeps. The law of word 54 (R140) holds from the exchange's first
event on, which writes it (R156). -/
def Obligations.LawsHoldAtReset : Prop :=
  State.reset.canonical ∧ State.reset.attentive ∧ State.reset.zonesLawful ∧ State.reset.faultsLawful ∧
  State.reset.tokensLawful ∧ State.reset.showsTimers ∧ State.reset.showsFaults ∧ State.reset.exchangeLawful ∧
  State.reset.showsExchangeOnceWritten ∧ State.reset.deadlinesAhead ∧
  ∃ t, exec .freeBufferWordWrite State.reset = .next t ∧ t.showsExchange
end

