-- ==== Sys2Proof/Laws/Memory.lean ====
section
/-!
SUPPORT. The laws of sparse tables: what is read after a write, and the canonical form that every operation keeps.
-/

namespace Sys2Proof.Machine

variable {β : Type}

/-- A number the table lists nothing for reads as the default. -/
theorem Memory.read_of_forall_ne (d : β) (m : Memory β) (k : Nat) (h : ∀ e ∈ m, e.1 ≠ k) : m.read d k = d := by
  induction m with
  | nil => rfl
  | cons e rest ih =>
    obtain ⟨j, v⟩ := e
    simp only [Memory.read]
    rw [if_neg (h (j, v) (by simp)), ih fun e he => h e (by simp [he])]

/-- Reading past an insertion of another number. -/
theorem Memory.read_insert_ne (d : β) (m : Memory β) (k i : Nat) (v : β) (h : i ≠ k) :
    (m.insert k v).read d i = m.read d i := by
  induction m with
  | nil => simp [Memory.insert, Memory.read, h.symm]
  | cons e rest ih =>
    obtain ⟨j, w⟩ := e
    simp only [Memory.insert]
    split
    · simp [Memory.read, h.symm]
    · simp only [Memory.read, ih]

/-- Reading an inserted number that the table did not list. -/
theorem Memory.read_insert_same (d : β) (m : Memory β) (k : Nat) (v : β) (h : ∀ e ∈ m, e.1 ≠ k) :
    (m.insert k v).read d k = v := by
  induction m with
  | nil => simp [Memory.insert, Memory.read]
  | cons e rest ih =>
    obtain ⟨j, w⟩ := e
    simp only [Memory.insert]
    split
    · simp [Memory.read]
    · simp only [Memory.read]
      rw [if_neg (h (j, w) (by simp)), ih fun e he => h e (by simp [he])]

/-- Reading past the removal of another number. -/
theorem Memory.read_remove_ne (d : β) (m : Memory β) (k i : Nat) (h : i ≠ k) :
    Memory.read d (m.filter fun e => e.1 != k) i = m.read d i := by
  induction m with
  | nil => rfl
  | cons e rest ih =>
    obtain ⟨j, w⟩ := e
    by_cases hj : j = k
    · subst hj
      simp [Memory.read, h.symm, ih]
    · simp [Memory.read, hj, ih]

/-- What is read after a write. -/
theorem Memory.read_write [DecidableEq β] (d : β) (m : Memory β) (k i : Nat) (v : β) :
    (m.write d k v).read d i = if i = k then v else m.read d i := by
  unfold Memory.write
  by_cases h : i = k
  · subst h
    have hr : ∀ e ∈ m.filter (fun e => e.1 != i), e.1 ≠ i := by
      intro e he
      simpa using (List.mem_filter.mp he).2
    rw [if_pos rfl]
    dsimp only
    split
    · rename_i hv
      rw [hv, Memory.read_of_forall_ne d _ i hr]
    · exact Memory.read_insert_same d _ i v hr
  · rw [if_neg h]
    dsimp only
    split
    · exact Memory.read_remove_ne d m k i h
    · rw [Memory.read_insert_ne d _ k i v h, Memory.read_remove_ne d m k i h]

/-- The number written reads as written. -/
@[simp] theorem Memory.read_write_same [DecidableEq β] (d : β) (m : Memory β) (k : Nat) (v : β) :
    (m.write d k v).read d k = v := by simp [Memory.read_write]

/-- Every other number reads as before. -/
theorem Memory.read_write_ne [DecidableEq β] (d : β) (m : Memory β) (k i : Nat) (v : β) (h : i ≠ k) :
    (m.write d k v).read d i = m.read d i := by simp [Memory.read_write, h]

/-- A list of writes leaves every number it does not name. -/
theorem Memory.read_writeAll_ne [DecidableEq β] (d : β) (ws : List (Nat × β)) (m : Memory β) (i : Nat)
    (h : ∀ w ∈ ws, w.1 ≠ i) : (m.writeAll d ws).read d i = m.read d i := by
  induction ws generalizing m with
  | nil => rfl
  | cons w rest ih =>
    show Memory.read d ((m.write d w.1 w.2).writeAll d rest) i = _
    rw [ih _ fun e he => h e (by simp [he]), Memory.read_write_ne d m w.1 i w.2 (h w (by simp)).symm]

/-- What is read after a list of writes: the last value written to the number, or what stood there. -/
theorem Memory.read_writeAll [DecidableEq β] (d : β) (ws : List (Nat × β)) (m : Memory β) (i : Nat) :
    (m.writeAll d ws).read d i = ((ws.reverse.find? fun w => w.1 == i).map Prod.snd).getD (m.read d i) := by
  induction ws generalizing m with
  | nil => rfl
  | cons w rest ih =>
    show Memory.read d ((m.write d w.1 w.2).writeAll d rest) i = _
    rw [ih, List.reverse_cons, List.find?_append]
    cases hr : rest.reverse.find? fun w => w.1 == i with
    | some e => simp
    | none =>
      by_cases hw : w.1 = i
      · subst hw; simp
      · simp [hw, Memory.read_write, Ne.symm hw]

/-- A list of writes that all give a number the value `v`, one of which names it. -/
theorem Memory.read_writeAll_of_mem [DecidableEq β] (d : β) (ws : List (Nat × β)) (m : Memory β) (i : Nat) (v : β)
    (hm : (i, v) ∈ ws) (hv : ∀ w ∈ ws, w.1 = i → w.2 = v) : (m.writeAll d ws).read d i = v := by
  rw [Memory.read_writeAll]
  cases hf : ws.reverse.find? fun w => w.1 == i with
  | none =>
    have := List.find?_eq_none.mp hf (i, v) (by simp [hm])
    simp at this
  | some e =>
    have hp : e.1 = i := by simpa using List.find?_some hf
    have hmem : e ∈ ws := by simpa using List.mem_of_find?_eq_some hf
    simp [hv e hmem hp]

/-- A mapped table reads as the mapped value, where the default maps to itself. -/
theorem Memory.read_mapValues (d : β) (f : β → β) (hd : f d = d) (m : Memory β) (i : Nat) :
    (m.mapValues f).read d i = f (m.read d i) := by
  induction m with
  | nil => simp [Memory.mapValues, Memory.read, hd]
  | cons e rest ih =>
    obtain ⟨j, w⟩ := e
    show Memory.read d ((j, f w) :: Memory.mapValues f rest) i = _
    simp only [Memory.read]
    split
    · rfl
    · exact ih

/-! ## The canonical form -/

/-- An insertion lists the numbers of the table and the one inserted. -/
theorem Memory.mem_insert {m : Memory β} {k : Nat} {v : β} {e : Nat × β} :
    e ∈ m.insert k v ↔ e = (k, v) ∨ e ∈ m := by
  induction m with
  | nil => simp [Memory.insert]
  | cons f rest ih =>
    obtain ⟨j, w⟩ := f
    simp only [Memory.insert]
    split
    · simp
    · simp only [List.mem_cons, ih]
      tauto

/-- The empty table is canonical. -/
theorem Memory.wf_nil (d : β) : Memory.wf d ([] : Memory β) := ⟨List.Pairwise.nil, by simp⟩

/-- A removal keeps the canonical form. -/
theorem Memory.wf_filter (d : β) {m : Memory β} (h : Memory.wf d m) (f : Nat × β → Bool) : Memory.wf d (m.filter f) :=
  ⟨h.1.filter f, fun e he => h.2 e (List.mem_filter.mp he).1⟩

/-- An insertion of a new number with a value other than the default keeps the canonical form. -/
theorem Memory.wf_insert (d : β) {m : Memory β} (h : Memory.wf d m) (k : Nat) (v : β) (hk : ∀ e ∈ m, e.1 ≠ k)
    (hv : v ≠ d) : Memory.wf d (m.insert k v) := by
  refine ⟨?_, ?_⟩
  · obtain ⟨hp, -⟩ := h
    induction m with
    | nil => simp [Memory.insert]
    | cons f rest ih =>
      obtain ⟨j, w⟩ := f
      have hp' := List.pairwise_cons.mp hp
      simp only [Memory.insert]
      split
      · rename_i hlt
        refine List.pairwise_cons.mpr ⟨?_, hp⟩
        intro e he
        rcases List.mem_cons.mp he with rfl | he
        · exact hlt
        · exact Nat.lt_trans hlt (hp'.1 e he)
      · rename_i hge
        have hjk : j ≠ k := hk (j, w) (by simp)
        refine List.pairwise_cons.mpr ⟨?_, ih (fun e he => hk e (by simp [he])) hp'.2⟩
        intro e he
        rcases Memory.mem_insert.mp he with rfl | he
        · show j < k
          omega
        · exact hp'.1 e he
  · intro e he
    rcases Memory.mem_insert.mp he with rfl | he
    · exact hv
    · exact h.2 e he

/-- A write keeps the canonical form. -/
theorem Memory.wf_write [DecidableEq β] (d : β) {m : Memory β} (h : Memory.wf d m) (k : Nat) (v : β) :
    Memory.wf d (m.write d k v) := by
  unfold Memory.write
  dsimp only
  split
  · exact Memory.wf_filter d h _
  · rename_i hv
    refine Memory.wf_insert d (Memory.wf_filter d h _) k v ?_ hv
    intro e he
    simpa using (List.mem_filter.mp he).2

/-- A list of writes keeps the canonical form. -/
theorem Memory.wf_writeAll [DecidableEq β] (d : β) (ws : List (Nat × β)) {m : Memory β} (h : Memory.wf d m) :
    Memory.wf d (m.writeAll d ws) := by
  induction ws generalizing m with
  | nil => exact h
  | cons w rest ih => exact ih (Memory.wf_write d h w.1 w.2)

/-- A change of values that maps no value to the default keeps the canonical form. -/
theorem Memory.wf_mapValues (d : β) {m : Memory β} (h : Memory.wf d m) (f : β → β) (hf : ∀ v, v ≠ d → f v ≠ d) :
    Memory.wf d (m.mapValues f) := by
  refine ⟨?_, ?_⟩
  · exact List.Pairwise.map _ (fun a b hab => hab) h.1
  · intro e he
    obtain ⟨e', he', rfl⟩ := List.mem_map.mp he
    exact hf e'.2 (h.2 e' he')

/-- Canonical tables that read alike are equal. -/
theorem Memory.eq_of_read_eq (d : β) {m n : Memory β} (hm : Memory.wf d m) (hn : Memory.wf d n)
    (h : ∀ i, m.read d i = n.read d i) : m = n := by
  induction m generalizing n with
  | nil =>
    cases n with
    | nil => rfl
    | cons e rest =>
      have := h e.1
      simp only [Memory.read] at this
      exact absurd this.symm (by simpa [Memory.read] using hn.2 e (by simp))
  | cons e rest ih =>
    obtain ⟨i, v⟩ := e
    have hv : v ≠ d := hm.2 (i, v) (by simp)
    have hlow : ∀ k, k < i → Memory.read d rest k = d := fun k hk =>
      Memory.read_of_forall_ne d rest k fun f hf => by
        have := (List.pairwise_cons.mp hm.1).1 f hf
        simp only at this
        omega
    have hsame : Memory.read d rest i = d :=
      Memory.read_of_forall_ne d rest i fun f hf => by
        have := (List.pairwise_cons.mp hm.1).1 f hf
        simp only at this
        omega
    cases n with
    | nil =>
      have := h i
      simp only [Memory.read, if_pos] at this
      exact absurd this hv
    | cons f rest' =>
      obtain ⟨j, w⟩ := f
      have hw : w ≠ d := hn.2 (j, w) (by simp)
      have hlow' : ∀ k, k ≤ j → Memory.read d rest' k = d := fun k hk =>
        Memory.read_of_forall_ne d rest' k fun f hf => by
          have := (List.pairwise_cons.mp hn.1).1 f hf
          simp only at this
          omega
      have hij : i = j := by
        rcases Nat.lt_trichotomy i j with hlt | heq | hgt
        · have hi := h i
          simp only [Memory.read, if_pos] at hi
          rw [if_neg (by omega), hlow' i (by omega)] at hi
          exact absurd hi hv
        · exact heq
        · have hj := h j
          simp only [Memory.read, if_pos] at hj
          rw [if_neg (by omega), hlow j hgt] at hj
          exact absurd hj.symm hw
      subst hij
      have hvw : v = w := by simpa [Memory.read] using h i
      subst hvw
      have hrest : rest = rest' := by
        refine ih ⟨(List.pairwise_cons.mp hm.1).2, fun e he => hm.2 e (by simp [he])⟩
          ⟨(List.pairwise_cons.mp hn.1).2, fun e he => hn.2 e (by simp [he])⟩ fun k => ?_
        by_cases hk : i = k
        · subst hk
          rw [hsame, hlow' i (Nat.le_refl i)]
        · simpa [Memory.read, hk] using h k
      rw [hrest]

/-- Writing what a canonical table already reads leaves it as it is. -/
theorem Memory.write_read_eq [DecidableEq β] (d : β) {m : Memory β} (h : Memory.wf d m) (k : Nat) :
    m.write d k (m.read d k) = m := by
  refine Memory.eq_of_read_eq d (Memory.wf_write d h k _) h fun i => ?_
  rw [Memory.read_write]
  split
  · rename_i hi
    rw [hi]
  · rfl

end Sys2Proof.Machine
end

