-- ==== Sys2Proof/Laws/State.lean ====
section
/-!
SUPPORT. One lemma for each field under each update of the state, and what the accessors read after an update of their own
field.
-/

namespace Sys2Proof.Machine

/-! ## Values of the four ports -/

/-- What a port reads after a change. -/
theorem PerPort.get_set {α : Type} (x : PerPort α) (p q : Port) (v : α) :
    (x.set p v).get q = if q = p then v else x.get q := by
  cases p <;> cases q <;> rfl

/-- The port changed reads as changed. -/
@[simp] theorem PerPort.get_set_same {α : Type} (x : PerPort α) (p : Port) (v : α) : (x.set p v).get p = v := by
  cases p <;> rfl

/-- Every other port reads as before. -/
@[simp] theorem PerPort.get_set_ne {α : Type} (x : PerPort α) (p q : Port) (v : α) (h : q ≠ p) :
    (x.set p v).get q = x.get q := by simp [PerPort.get_set, h]

/-- A change made twice. -/
@[simp] theorem PerPort.set_set {α : Type} (x : PerPort α) (p : Port) (v w : α) : (x.set p v).set p w = x.set p w := by
  cases p <;> rfl

/-- Putting back what a port reads. -/
@[simp] theorem PerPort.set_get {α : Type} (x : PerPort α) (p : Port) : x.set p (x.get p) = x := by cases p <;> rfl

/-- One value for all ports. -/
@[simp] theorem PerPort.get_fill {α : Type} (v : α) (p : Port) : (PerPort.fill v).get p = v := by cases p <;> rfl

/-- Values that agree port by port are equal. -/
theorem PerPort.eq_of_get {α : Type} {x y : PerPort α} (h : ∀ p, x.get p = y.get p) : x = y := by
  obtain ⟨a, b, c, d⟩ := x
  obtain ⟨a', b', c', d'⟩ := y
  have ha : a = a' := h .A
  have hb : b = b' := h .B
  have hc : c = c' := h .C
  have hd : d = d' := h .D
  rw [ha, hb, hc, hd]

/-! ## setPort -/

@[simp] theorem State.setPort_ports (s : State) (p : Port) (r : PortRecord) :
    (s.setPort p r).ports = s.ports.set p r := rfl
@[simp] theorem State.setPort_phase (s : State) (p : Port) (r : PortRecord) : (s.setPort p r).phase = s.phase := rfl
@[simp] theorem State.setPort_clock (s : State) (p : Port) (r : PortRecord) : (s.setPort p r).clock = s.clock := rfl
@[simp] theorem State.setPort_epoch (s : State) (p : Port) (r : PortRecord) : (s.setPort p r).epoch = s.epoch := rfl
@[simp] theorem State.setPort_tickDue (s : State) (p : Port) (r : PortRecord) : (s.setPort p r).tickDue = s.tickDue := rfl
@[simp] theorem State.setPort_freeWordDue (s : State) (p : Port) (r : PortRecord) : (s.setPort p r).freeWordDue = s.freeWordDue := rfl
@[simp] theorem State.setPort_sessionCounter (s : State) (p : Port) (r : PortRecord) : (s.setPort p r).sessionCounter = s.sessionCounter := rfl
@[simp] theorem State.setPort_links (s : State) (p : Port) (r : PortRecord) : (s.setPort p r).links = s.links := rfl
@[simp] theorem State.setPort_systemZone (s : State) (p : Port) (r : PortRecord) : (s.setPort p r).systemZone = s.systemZone := rfl
@[simp] theorem State.setPort_zones (s : State) (p : Port) (r : PortRecord) : (s.setPort p r).zones = s.zones := rfl
@[simp] theorem State.setPort_bits (s : State) (p : Port) (r : PortRecord) : (s.setPort p r).bits = s.bits := rfl
@[simp] theorem State.setPort_words (s : State) (p : Port) (r : PortRecord) : (s.setPort p r).words = s.words := rfl
@[simp] theorem State.setPort_tokens (s : State) (p : Port) (r : PortRecord) : (s.setPort p r).tokens = s.tokens := rfl
@[simp] theorem State.setPort_timers (s : State) (p : Port) (r : PortRecord) : (s.setPort p r).timers = s.timers := rfl
@[simp] theorem State.setPort_exchange (s : State) (p : Port) (r : PortRecord) : (s.setPort p r).exchange = s.exchange := rfl
@[simp] theorem State.setPort_attention (s : State) (p : Port) (r : PortRecord) : (s.setPort p r).attention = s.attention := rfl
@[simp] theorem State.setPort_faults (s : State) (p : Port) (r : PortRecord) : (s.setPort p r).faults = s.faults := rfl
@[simp] theorem State.setPort_overflow (s : State) (p : Port) (r : PortRecord) : (s.setPort p r).overflow = s.overflow := rfl
@[simp] theorem State.setPort_freeDraws (s : State) (p : Port) (r : PortRecord) : (s.setPort p r).freeDraws = s.freeDraws := rfl
@[simp] theorem State.setPort_pending (s : State) (p : Port) (r : PortRecord) : (s.setPort p r).pending = s.pending := rfl
@[simp] theorem State.setPort_zone (s : State) (p : Port) (r : PortRecord) (z : Nat) : (s.setPort p r).zone z = s.zone z := rfl
@[simp] theorem State.setPort_bit (s : State) (p : Port) (r : PortRecord) (i : Nat) : (s.setPort p r).bit i = s.bit i := rfl
@[simp] theorem State.setPort_word (s : State) (p : Port) (r : PortRecord) (i : Nat) : (s.setPort p r).word i = s.word i := rfl
@[simp] theorem State.setPort_token (s : State) (p : Port) (r : PortRecord) (t : Nat) : (s.setPort p r).token t = s.token t := rfl
@[simp] theorem State.setPort_timer (s : State) (p : Port) (r : PortRecord) (t : Nat) : (s.setPort p r).timer t = s.timer t := rfl

/-! ## setLink -/

@[simp] theorem State.setLink_links (s : State) (p : Port) (l : Link) : (s.setLink p l).links = s.links.set p l := rfl
@[simp] theorem State.setLink_phase (s : State) (p : Port) (l : Link) : (s.setLink p l).phase = s.phase := rfl
@[simp] theorem State.setLink_clock (s : State) (p : Port) (l : Link) : (s.setLink p l).clock = s.clock := rfl
@[simp] theorem State.setLink_epoch (s : State) (p : Port) (l : Link) : (s.setLink p l).epoch = s.epoch := rfl
@[simp] theorem State.setLink_tickDue (s : State) (p : Port) (l : Link) : (s.setLink p l).tickDue = s.tickDue := rfl
@[simp] theorem State.setLink_freeWordDue (s : State) (p : Port) (l : Link) : (s.setLink p l).freeWordDue = s.freeWordDue := rfl
@[simp] theorem State.setLink_sessionCounter (s : State) (p : Port) (l : Link) : (s.setLink p l).sessionCounter = s.sessionCounter := rfl
@[simp] theorem State.setLink_ports (s : State) (p : Port) (l : Link) : (s.setLink p l).ports = s.ports := rfl
@[simp] theorem State.setLink_systemZone (s : State) (p : Port) (l : Link) : (s.setLink p l).systemZone = s.systemZone := rfl
@[simp] theorem State.setLink_zones (s : State) (p : Port) (l : Link) : (s.setLink p l).zones = s.zones := rfl
@[simp] theorem State.setLink_bits (s : State) (p : Port) (l : Link) : (s.setLink p l).bits = s.bits := rfl
@[simp] theorem State.setLink_words (s : State) (p : Port) (l : Link) : (s.setLink p l).words = s.words := rfl
@[simp] theorem State.setLink_tokens (s : State) (p : Port) (l : Link) : (s.setLink p l).tokens = s.tokens := rfl
@[simp] theorem State.setLink_timers (s : State) (p : Port) (l : Link) : (s.setLink p l).timers = s.timers := rfl
@[simp] theorem State.setLink_exchange (s : State) (p : Port) (l : Link) : (s.setLink p l).exchange = s.exchange := rfl
@[simp] theorem State.setLink_attention (s : State) (p : Port) (l : Link) : (s.setLink p l).attention = s.attention := rfl
@[simp] theorem State.setLink_faults (s : State) (p : Port) (l : Link) : (s.setLink p l).faults = s.faults := rfl
@[simp] theorem State.setLink_overflow (s : State) (p : Port) (l : Link) : (s.setLink p l).overflow = s.overflow := rfl
@[simp] theorem State.setLink_freeDraws (s : State) (p : Port) (l : Link) : (s.setLink p l).freeDraws = s.freeDraws := rfl
@[simp] theorem State.setLink_pending (s : State) (p : Port) (l : Link) : (s.setLink p l).pending = s.pending := rfl
@[simp] theorem State.setLink_session (s : State) (p : Port) (l : Link) (q : Port) : (s.setLink p l).session q = s.session q := rfl
@[simp] theorem State.setLink_zone (s : State) (p : Port) (l : Link) (z : Nat) : (s.setLink p l).zone z = s.zone z := rfl
@[simp] theorem State.setLink_bit (s : State) (p : Port) (l : Link) (i : Nat) : (s.setLink p l).bit i = s.bit i := rfl
@[simp] theorem State.setLink_word (s : State) (p : Port) (l : Link) (i : Nat) : (s.setLink p l).word i = s.word i := rfl
@[simp] theorem State.setLink_token (s : State) (p : Port) (l : Link) (t : Nat) : (s.setLink p l).token t = s.token t := rfl
@[simp] theorem State.setLink_timer (s : State) (p : Port) (l : Link) (t : Nat) : (s.setLink p l).timer t = s.timer t := rfl

/-! ## setZone -/

@[simp] theorem State.setZone_zones (s : State) (n : Nat) (r : Option ZoneRecord) :
    (s.setZone n r).zones = s.zones.write none n r := rfl
@[simp] theorem State.setZone_phase (s : State) (n : Nat) (r : Option ZoneRecord) : (s.setZone n r).phase = s.phase := rfl
@[simp] theorem State.setZone_clock (s : State) (n : Nat) (r : Option ZoneRecord) : (s.setZone n r).clock = s.clock := rfl
@[simp] theorem State.setZone_epoch (s : State) (n : Nat) (r : Option ZoneRecord) : (s.setZone n r).epoch = s.epoch := rfl
@[simp] theorem State.setZone_tickDue (s : State) (n : Nat) (r : Option ZoneRecord) : (s.setZone n r).tickDue = s.tickDue := rfl
@[simp] theorem State.setZone_freeWordDue (s : State) (n : Nat) (r : Option ZoneRecord) : (s.setZone n r).freeWordDue = s.freeWordDue := rfl
@[simp] theorem State.setZone_sessionCounter (s : State) (n : Nat) (r : Option ZoneRecord) : (s.setZone n r).sessionCounter = s.sessionCounter := rfl
@[simp] theorem State.setZone_links (s : State) (n : Nat) (r : Option ZoneRecord) : (s.setZone n r).links = s.links := rfl
@[simp] theorem State.setZone_ports (s : State) (n : Nat) (r : Option ZoneRecord) : (s.setZone n r).ports = s.ports := rfl
@[simp] theorem State.setZone_systemZone (s : State) (n : Nat) (r : Option ZoneRecord) : (s.setZone n r).systemZone = s.systemZone := rfl
@[simp] theorem State.setZone_bits (s : State) (n : Nat) (r : Option ZoneRecord) : (s.setZone n r).bits = s.bits := rfl
@[simp] theorem State.setZone_words (s : State) (n : Nat) (r : Option ZoneRecord) : (s.setZone n r).words = s.words := rfl
@[simp] theorem State.setZone_tokens (s : State) (n : Nat) (r : Option ZoneRecord) : (s.setZone n r).tokens = s.tokens := rfl
@[simp] theorem State.setZone_timers (s : State) (n : Nat) (r : Option ZoneRecord) : (s.setZone n r).timers = s.timers := rfl
@[simp] theorem State.setZone_exchange (s : State) (n : Nat) (r : Option ZoneRecord) : (s.setZone n r).exchange = s.exchange := rfl
@[simp] theorem State.setZone_attention (s : State) (n : Nat) (r : Option ZoneRecord) : (s.setZone n r).attention = s.attention := rfl
@[simp] theorem State.setZone_faults (s : State) (n : Nat) (r : Option ZoneRecord) : (s.setZone n r).faults = s.faults := rfl
@[simp] theorem State.setZone_overflow (s : State) (n : Nat) (r : Option ZoneRecord) : (s.setZone n r).overflow = s.overflow := rfl
@[simp] theorem State.setZone_freeDraws (s : State) (n : Nat) (r : Option ZoneRecord) : (s.setZone n r).freeDraws = s.freeDraws := rfl
@[simp] theorem State.setZone_pending (s : State) (n : Nat) (r : Option ZoneRecord) : (s.setZone n r).pending = s.pending := rfl
@[simp] theorem State.setZone_session (s : State) (n : Nat) (r : Option ZoneRecord) (q : Port) : (s.setZone n r).session q = s.session q := rfl
@[simp] theorem State.setZone_bit (s : State) (n : Nat) (r : Option ZoneRecord) (i : Nat) : (s.setZone n r).bit i = s.bit i := rfl
@[simp] theorem State.setZone_word (s : State) (n : Nat) (r : Option ZoneRecord) (i : Nat) : (s.setZone n r).word i = s.word i := rfl
@[simp] theorem State.setZone_token (s : State) (n : Nat) (r : Option ZoneRecord) (t : Nat) : (s.setZone n r).token t = s.token t := rfl
@[simp] theorem State.setZone_timer (s : State) (n : Nat) (r : Option ZoneRecord) (t : Nat) : (s.setZone n r).timer t = s.timer t := rfl

/-! ## setToken -/

@[simp] theorem State.setToken_tokens (s : State) (n : Nat) (r : Token) :
    (s.setToken n r).tokens = s.tokens.write Token.powerOn n r := rfl
@[simp] theorem State.setToken_phase (s : State) (n : Nat) (r : Token) : (s.setToken n r).phase = s.phase := rfl
@[simp] theorem State.setToken_clock (s : State) (n : Nat) (r : Token) : (s.setToken n r).clock = s.clock := rfl
@[simp] theorem State.setToken_epoch (s : State) (n : Nat) (r : Token) : (s.setToken n r).epoch = s.epoch := rfl
@[simp] theorem State.setToken_tickDue (s : State) (n : Nat) (r : Token) : (s.setToken n r).tickDue = s.tickDue := rfl
@[simp] theorem State.setToken_freeWordDue (s : State) (n : Nat) (r : Token) : (s.setToken n r).freeWordDue = s.freeWordDue := rfl
@[simp] theorem State.setToken_sessionCounter (s : State) (n : Nat) (r : Token) : (s.setToken n r).sessionCounter = s.sessionCounter := rfl
@[simp] theorem State.setToken_links (s : State) (n : Nat) (r : Token) : (s.setToken n r).links = s.links := rfl
@[simp] theorem State.setToken_ports (s : State) (n : Nat) (r : Token) : (s.setToken n r).ports = s.ports := rfl
@[simp] theorem State.setToken_systemZone (s : State) (n : Nat) (r : Token) : (s.setToken n r).systemZone = s.systemZone := rfl
@[simp] theorem State.setToken_zones (s : State) (n : Nat) (r : Token) : (s.setToken n r).zones = s.zones := rfl
@[simp] theorem State.setToken_bits (s : State) (n : Nat) (r : Token) : (s.setToken n r).bits = s.bits := rfl
@[simp] theorem State.setToken_words (s : State) (n : Nat) (r : Token) : (s.setToken n r).words = s.words := rfl
@[simp] theorem State.setToken_timers (s : State) (n : Nat) (r : Token) : (s.setToken n r).timers = s.timers := rfl
@[simp] theorem State.setToken_exchange (s : State) (n : Nat) (r : Token) : (s.setToken n r).exchange = s.exchange := rfl
@[simp] theorem State.setToken_attention (s : State) (n : Nat) (r : Token) : (s.setToken n r).attention = s.attention := rfl
@[simp] theorem State.setToken_faults (s : State) (n : Nat) (r : Token) : (s.setToken n r).faults = s.faults := rfl
@[simp] theorem State.setToken_overflow (s : State) (n : Nat) (r : Token) : (s.setToken n r).overflow = s.overflow := rfl
@[simp] theorem State.setToken_freeDraws (s : State) (n : Nat) (r : Token) : (s.setToken n r).freeDraws = s.freeDraws := rfl
@[simp] theorem State.setToken_pending (s : State) (n : Nat) (r : Token) : (s.setToken n r).pending = s.pending := rfl
@[simp] theorem State.setToken_session (s : State) (n : Nat) (r : Token) (q : Port) : (s.setToken n r).session q = s.session q := rfl
@[simp] theorem State.setToken_zone (s : State) (n : Nat) (r : Token) (z : Nat) : (s.setToken n r).zone z = s.zone z := rfl
@[simp] theorem State.setToken_bit (s : State) (n : Nat) (r : Token) (i : Nat) : (s.setToken n r).bit i = s.bit i := rfl
@[simp] theorem State.setToken_word (s : State) (n : Nat) (r : Token) (i : Nat) : (s.setToken n r).word i = s.word i := rfl
@[simp] theorem State.setToken_timer (s : State) (n : Nat) (r : Token) (t : Nat) : (s.setToken n r).timer t = s.timer t := rfl

/-! ## setTimer -/

@[simp] theorem State.setTimer_timers (s : State) (n : Nat) (r : Option Armed) :
    (s.setTimer n r).timers = s.timers.write none n r := rfl
@[simp] theorem State.setTimer_phase (s : State) (n : Nat) (r : Option Armed) : (s.setTimer n r).phase = s.phase := rfl
@[simp] theorem State.setTimer_clock (s : State) (n : Nat) (r : Option Armed) : (s.setTimer n r).clock = s.clock := rfl
@[simp] theorem State.setTimer_epoch (s : State) (n : Nat) (r : Option Armed) : (s.setTimer n r).epoch = s.epoch := rfl
@[simp] theorem State.setTimer_tickDue (s : State) (n : Nat) (r : Option Armed) : (s.setTimer n r).tickDue = s.tickDue := rfl
@[simp] theorem State.setTimer_freeWordDue (s : State) (n : Nat) (r : Option Armed) : (s.setTimer n r).freeWordDue = s.freeWordDue := rfl
@[simp] theorem State.setTimer_sessionCounter (s : State) (n : Nat) (r : Option Armed) : (s.setTimer n r).sessionCounter = s.sessionCounter := rfl
@[simp] theorem State.setTimer_links (s : State) (n : Nat) (r : Option Armed) : (s.setTimer n r).links = s.links := rfl
@[simp] theorem State.setTimer_ports (s : State) (n : Nat) (r : Option Armed) : (s.setTimer n r).ports = s.ports := rfl
@[simp] theorem State.setTimer_systemZone (s : State) (n : Nat) (r : Option Armed) : (s.setTimer n r).systemZone = s.systemZone := rfl
@[simp] theorem State.setTimer_zones (s : State) (n : Nat) (r : Option Armed) : (s.setTimer n r).zones = s.zones := rfl
@[simp] theorem State.setTimer_bits (s : State) (n : Nat) (r : Option Armed) : (s.setTimer n r).bits = s.bits := rfl
@[simp] theorem State.setTimer_words (s : State) (n : Nat) (r : Option Armed) : (s.setTimer n r).words = s.words := rfl
@[simp] theorem State.setTimer_tokens (s : State) (n : Nat) (r : Option Armed) : (s.setTimer n r).tokens = s.tokens := rfl
@[simp] theorem State.setTimer_exchange (s : State) (n : Nat) (r : Option Armed) : (s.setTimer n r).exchange = s.exchange := rfl
@[simp] theorem State.setTimer_attention (s : State) (n : Nat) (r : Option Armed) : (s.setTimer n r).attention = s.attention := rfl
@[simp] theorem State.setTimer_faults (s : State) (n : Nat) (r : Option Armed) : (s.setTimer n r).faults = s.faults := rfl
@[simp] theorem State.setTimer_overflow (s : State) (n : Nat) (r : Option Armed) : (s.setTimer n r).overflow = s.overflow := rfl
@[simp] theorem State.setTimer_freeDraws (s : State) (n : Nat) (r : Option Armed) : (s.setTimer n r).freeDraws = s.freeDraws := rfl
@[simp] theorem State.setTimer_pending (s : State) (n : Nat) (r : Option Armed) : (s.setTimer n r).pending = s.pending := rfl
@[simp] theorem State.setTimer_session (s : State) (n : Nat) (r : Option Armed) (q : Port) : (s.setTimer n r).session q = s.session q := rfl
@[simp] theorem State.setTimer_zone (s : State) (n : Nat) (r : Option Armed) (z : Nat) : (s.setTimer n r).zone z = s.zone z := rfl
@[simp] theorem State.setTimer_bit (s : State) (n : Nat) (r : Option Armed) (i : Nat) : (s.setTimer n r).bit i = s.bit i := rfl
@[simp] theorem State.setTimer_word (s : State) (n : Nat) (r : Option Armed) (i : Nat) : (s.setTimer n r).word i = s.word i := rfl
@[simp] theorem State.setTimer_token (s : State) (n : Nat) (r : Option Armed) (t : Nat) : (s.setTimer n r).token t = s.token t := rfl

/-! ## setBuffer -/

@[simp] theorem State.setBuffer_exchange (s : State) (b : Nat) (r : Option Buffer) :
    (s.setBuffer b r).exchange = { s.exchange with buffers := s.exchange.buffers.write none b r } := rfl
@[simp] theorem State.setBuffer_phase (s : State) (b : Nat) (r : Option Buffer) : (s.setBuffer b r).phase = s.phase := rfl
@[simp] theorem State.setBuffer_clock (s : State) (b : Nat) (r : Option Buffer) : (s.setBuffer b r).clock = s.clock := rfl
@[simp] theorem State.setBuffer_epoch (s : State) (b : Nat) (r : Option Buffer) : (s.setBuffer b r).epoch = s.epoch := rfl
@[simp] theorem State.setBuffer_tickDue (s : State) (b : Nat) (r : Option Buffer) : (s.setBuffer b r).tickDue = s.tickDue := rfl
@[simp] theorem State.setBuffer_freeWordDue (s : State) (b : Nat) (r : Option Buffer) : (s.setBuffer b r).freeWordDue = s.freeWordDue := rfl
@[simp] theorem State.setBuffer_sessionCounter (s : State) (b : Nat) (r : Option Buffer) : (s.setBuffer b r).sessionCounter = s.sessionCounter := rfl
@[simp] theorem State.setBuffer_links (s : State) (b : Nat) (r : Option Buffer) : (s.setBuffer b r).links = s.links := rfl
@[simp] theorem State.setBuffer_ports (s : State) (b : Nat) (r : Option Buffer) : (s.setBuffer b r).ports = s.ports := rfl
@[simp] theorem State.setBuffer_systemZone (s : State) (b : Nat) (r : Option Buffer) : (s.setBuffer b r).systemZone = s.systemZone := rfl
@[simp] theorem State.setBuffer_zones (s : State) (b : Nat) (r : Option Buffer) : (s.setBuffer b r).zones = s.zones := rfl
@[simp] theorem State.setBuffer_bits (s : State) (b : Nat) (r : Option Buffer) : (s.setBuffer b r).bits = s.bits := rfl
@[simp] theorem State.setBuffer_words (s : State) (b : Nat) (r : Option Buffer) : (s.setBuffer b r).words = s.words := rfl
@[simp] theorem State.setBuffer_tokens (s : State) (b : Nat) (r : Option Buffer) : (s.setBuffer b r).tokens = s.tokens := rfl
@[simp] theorem State.setBuffer_timers (s : State) (b : Nat) (r : Option Buffer) : (s.setBuffer b r).timers = s.timers := rfl
@[simp] theorem State.setBuffer_attention (s : State) (b : Nat) (r : Option Buffer) : (s.setBuffer b r).attention = s.attention := rfl
@[simp] theorem State.setBuffer_faults (s : State) (b : Nat) (r : Option Buffer) : (s.setBuffer b r).faults = s.faults := rfl
@[simp] theorem State.setBuffer_overflow (s : State) (b : Nat) (r : Option Buffer) : (s.setBuffer b r).overflow = s.overflow := rfl
@[simp] theorem State.setBuffer_freeDraws (s : State) (b : Nat) (r : Option Buffer) : (s.setBuffer b r).freeDraws = s.freeDraws := rfl
@[simp] theorem State.setBuffer_pending (s : State) (b : Nat) (r : Option Buffer) : (s.setBuffer b r).pending = s.pending := rfl
@[simp] theorem State.setBuffer_session (s : State) (b : Nat) (r : Option Buffer) (q : Port) : (s.setBuffer b r).session q = s.session q := rfl
@[simp] theorem State.setBuffer_zone (s : State) (b : Nat) (r : Option Buffer) (z : Nat) : (s.setBuffer b r).zone z = s.zone z := rfl
@[simp] theorem State.setBuffer_bit (s : State) (b : Nat) (r : Option Buffer) (i : Nat) : (s.setBuffer b r).bit i = s.bit i := rfl
@[simp] theorem State.setBuffer_word (s : State) (b : Nat) (r : Option Buffer) (i : Nat) : (s.setBuffer b r).word i = s.word i := rfl
@[simp] theorem State.setBuffer_token (s : State) (b : Nat) (r : Option Buffer) (t : Nat) : (s.setBuffer b r).token t = s.token t := rfl
@[simp] theorem State.setBuffer_timer (s : State) (b : Nat) (r : Option Buffer) (t : Nat) : (s.setBuffer b r).timer t = s.timer t := rfl

/-! ## mapTimers -/

@[simp] theorem State.mapTimers_timers (s : State) (f : Armed → Armed) :
    (s.mapTimers f).timers = s.timers.mapValues (Option.map f) := rfl
@[simp] theorem State.mapTimers_phase (s : State) (f : Armed → Armed) : (s.mapTimers f).phase = s.phase := rfl
@[simp] theorem State.mapTimers_clock (s : State) (f : Armed → Armed) : (s.mapTimers f).clock = s.clock := rfl
@[simp] theorem State.mapTimers_epoch (s : State) (f : Armed → Armed) : (s.mapTimers f).epoch = s.epoch := rfl
@[simp] theorem State.mapTimers_tickDue (s : State) (f : Armed → Armed) : (s.mapTimers f).tickDue = s.tickDue := rfl
@[simp] theorem State.mapTimers_freeWordDue (s : State) (f : Armed → Armed) : (s.mapTimers f).freeWordDue = s.freeWordDue := rfl
@[simp] theorem State.mapTimers_sessionCounter (s : State) (f : Armed → Armed) : (s.mapTimers f).sessionCounter = s.sessionCounter := rfl
@[simp] theorem State.mapTimers_links (s : State) (f : Armed → Armed) : (s.mapTimers f).links = s.links := rfl
@[simp] theorem State.mapTimers_ports (s : State) (f : Armed → Armed) : (s.mapTimers f).ports = s.ports := rfl
@[simp] theorem State.mapTimers_systemZone (s : State) (f : Armed → Armed) : (s.mapTimers f).systemZone = s.systemZone := rfl
@[simp] theorem State.mapTimers_zones (s : State) (f : Armed → Armed) : (s.mapTimers f).zones = s.zones := rfl
@[simp] theorem State.mapTimers_bits (s : State) (f : Armed → Armed) : (s.mapTimers f).bits = s.bits := rfl
@[simp] theorem State.mapTimers_words (s : State) (f : Armed → Armed) : (s.mapTimers f).words = s.words := rfl
@[simp] theorem State.mapTimers_tokens (s : State) (f : Armed → Armed) : (s.mapTimers f).tokens = s.tokens := rfl
@[simp] theorem State.mapTimers_exchange (s : State) (f : Armed → Armed) : (s.mapTimers f).exchange = s.exchange := rfl
@[simp] theorem State.mapTimers_attention (s : State) (f : Armed → Armed) : (s.mapTimers f).attention = s.attention := rfl
@[simp] theorem State.mapTimers_faults (s : State) (f : Armed → Armed) : (s.mapTimers f).faults = s.faults := rfl
@[simp] theorem State.mapTimers_overflow (s : State) (f : Armed → Armed) : (s.mapTimers f).overflow = s.overflow := rfl
@[simp] theorem State.mapTimers_freeDraws (s : State) (f : Armed → Armed) : (s.mapTimers f).freeDraws = s.freeDraws := rfl
@[simp] theorem State.mapTimers_pending (s : State) (f : Armed → Armed) : (s.mapTimers f).pending = s.pending := rfl
@[simp] theorem State.mapTimers_session (s : State) (f : Armed → Armed) (q : Port) : (s.mapTimers f).session q = s.session q := rfl
@[simp] theorem State.mapTimers_zone (s : State) (f : Armed → Armed) (z : Nat) : (s.mapTimers f).zone z = s.zone z := rfl
@[simp] theorem State.mapTimers_bit (s : State) (f : Armed → Armed) (i : Nat) : (s.mapTimers f).bit i = s.bit i := rfl
@[simp] theorem State.mapTimers_word (s : State) (f : Armed → Armed) (i : Nat) : (s.mapTimers f).word i = s.word i := rfl
@[simp] theorem State.mapTimers_token (s : State) (f : Armed → Armed) (t : Nat) : (s.mapTimers f).token t = s.token t := rfl

/-! ## mapAttention -/

@[simp] theorem State.mapAttention_attention (s : State) (f : AttentionRecord → AttentionRecord) :
    (s.mapAttention f).attention =
      { a := s.attention.a.map f, b := s.attention.b.map f, c := s.attention.c.map f, d := s.attention.d.map f } := rfl
@[simp] theorem State.mapAttention_phase (s : State) (f : AttentionRecord → AttentionRecord) : (s.mapAttention f).phase = s.phase := rfl
@[simp] theorem State.mapAttention_clock (s : State) (f : AttentionRecord → AttentionRecord) : (s.mapAttention f).clock = s.clock := rfl
@[simp] theorem State.mapAttention_epoch (s : State) (f : AttentionRecord → AttentionRecord) : (s.mapAttention f).epoch = s.epoch := rfl
@[simp] theorem State.mapAttention_tickDue (s : State) (f : AttentionRecord → AttentionRecord) : (s.mapAttention f).tickDue = s.tickDue := rfl
@[simp] theorem State.mapAttention_freeWordDue (s : State) (f : AttentionRecord → AttentionRecord) : (s.mapAttention f).freeWordDue = s.freeWordDue := rfl
@[simp] theorem State.mapAttention_sessionCounter (s : State) (f : AttentionRecord → AttentionRecord) : (s.mapAttention f).sessionCounter = s.sessionCounter := rfl
@[simp] theorem State.mapAttention_links (s : State) (f : AttentionRecord → AttentionRecord) : (s.mapAttention f).links = s.links := rfl
@[simp] theorem State.mapAttention_ports (s : State) (f : AttentionRecord → AttentionRecord) : (s.mapAttention f).ports = s.ports := rfl
@[simp] theorem State.mapAttention_systemZone (s : State) (f : AttentionRecord → AttentionRecord) : (s.mapAttention f).systemZone = s.systemZone := rfl
@[simp] theorem State.mapAttention_zones (s : State) (f : AttentionRecord → AttentionRecord) : (s.mapAttention f).zones = s.zones := rfl
@[simp] theorem State.mapAttention_bits (s : State) (f : AttentionRecord → AttentionRecord) : (s.mapAttention f).bits = s.bits := rfl
@[simp] theorem State.mapAttention_words (s : State) (f : AttentionRecord → AttentionRecord) : (s.mapAttention f).words = s.words := rfl
@[simp] theorem State.mapAttention_tokens (s : State) (f : AttentionRecord → AttentionRecord) : (s.mapAttention f).tokens = s.tokens := rfl
@[simp] theorem State.mapAttention_timers (s : State) (f : AttentionRecord → AttentionRecord) : (s.mapAttention f).timers = s.timers := rfl
@[simp] theorem State.mapAttention_exchange (s : State) (f : AttentionRecord → AttentionRecord) : (s.mapAttention f).exchange = s.exchange := rfl
@[simp] theorem State.mapAttention_faults (s : State) (f : AttentionRecord → AttentionRecord) : (s.mapAttention f).faults = s.faults := rfl
@[simp] theorem State.mapAttention_overflow (s : State) (f : AttentionRecord → AttentionRecord) : (s.mapAttention f).overflow = s.overflow := rfl
@[simp] theorem State.mapAttention_freeDraws (s : State) (f : AttentionRecord → AttentionRecord) : (s.mapAttention f).freeDraws = s.freeDraws := rfl
@[simp] theorem State.mapAttention_pending (s : State) (f : AttentionRecord → AttentionRecord) : (s.mapAttention f).pending = s.pending := rfl
@[simp] theorem State.mapAttention_session (s : State) (f : AttentionRecord → AttentionRecord) (q : Port) : (s.mapAttention f).session q = s.session q := rfl
@[simp] theorem State.mapAttention_zone (s : State) (f : AttentionRecord → AttentionRecord) (z : Nat) : (s.mapAttention f).zone z = s.zone z := rfl
@[simp] theorem State.mapAttention_bit (s : State) (f : AttentionRecord → AttentionRecord) (i : Nat) : (s.mapAttention f).bit i = s.bit i := rfl
@[simp] theorem State.mapAttention_word (s : State) (f : AttentionRecord → AttentionRecord) (i : Nat) : (s.mapAttention f).word i = s.word i := rfl
@[simp] theorem State.mapAttention_token (s : State) (f : AttentionRecord → AttentionRecord) (t : Nat) : (s.mapAttention f).token t = s.token t := rfl
@[simp] theorem State.mapAttention_timer (s : State) (f : AttentionRecord → AttentionRecord) (t : Nat) : (s.mapAttention f).timer t = s.timer t := rfl

/-! ## mapMessages -/

@[simp] theorem State.mapMessages_exchange (s : State) (p : Port) (f : MessageSession → MessageSession) :
    (s.mapMessages p f).exchange =
      { s.exchange with sessions := s.exchange.sessions.set p ((s.exchange.sessions.get p).map f) } := rfl
@[simp] theorem State.mapMessages_phase (s : State) (p : Port) (f : MessageSession → MessageSession) : (s.mapMessages p f).phase = s.phase := rfl
@[simp] theorem State.mapMessages_clock (s : State) (p : Port) (f : MessageSession → MessageSession) : (s.mapMessages p f).clock = s.clock := rfl
@[simp] theorem State.mapMessages_epoch (s : State) (p : Port) (f : MessageSession → MessageSession) : (s.mapMessages p f).epoch = s.epoch := rfl
@[simp] theorem State.mapMessages_tickDue (s : State) (p : Port) (f : MessageSession → MessageSession) : (s.mapMessages p f).tickDue = s.tickDue := rfl
@[simp] theorem State.mapMessages_freeWordDue (s : State) (p : Port) (f : MessageSession → MessageSession) : (s.mapMessages p f).freeWordDue = s.freeWordDue := rfl
@[simp] theorem State.mapMessages_sessionCounter (s : State) (p : Port) (f : MessageSession → MessageSession) : (s.mapMessages p f).sessionCounter = s.sessionCounter := rfl
@[simp] theorem State.mapMessages_links (s : State) (p : Port) (f : MessageSession → MessageSession) : (s.mapMessages p f).links = s.links := rfl
@[simp] theorem State.mapMessages_ports (s : State) (p : Port) (f : MessageSession → MessageSession) : (s.mapMessages p f).ports = s.ports := rfl
@[simp] theorem State.mapMessages_systemZone (s : State) (p : Port) (f : MessageSession → MessageSession) : (s.mapMessages p f).systemZone = s.systemZone := rfl
@[simp] theorem State.mapMessages_zones (s : State) (p : Port) (f : MessageSession → MessageSession) : (s.mapMessages p f).zones = s.zones := rfl
@[simp] theorem State.mapMessages_bits (s : State) (p : Port) (f : MessageSession → MessageSession) : (s.mapMessages p f).bits = s.bits := rfl
@[simp] theorem State.mapMessages_words (s : State) (p : Port) (f : MessageSession → MessageSession) : (s.mapMessages p f).words = s.words := rfl
@[simp] theorem State.mapMessages_tokens (s : State) (p : Port) (f : MessageSession → MessageSession) : (s.mapMessages p f).tokens = s.tokens := rfl
@[simp] theorem State.mapMessages_timers (s : State) (p : Port) (f : MessageSession → MessageSession) : (s.mapMessages p f).timers = s.timers := rfl
@[simp] theorem State.mapMessages_attention (s : State) (p : Port) (f : MessageSession → MessageSession) : (s.mapMessages p f).attention = s.attention := rfl
@[simp] theorem State.mapMessages_faults (s : State) (p : Port) (f : MessageSession → MessageSession) : (s.mapMessages p f).faults = s.faults := rfl
@[simp] theorem State.mapMessages_overflow (s : State) (p : Port) (f : MessageSession → MessageSession) : (s.mapMessages p f).overflow = s.overflow := rfl
@[simp] theorem State.mapMessages_freeDraws (s : State) (p : Port) (f : MessageSession → MessageSession) : (s.mapMessages p f).freeDraws = s.freeDraws := rfl
@[simp] theorem State.mapMessages_pending (s : State) (p : Port) (f : MessageSession → MessageSession) : (s.mapMessages p f).pending = s.pending := rfl
@[simp] theorem State.mapMessages_session (s : State) (p : Port) (f : MessageSession → MessageSession) (q : Port) : (s.mapMessages p f).session q = s.session q := rfl
@[simp] theorem State.mapMessages_zone (s : State) (p : Port) (f : MessageSession → MessageSession) (z : Nat) : (s.mapMessages p f).zone z = s.zone z := rfl
@[simp] theorem State.mapMessages_bit (s : State) (p : Port) (f : MessageSession → MessageSession) (i : Nat) : (s.mapMessages p f).bit i = s.bit i := rfl
@[simp] theorem State.mapMessages_word (s : State) (p : Port) (f : MessageSession → MessageSession) (i : Nat) : (s.mapMessages p f).word i = s.word i := rfl
@[simp] theorem State.mapMessages_token (s : State) (p : Port) (f : MessageSession → MessageSession) (t : Nat) : (s.mapMessages p f).token t = s.token t := rfl
@[simp] theorem State.mapMessages_timer (s : State) (p : Port) (f : MessageSession → MessageSession) (t : Nat) : (s.mapMessages p f).timer t = s.timer t := rfl

/-! ## setQueues -/

@[simp] theorem State.setQueues_exchange (s : State) (p : Port) (u n : List Entry) :
    (s.setQueues p u n).exchange =
      { s.exchange with urgent := s.exchange.urgent.set p u, normal := s.exchange.normal.set p n } := rfl
@[simp] theorem State.setQueues_phase (s : State) (p : Port) (u n : List Entry) : (s.setQueues p u n).phase = s.phase := rfl
@[simp] theorem State.setQueues_clock (s : State) (p : Port) (u n : List Entry) : (s.setQueues p u n).clock = s.clock := rfl
@[simp] theorem State.setQueues_epoch (s : State) (p : Port) (u n : List Entry) : (s.setQueues p u n).epoch = s.epoch := rfl
@[simp] theorem State.setQueues_tickDue (s : State) (p : Port) (u n : List Entry) : (s.setQueues p u n).tickDue = s.tickDue := rfl
@[simp] theorem State.setQueues_freeWordDue (s : State) (p : Port) (u n : List Entry) : (s.setQueues p u n).freeWordDue = s.freeWordDue := rfl
@[simp] theorem State.setQueues_sessionCounter (s : State) (p : Port) (u n : List Entry) : (s.setQueues p u n).sessionCounter = s.sessionCounter := rfl
@[simp] theorem State.setQueues_links (s : State) (p : Port) (u n : List Entry) : (s.setQueues p u n).links = s.links := rfl
@[simp] theorem State.setQueues_ports (s : State) (p : Port) (u n : List Entry) : (s.setQueues p u n).ports = s.ports := rfl
@[simp] theorem State.setQueues_systemZone (s : State) (p : Port) (u n : List Entry) : (s.setQueues p u n).systemZone = s.systemZone := rfl
@[simp] theorem State.setQueues_zones (s : State) (p : Port) (u n : List Entry) : (s.setQueues p u n).zones = s.zones := rfl
@[simp] theorem State.setQueues_bits (s : State) (p : Port) (u n : List Entry) : (s.setQueues p u n).bits = s.bits := rfl
@[simp] theorem State.setQueues_words (s : State) (p : Port) (u n : List Entry) : (s.setQueues p u n).words = s.words := rfl
@[simp] theorem State.setQueues_tokens (s : State) (p : Port) (u n : List Entry) : (s.setQueues p u n).tokens = s.tokens := rfl
@[simp] theorem State.setQueues_timers (s : State) (p : Port) (u n : List Entry) : (s.setQueues p u n).timers = s.timers := rfl
@[simp] theorem State.setQueues_attention (s : State) (p : Port) (u n : List Entry) : (s.setQueues p u n).attention = s.attention := rfl
@[simp] theorem State.setQueues_faults (s : State) (p : Port) (u n : List Entry) : (s.setQueues p u n).faults = s.faults := rfl
@[simp] theorem State.setQueues_overflow (s : State) (p : Port) (u n : List Entry) : (s.setQueues p u n).overflow = s.overflow := rfl
@[simp] theorem State.setQueues_freeDraws (s : State) (p : Port) (u n : List Entry) : (s.setQueues p u n).freeDraws = s.freeDraws := rfl
@[simp] theorem State.setQueues_pending (s : State) (p : Port) (u n : List Entry) : (s.setQueues p u n).pending = s.pending := rfl
@[simp] theorem State.setQueues_session (s : State) (p : Port) (u n : List Entry) (q : Port) : (s.setQueues p u n).session q = s.session q := rfl
@[simp] theorem State.setQueues_zone (s : State) (p : Port) (u n : List Entry) (z : Nat) : (s.setQueues p u n).zone z = s.zone z := rfl
@[simp] theorem State.setQueues_bit (s : State) (p : Port) (u n : List Entry) (i : Nat) : (s.setQueues p u n).bit i = s.bit i := rfl
@[simp] theorem State.setQueues_word (s : State) (p : Port) (u n : List Entry) (i : Nat) : (s.setQueues p u n).word i = s.word i := rfl
@[simp] theorem State.setQueues_token (s : State) (p : Port) (u n : List Entry) (t : Nat) : (s.setQueues p u n).token t = s.token t := rfl
@[simp] theorem State.setQueues_timer (s : State) (p : Port) (u n : List Entry) (t : Nat) : (s.setQueues p u n).timer t = s.timer t := rfl

/-! ## dropAttention -/

@[simp] theorem State.dropAttention_attention (s : State) (p : Port) :
    (s.dropAttention p).attention = s.attention.set p none := rfl
@[simp] theorem State.dropAttention_phase (s : State) (p : Port) : (s.dropAttention p).phase = s.phase := rfl
@[simp] theorem State.dropAttention_clock (s : State) (p : Port) : (s.dropAttention p).clock = s.clock := rfl
@[simp] theorem State.dropAttention_epoch (s : State) (p : Port) : (s.dropAttention p).epoch = s.epoch := rfl
@[simp] theorem State.dropAttention_tickDue (s : State) (p : Port) : (s.dropAttention p).tickDue = s.tickDue := rfl
@[simp] theorem State.dropAttention_freeWordDue (s : State) (p : Port) : (s.dropAttention p).freeWordDue = s.freeWordDue := rfl
@[simp] theorem State.dropAttention_sessionCounter (s : State) (p : Port) : (s.dropAttention p).sessionCounter = s.sessionCounter := rfl
@[simp] theorem State.dropAttention_links (s : State) (p : Port) : (s.dropAttention p).links = s.links := rfl
@[simp] theorem State.dropAttention_ports (s : State) (p : Port) : (s.dropAttention p).ports = s.ports := rfl
@[simp] theorem State.dropAttention_systemZone (s : State) (p : Port) : (s.dropAttention p).systemZone = s.systemZone := rfl
@[simp] theorem State.dropAttention_zones (s : State) (p : Port) : (s.dropAttention p).zones = s.zones := rfl
@[simp] theorem State.dropAttention_bits (s : State) (p : Port) : (s.dropAttention p).bits = s.bits := rfl
@[simp] theorem State.dropAttention_words (s : State) (p : Port) : (s.dropAttention p).words = s.words := rfl
@[simp] theorem State.dropAttention_tokens (s : State) (p : Port) : (s.dropAttention p).tokens = s.tokens := rfl
@[simp] theorem State.dropAttention_timers (s : State) (p : Port) : (s.dropAttention p).timers = s.timers := rfl
@[simp] theorem State.dropAttention_exchange (s : State) (p : Port) : (s.dropAttention p).exchange = s.exchange := rfl
@[simp] theorem State.dropAttention_faults (s : State) (p : Port) : (s.dropAttention p).faults = s.faults := rfl
@[simp] theorem State.dropAttention_overflow (s : State) (p : Port) : (s.dropAttention p).overflow = s.overflow := rfl
@[simp] theorem State.dropAttention_freeDraws (s : State) (p : Port) : (s.dropAttention p).freeDraws = s.freeDraws := rfl
@[simp] theorem State.dropAttention_pending (s : State) (p : Port) : (s.dropAttention p).pending = s.pending := rfl
@[simp] theorem State.dropAttention_session (s : State) (p : Port) (q : Port) : (s.dropAttention p).session q = s.session q := rfl
@[simp] theorem State.dropAttention_zone (s : State) (p : Port) (z : Nat) : (s.dropAttention p).zone z = s.zone z := rfl
@[simp] theorem State.dropAttention_bit (s : State) (p : Port) (i : Nat) : (s.dropAttention p).bit i = s.bit i := rfl
@[simp] theorem State.dropAttention_word (s : State) (p : Port) (i : Nat) : (s.dropAttention p).word i = s.word i := rfl
@[simp] theorem State.dropAttention_token (s : State) (p : Port) (t : Nat) : (s.dropAttention p).token t = s.token t := rfl
@[simp] theorem State.dropAttention_timer (s : State) (p : Port) (t : Nat) : (s.dropAttention p).timer t = s.timer t := rfl

/-! ## setRecord -/

@[simp] theorem State.setRecord_attention (s : State) (p : Port) (r : AttentionRecord) :
    (s.setRecord p r).attention = s.attention.set p (some r) := rfl
@[simp] theorem State.setRecord_phase (s : State) (p : Port) (r : AttentionRecord) : (s.setRecord p r).phase = s.phase := rfl
@[simp] theorem State.setRecord_clock (s : State) (p : Port) (r : AttentionRecord) : (s.setRecord p r).clock = s.clock := rfl
@[simp] theorem State.setRecord_epoch (s : State) (p : Port) (r : AttentionRecord) : (s.setRecord p r).epoch = s.epoch := rfl
@[simp] theorem State.setRecord_tickDue (s : State) (p : Port) (r : AttentionRecord) : (s.setRecord p r).tickDue = s.tickDue := rfl
@[simp] theorem State.setRecord_freeWordDue (s : State) (p : Port) (r : AttentionRecord) : (s.setRecord p r).freeWordDue = s.freeWordDue := rfl
@[simp] theorem State.setRecord_sessionCounter (s : State) (p : Port) (r : AttentionRecord) : (s.setRecord p r).sessionCounter = s.sessionCounter := rfl
@[simp] theorem State.setRecord_links (s : State) (p : Port) (r : AttentionRecord) : (s.setRecord p r).links = s.links := rfl
@[simp] theorem State.setRecord_ports (s : State) (p : Port) (r : AttentionRecord) : (s.setRecord p r).ports = s.ports := rfl
@[simp] theorem State.setRecord_systemZone (s : State) (p : Port) (r : AttentionRecord) : (s.setRecord p r).systemZone = s.systemZone := rfl
@[simp] theorem State.setRecord_zones (s : State) (p : Port) (r : AttentionRecord) : (s.setRecord p r).zones = s.zones := rfl
@[simp] theorem State.setRecord_bits (s : State) (p : Port) (r : AttentionRecord) : (s.setRecord p r).bits = s.bits := rfl
@[simp] theorem State.setRecord_words (s : State) (p : Port) (r : AttentionRecord) : (s.setRecord p r).words = s.words := rfl
@[simp] theorem State.setRecord_tokens (s : State) (p : Port) (r : AttentionRecord) : (s.setRecord p r).tokens = s.tokens := rfl
@[simp] theorem State.setRecord_timers (s : State) (p : Port) (r : AttentionRecord) : (s.setRecord p r).timers = s.timers := rfl
@[simp] theorem State.setRecord_exchange (s : State) (p : Port) (r : AttentionRecord) : (s.setRecord p r).exchange = s.exchange := rfl
@[simp] theorem State.setRecord_faults (s : State) (p : Port) (r : AttentionRecord) : (s.setRecord p r).faults = s.faults := rfl
@[simp] theorem State.setRecord_overflow (s : State) (p : Port) (r : AttentionRecord) : (s.setRecord p r).overflow = s.overflow := rfl
@[simp] theorem State.setRecord_freeDraws (s : State) (p : Port) (r : AttentionRecord) : (s.setRecord p r).freeDraws = s.freeDraws := rfl
@[simp] theorem State.setRecord_pending (s : State) (p : Port) (r : AttentionRecord) : (s.setRecord p r).pending = s.pending := rfl
@[simp] theorem State.setRecord_session (s : State) (p : Port) (r : AttentionRecord) (q : Port) : (s.setRecord p r).session q = s.session q := rfl
@[simp] theorem State.setRecord_zone (s : State) (p : Port) (r : AttentionRecord) (z : Nat) : (s.setRecord p r).zone z = s.zone z := rfl
@[simp] theorem State.setRecord_bit (s : State) (p : Port) (r : AttentionRecord) (i : Nat) : (s.setRecord p r).bit i = s.bit i := rfl
@[simp] theorem State.setRecord_word (s : State) (p : Port) (r : AttentionRecord) (i : Nat) : (s.setRecord p r).word i = s.word i := rfl
@[simp] theorem State.setRecord_token (s : State) (p : Port) (r : AttentionRecord) (t : Nat) : (s.setRecord p r).token t = s.token t := rfl
@[simp] theorem State.setRecord_timer (s : State) (p : Port) (r : AttentionRecord) (t : Nat) : (s.setRecord p r).timer t = s.timer t := rfl

/-! ## store -/

@[simp] theorem State.store_bits (s : State) (w : Points) : (s.store w).bits = s.bits.writeAll false w.bits := rfl
@[simp] theorem State.store_words (s : State) (w : Points) : (s.store w).words = s.words.writeAll 0 w.words := rfl
@[simp] theorem State.store_phase (s : State) (w : Points) : (s.store w).phase = s.phase := rfl
@[simp] theorem State.store_clock (s : State) (w : Points) : (s.store w).clock = s.clock := rfl
@[simp] theorem State.store_epoch (s : State) (w : Points) : (s.store w).epoch = s.epoch := rfl
@[simp] theorem State.store_tickDue (s : State) (w : Points) : (s.store w).tickDue = s.tickDue := rfl
@[simp] theorem State.store_freeWordDue (s : State) (w : Points) : (s.store w).freeWordDue = s.freeWordDue := rfl
@[simp] theorem State.store_sessionCounter (s : State) (w : Points) : (s.store w).sessionCounter = s.sessionCounter := rfl
@[simp] theorem State.store_links (s : State) (w : Points) : (s.store w).links = s.links := rfl
@[simp] theorem State.store_ports (s : State) (w : Points) : (s.store w).ports = s.ports := rfl
@[simp] theorem State.store_systemZone (s : State) (w : Points) : (s.store w).systemZone = s.systemZone := rfl
@[simp] theorem State.store_zones (s : State) (w : Points) : (s.store w).zones = s.zones := rfl
@[simp] theorem State.store_tokens (s : State) (w : Points) : (s.store w).tokens = s.tokens := rfl
@[simp] theorem State.store_timers (s : State) (w : Points) : (s.store w).timers = s.timers := rfl
@[simp] theorem State.store_exchange (s : State) (w : Points) : (s.store w).exchange = s.exchange := rfl
@[simp] theorem State.store_attention (s : State) (w : Points) : (s.store w).attention = s.attention := rfl
@[simp] theorem State.store_faults (s : State) (w : Points) : (s.store w).faults = s.faults := rfl
@[simp] theorem State.store_overflow (s : State) (w : Points) : (s.store w).overflow = s.overflow := rfl
@[simp] theorem State.store_freeDraws (s : State) (w : Points) : (s.store w).freeDraws = s.freeDraws := rfl
@[simp] theorem State.store_pending (s : State) (w : Points) : (s.store w).pending = s.pending := rfl
@[simp] theorem State.store_session (s : State) (w : Points) (q : Port) : (s.store w).session q = s.session q := rfl
@[simp] theorem State.store_zone (s : State) (w : Points) (z : Nat) : (s.store w).zone z = s.zone z := rfl
@[simp] theorem State.store_token (s : State) (w : Points) (t : Nat) : (s.store w).token t = s.token t := rfl
@[simp] theorem State.store_timer (s : State) (w : Points) (t : Nat) : (s.store w).timer t = s.timer t := rfl

/-! ## The accessors after an update of their own field -/

/-- The zones after one is replaced. -/
theorem State.zone_setZone (s : State) (n z : Nat) (r : Option ZoneRecord) :
    (s.setZone n r).zone z = if z = n then r else s.zone z := Memory.read_write none s.zones n z r

/-- The zone replaced. -/
@[simp] theorem State.zone_setZone_same (s : State) (n : Nat) (r : Option ZoneRecord) : (s.setZone n r).zone n = r := by
  simp [State.zone_setZone]

/-- The tokens after one is replaced. -/
theorem State.token_setToken (s : State) (n t : Nat) (r : Token) :
    (s.setToken n r).token t = if t = n then r else s.token t := Memory.read_write Token.powerOn s.tokens n t r

/-- The token replaced. -/
@[simp] theorem State.token_setToken_same (s : State) (n : Nat) (r : Token) : (s.setToken n r).token n = r := by
  simp [State.token_setToken]

/-- The timers after one is replaced. -/
theorem State.timer_setTimer (s : State) (n t : Nat) (r : Option Armed) :
    (s.setTimer n r).timer t = if t = n then r else s.timer t := Memory.read_write none s.timers n t r

/-- The timer replaced. -/
@[simp] theorem State.timer_setTimer_same (s : State) (n : Nat) (r : Option Armed) : (s.setTimer n r).timer n = r := by
  simp [State.timer_setTimer]

/-- The timers after every ARMED one is changed. -/
@[simp] theorem State.timer_mapTimers (s : State) (f : Armed → Armed) (t : Nat) :
    (s.mapTimers f).timer t = (s.timer t).map f := Memory.read_mapValues none (Option.map f) rfl s.timers t

/-- The buffers after one is replaced. -/
theorem State.buffer_setBuffer (s : State) (n b : Nat) (r : Option Buffer) :
    (s.setBuffer n r).buffer b = if b = n then r else s.buffer b := Memory.read_write none s.exchange.buffers n b r

/-- The attention records after every one is changed. -/
@[simp] theorem State.attention_mapAttention (s : State) (f : AttentionRecord → AttentionRecord) (p : Port) :
    (s.mapAttention f).attention.get p = (s.attention.get p).map f := by cases p <;> rfl

/-- A bit after a store: the last value stored to it, or what stood there. -/
theorem State.bit_store (s : State) (w : Points) (i : Nat) :
    (s.store w).bit i = ((w.bits.reverse.find? fun b => b.1 == i).map Prod.snd).getD (s.bit i) :=
  Memory.read_writeAll false w.bits s.bits i

/-- A word after a store: the last value stored to it, or what stood there. -/
theorem State.word_store (s : State) (w : Points) (i : Nat) :
    (s.store w).word i = ((w.words.reverse.find? fun b => b.1 == i).map Prod.snd).getD (s.word i) :=
  Memory.read_writeAll 0 w.words s.words i

/-- A bit that a store does not name. -/
theorem State.bit_store_ne (s : State) (w : Points) (i : Nat) (h : ∀ b ∈ w.bits, b.1 ≠ i) : (s.store w).bit i = s.bit i :=
  Memory.read_writeAll_ne false w.bits s.bits i h

/-- A word that a store does not name. -/
theorem State.word_store_ne (s : State) (w : Points) (i : Nat) (h : ∀ b ∈ w.words, b.1 ≠ i) :
    (s.store w).word i = s.word i := Memory.read_writeAll_ne 0 w.words s.words i h

/-- A store of nothing. -/
@[simp] theorem State.store_nothing (s : State) : s.store ⟨[], []⟩ = s := rfl

/-- The session of a port whose record is replaced. -/
@[simp] theorem State.session_setPort_same (s : State) (p : Port) (r : PortRecord) :
    (s.setPort p r).session p = r.session.map fun m => { port := p, number := m.number } := by
  simp [State.session]

/-- The session of another port. -/
theorem State.session_setPort_ne (s : State) (p q : Port) (r : PortRecord) (h : q ≠ p) :
    (s.setPort p r).session q = s.session q := by simp [State.session, h]

end Sys2Proof.Machine
end

