-- ==== Sys2Proof/Laws/Attention.lean ====
section
/-!
SUPPORT. What the attention unit's operations do: they change attention records alone, each in one stated way, and keep the
ATN level.
-/

namespace Sys2Proof.Machine

/-! ## Raises -/

/-- R159: a raise changes the attention records alone. -/
theorem State.raise_frame (s : State) (c : Cause) (d : Detail) (p : Port) :
    s.raise c d p = { s with attention := (s.raise c d p).attention } := by
  unfold State.raise
  split <;> rfl

/-- R159: the record of the port named takes the cause; every other stands. -/
theorem State.attention_raise (s : State) (c : Cause) (d : Detail) (p q : Port) :
    (s.raise c d p).attention.get q =
      if q = p then (s.attention.get q).map (AttentionRecord.raise · c d) else s.attention.get q := by
  unfold State.raise
  split
  · rename_i r hr
    simp only [PerPort.get_set]
    split
    · rename_i hq
      rw [hq, hr]
      rfl
    · rfl
  · rename_i hr
    split
    · rename_i hq
      rw [hq, hr]
      rfl
    · rfl

/-- Raises for several ports change the attention records alone. -/
theorem State.raiseFor_frame (s : State) (c : Cause) (d : Detail) (ps : List Port) :
    s.raiseFor c d ps = { s with attention := (s.raiseFor c d ps).attention } := by
  unfold State.raiseFor
  induction ps generalizing s with
  | nil => rfl
  | cons p rest ih =>
    rw [List.foldl_cons, ih, State.raise_frame]

/-- The record of each port named takes the cause once; every other stands. -/
theorem State.attention_raiseFor (s : State) (c : Cause) (d : Detail) (ps : List Port) (hps : ps.Nodup) (q : Port) :
    (s.raiseFor c d ps).attention.get q =
      if q ∈ ps then (s.attention.get q).map (AttentionRecord.raise · c d) else s.attention.get q := by
  induction ps generalizing s with
  | nil => simp [State.raiseFor]
  | cons p rest ih =>
    obtain ⟨hp, hrest⟩ := List.nodup_cons.mp hps
    show ((s.raise c d p).raiseFor c d rest).attention.get q = _
    rw [ih _ hrest, State.attention_raise]
    by_cases hq : q = p
    · subst hq
      simp [hp]
    · simp [hq]

/-- A list of ports picked from the four names none twice. -/
theorem nodup_ports (f : Port → Bool) : (Port.all.filter f).Nodup :=
  List.Nodup.filter f (by decide)

/-- R36: PEER reaches the other three ports. -/
theorem State.attention_raisePeer (s : State) (p q : Port) :
    (s.raisePeer p).attention.get q =
      if q = p then s.attention.get q else (s.attention.get q).map (AttentionRecord.raise · .peer (.port p)) := by
  unfold State.raisePeer
  rw [State.attention_raiseFor s _ _ p.others (nodup_ports _)]
  cases p <;> cases q <;> rfl

/-- R36: a PEER raise changes the attention records alone. -/
theorem State.raisePeer_frame (s : State) (p : Port) :
    s.raisePeer p = { s with attention := (s.raisePeer p).attention } := State.raiseFor_frame s _ _ _

/-- R177: a FAULT raise changes the attention records alone. -/
theorem State.raiseFaultAttention_frame (s : State) :
    s.raiseFaultAttention = { s with attention := s.raiseFaultAttention.attention } := State.raiseFor_frame s _ _ _

/-- R104: a grant's raise changes the attention records alone. -/
theorem State.raiseGrant_frame (s : State) (n : Nat) (k : Token) (b : Bool) :
    s.raiseGrant n k b = { s with attention := (s.raiseGrant n k b).attention } := by
  unfold State.raiseGrant
  split
  · exact State.raise_frame s _ _ _
  · rfl

/-- R81: the raises of a session end change the attention records alone. -/
theorem State.raiseMoves_frame (s : State) (ms : List ZoneMove) :
    s.raiseMoves ms = { s with attention := (s.raiseMoves ms).attention } := by
  unfold State.raiseMoves
  induction ms generalizing s with
  | nil => rfl
  | cons m rest ih => rw [List.foldl_cons, ih, State.raiseFor_frame]

/-- R163: a change notice at the attention unit changes the attention records alone. -/
theorem State.fireChange_frame (s : State) (n : Notice) :
    s.fireChange n = { s with attention := (s.fireChange n).attention } := rfl

/-- R164: an ownership notice at the attention unit changes the attention records alone. -/
theorem State.fireOwnership_frame (s : State) (zs : List Nat) :
    s.fireOwnership zs = { s with attention := (s.fireOwnership zs).attention } := rfl

/-- R165: a retirement at the attention unit changes the attention records alone. -/
theorem State.removeWatches_frame (s : State) (z : Nat) :
    s.removeWatches z = { s with attention := (s.removeWatches z).attention } := rfl

/-! ## Every other field stands -/

@[simp] theorem State.raise_phase (s : State) (c : Cause) (d : Detail) (p : Port) : (s.raise c d p).phase = s.phase := by rw [State.raise_frame]
@[simp] theorem State.raise_clock (s : State) (c : Cause) (d : Detail) (p : Port) : (s.raise c d p).clock = s.clock := by rw [State.raise_frame]
@[simp] theorem State.raise_epoch (s : State) (c : Cause) (d : Detail) (p : Port) : (s.raise c d p).epoch = s.epoch := by rw [State.raise_frame]
@[simp] theorem State.raise_tickDue (s : State) (c : Cause) (d : Detail) (p : Port) : (s.raise c d p).tickDue = s.tickDue := by rw [State.raise_frame]
@[simp] theorem State.raise_freeWordDue (s : State) (c : Cause) (d : Detail) (p : Port) : (s.raise c d p).freeWordDue = s.freeWordDue := by rw [State.raise_frame]
@[simp] theorem State.raise_sessionCounter (s : State) (c : Cause) (d : Detail) (p : Port) : (s.raise c d p).sessionCounter = s.sessionCounter := by rw [State.raise_frame]
@[simp] theorem State.raise_links (s : State) (c : Cause) (d : Detail) (p : Port) : (s.raise c d p).links = s.links := by rw [State.raise_frame]
@[simp] theorem State.raise_ports (s : State) (c : Cause) (d : Detail) (p : Port) : (s.raise c d p).ports = s.ports := by rw [State.raise_frame]
@[simp] theorem State.raise_systemZone (s : State) (c : Cause) (d : Detail) (p : Port) : (s.raise c d p).systemZone = s.systemZone := by rw [State.raise_frame]
@[simp] theorem State.raise_zones (s : State) (c : Cause) (d : Detail) (p : Port) : (s.raise c d p).zones = s.zones := by rw [State.raise_frame]
@[simp] theorem State.raise_bits (s : State) (c : Cause) (d : Detail) (p : Port) : (s.raise c d p).bits = s.bits := by rw [State.raise_frame]
@[simp] theorem State.raise_words (s : State) (c : Cause) (d : Detail) (p : Port) : (s.raise c d p).words = s.words := by rw [State.raise_frame]
@[simp] theorem State.raise_tokens (s : State) (c : Cause) (d : Detail) (p : Port) : (s.raise c d p).tokens = s.tokens := by rw [State.raise_frame]
@[simp] theorem State.raise_timers (s : State) (c : Cause) (d : Detail) (p : Port) : (s.raise c d p).timers = s.timers := by rw [State.raise_frame]
@[simp] theorem State.raise_exchange (s : State) (c : Cause) (d : Detail) (p : Port) : (s.raise c d p).exchange = s.exchange := by rw [State.raise_frame]
@[simp] theorem State.raise_faults (s : State) (c : Cause) (d : Detail) (p : Port) : (s.raise c d p).faults = s.faults := by rw [State.raise_frame]
@[simp] theorem State.raise_overflow (s : State) (c : Cause) (d : Detail) (p : Port) : (s.raise c d p).overflow = s.overflow := by rw [State.raise_frame]
@[simp] theorem State.raise_freeDraws (s : State) (c : Cause) (d : Detail) (p : Port) : (s.raise c d p).freeDraws = s.freeDraws := by rw [State.raise_frame]
@[simp] theorem State.raise_pending (s : State) (c : Cause) (d : Detail) (p : Port) : (s.raise c d p).pending = s.pending := by rw [State.raise_frame]
@[simp] theorem State.raise_session (s : State) (c : Cause) (d : Detail) (p : Port) (q : Port) : (s.raise c d p).session q = s.session q := by simp [State.session]
@[simp] theorem State.raise_zone (s : State) (c : Cause) (d : Detail) (p : Port) (z : Nat) : (s.raise c d p).zone z = s.zone z := by simp [State.zone]
@[simp] theorem State.raise_bit (s : State) (c : Cause) (d : Detail) (p : Port) (i : Nat) : (s.raise c d p).bit i = s.bit i := by simp [State.bit]
@[simp] theorem State.raise_word (s : State) (c : Cause) (d : Detail) (p : Port) (i : Nat) : (s.raise c d p).word i = s.word i := by simp [State.word]
@[simp] theorem State.raise_token (s : State) (c : Cause) (d : Detail) (p : Port) (t : Nat) : (s.raise c d p).token t = s.token t := by simp [State.token]
@[simp] theorem State.raise_timer (s : State) (c : Cause) (d : Detail) (p : Port) (t : Nat) : (s.raise c d p).timer t = s.timer t := by simp [State.timer]

@[simp] theorem State.raiseFor_phase (s : State) (c : Cause) (d : Detail) (ps : List Port) : (s.raiseFor c d ps).phase = s.phase := by rw [State.raiseFor_frame]
@[simp] theorem State.raiseFor_clock (s : State) (c : Cause) (d : Detail) (ps : List Port) : (s.raiseFor c d ps).clock = s.clock := by rw [State.raiseFor_frame]
@[simp] theorem State.raiseFor_epoch (s : State) (c : Cause) (d : Detail) (ps : List Port) : (s.raiseFor c d ps).epoch = s.epoch := by rw [State.raiseFor_frame]
@[simp] theorem State.raiseFor_tickDue (s : State) (c : Cause) (d : Detail) (ps : List Port) : (s.raiseFor c d ps).tickDue = s.tickDue := by rw [State.raiseFor_frame]
@[simp] theorem State.raiseFor_freeWordDue (s : State) (c : Cause) (d : Detail) (ps : List Port) : (s.raiseFor c d ps).freeWordDue = s.freeWordDue := by rw [State.raiseFor_frame]
@[simp] theorem State.raiseFor_sessionCounter (s : State) (c : Cause) (d : Detail) (ps : List Port) : (s.raiseFor c d ps).sessionCounter = s.sessionCounter := by rw [State.raiseFor_frame]
@[simp] theorem State.raiseFor_links (s : State) (c : Cause) (d : Detail) (ps : List Port) : (s.raiseFor c d ps).links = s.links := by rw [State.raiseFor_frame]
@[simp] theorem State.raiseFor_ports (s : State) (c : Cause) (d : Detail) (ps : List Port) : (s.raiseFor c d ps).ports = s.ports := by rw [State.raiseFor_frame]
@[simp] theorem State.raiseFor_systemZone (s : State) (c : Cause) (d : Detail) (ps : List Port) : (s.raiseFor c d ps).systemZone = s.systemZone := by rw [State.raiseFor_frame]
@[simp] theorem State.raiseFor_zones (s : State) (c : Cause) (d : Detail) (ps : List Port) : (s.raiseFor c d ps).zones = s.zones := by rw [State.raiseFor_frame]
@[simp] theorem State.raiseFor_bits (s : State) (c : Cause) (d : Detail) (ps : List Port) : (s.raiseFor c d ps).bits = s.bits := by rw [State.raiseFor_frame]
@[simp] theorem State.raiseFor_words (s : State) (c : Cause) (d : Detail) (ps : List Port) : (s.raiseFor c d ps).words = s.words := by rw [State.raiseFor_frame]
@[simp] theorem State.raiseFor_tokens (s : State) (c : Cause) (d : Detail) (ps : List Port) : (s.raiseFor c d ps).tokens = s.tokens := by rw [State.raiseFor_frame]
@[simp] theorem State.raiseFor_timers (s : State) (c : Cause) (d : Detail) (ps : List Port) : (s.raiseFor c d ps).timers = s.timers := by rw [State.raiseFor_frame]
@[simp] theorem State.raiseFor_exchange (s : State) (c : Cause) (d : Detail) (ps : List Port) : (s.raiseFor c d ps).exchange = s.exchange := by rw [State.raiseFor_frame]
@[simp] theorem State.raiseFor_faults (s : State) (c : Cause) (d : Detail) (ps : List Port) : (s.raiseFor c d ps).faults = s.faults := by rw [State.raiseFor_frame]
@[simp] theorem State.raiseFor_overflow (s : State) (c : Cause) (d : Detail) (ps : List Port) : (s.raiseFor c d ps).overflow = s.overflow := by rw [State.raiseFor_frame]
@[simp] theorem State.raiseFor_freeDraws (s : State) (c : Cause) (d : Detail) (ps : List Port) : (s.raiseFor c d ps).freeDraws = s.freeDraws := by rw [State.raiseFor_frame]
@[simp] theorem State.raiseFor_pending (s : State) (c : Cause) (d : Detail) (ps : List Port) : (s.raiseFor c d ps).pending = s.pending := by rw [State.raiseFor_frame]
@[simp] theorem State.raiseFor_session (s : State) (c : Cause) (d : Detail) (ps : List Port) (q : Port) : (s.raiseFor c d ps).session q = s.session q := by simp [State.session]
@[simp] theorem State.raiseFor_zone (s : State) (c : Cause) (d : Detail) (ps : List Port) (z : Nat) : (s.raiseFor c d ps).zone z = s.zone z := by simp [State.zone]
@[simp] theorem State.raiseFor_bit (s : State) (c : Cause) (d : Detail) (ps : List Port) (i : Nat) : (s.raiseFor c d ps).bit i = s.bit i := by simp [State.bit]
@[simp] theorem State.raiseFor_word (s : State) (c : Cause) (d : Detail) (ps : List Port) (i : Nat) : (s.raiseFor c d ps).word i = s.word i := by simp [State.word]
@[simp] theorem State.raiseFor_token (s : State) (c : Cause) (d : Detail) (ps : List Port) (t : Nat) : (s.raiseFor c d ps).token t = s.token t := by simp [State.token]
@[simp] theorem State.raiseFor_timer (s : State) (c : Cause) (d : Detail) (ps : List Port) (t : Nat) : (s.raiseFor c d ps).timer t = s.timer t := by simp [State.timer]

@[simp] theorem State.raisePeer_phase (s : State) (p : Port) : (s.raisePeer p).phase = s.phase := by rw [State.raisePeer_frame]
@[simp] theorem State.raisePeer_clock (s : State) (p : Port) : (s.raisePeer p).clock = s.clock := by rw [State.raisePeer_frame]
@[simp] theorem State.raisePeer_epoch (s : State) (p : Port) : (s.raisePeer p).epoch = s.epoch := by rw [State.raisePeer_frame]
@[simp] theorem State.raisePeer_tickDue (s : State) (p : Port) : (s.raisePeer p).tickDue = s.tickDue := by rw [State.raisePeer_frame]
@[simp] theorem State.raisePeer_freeWordDue (s : State) (p : Port) : (s.raisePeer p).freeWordDue = s.freeWordDue := by rw [State.raisePeer_frame]
@[simp] theorem State.raisePeer_sessionCounter (s : State) (p : Port) : (s.raisePeer p).sessionCounter = s.sessionCounter := by rw [State.raisePeer_frame]
@[simp] theorem State.raisePeer_links (s : State) (p : Port) : (s.raisePeer p).links = s.links := by rw [State.raisePeer_frame]
@[simp] theorem State.raisePeer_ports (s : State) (p : Port) : (s.raisePeer p).ports = s.ports := by rw [State.raisePeer_frame]
@[simp] theorem State.raisePeer_systemZone (s : State) (p : Port) : (s.raisePeer p).systemZone = s.systemZone := by rw [State.raisePeer_frame]
@[simp] theorem State.raisePeer_zones (s : State) (p : Port) : (s.raisePeer p).zones = s.zones := by rw [State.raisePeer_frame]
@[simp] theorem State.raisePeer_bits (s : State) (p : Port) : (s.raisePeer p).bits = s.bits := by rw [State.raisePeer_frame]
@[simp] theorem State.raisePeer_words (s : State) (p : Port) : (s.raisePeer p).words = s.words := by rw [State.raisePeer_frame]
@[simp] theorem State.raisePeer_tokens (s : State) (p : Port) : (s.raisePeer p).tokens = s.tokens := by rw [State.raisePeer_frame]
@[simp] theorem State.raisePeer_timers (s : State) (p : Port) : (s.raisePeer p).timers = s.timers := by rw [State.raisePeer_frame]
@[simp] theorem State.raisePeer_exchange (s : State) (p : Port) : (s.raisePeer p).exchange = s.exchange := by rw [State.raisePeer_frame]
@[simp] theorem State.raisePeer_faults (s : State) (p : Port) : (s.raisePeer p).faults = s.faults := by rw [State.raisePeer_frame]
@[simp] theorem State.raisePeer_overflow (s : State) (p : Port) : (s.raisePeer p).overflow = s.overflow := by rw [State.raisePeer_frame]
@[simp] theorem State.raisePeer_freeDraws (s : State) (p : Port) : (s.raisePeer p).freeDraws = s.freeDraws := by rw [State.raisePeer_frame]
@[simp] theorem State.raisePeer_pending (s : State) (p : Port) : (s.raisePeer p).pending = s.pending := by rw [State.raisePeer_frame]
@[simp] theorem State.raisePeer_session (s : State) (p : Port) (q : Port) : (s.raisePeer p).session q = s.session q := by simp [State.session]
@[simp] theorem State.raisePeer_zone (s : State) (p : Port) (z : Nat) : (s.raisePeer p).zone z = s.zone z := by simp [State.zone]
@[simp] theorem State.raisePeer_bit (s : State) (p : Port) (i : Nat) : (s.raisePeer p).bit i = s.bit i := by simp [State.bit]
@[simp] theorem State.raisePeer_word (s : State) (p : Port) (i : Nat) : (s.raisePeer p).word i = s.word i := by simp [State.word]
@[simp] theorem State.raisePeer_token (s : State) (p : Port) (t : Nat) : (s.raisePeer p).token t = s.token t := by simp [State.token]
@[simp] theorem State.raisePeer_timer (s : State) (p : Port) (t : Nat) : (s.raisePeer p).timer t = s.timer t := by simp [State.timer]

@[simp] theorem State.raiseFaultAttention_phase (s : State) : (s.raiseFaultAttention).phase = s.phase := by rw [State.raiseFaultAttention_frame]
@[simp] theorem State.raiseFaultAttention_clock (s : State) : (s.raiseFaultAttention).clock = s.clock := by rw [State.raiseFaultAttention_frame]
@[simp] theorem State.raiseFaultAttention_epoch (s : State) : (s.raiseFaultAttention).epoch = s.epoch := by rw [State.raiseFaultAttention_frame]
@[simp] theorem State.raiseFaultAttention_tickDue (s : State) : (s.raiseFaultAttention).tickDue = s.tickDue := by rw [State.raiseFaultAttention_frame]
@[simp] theorem State.raiseFaultAttention_freeWordDue (s : State) : (s.raiseFaultAttention).freeWordDue = s.freeWordDue := by rw [State.raiseFaultAttention_frame]
@[simp] theorem State.raiseFaultAttention_sessionCounter (s : State) : (s.raiseFaultAttention).sessionCounter = s.sessionCounter := by rw [State.raiseFaultAttention_frame]
@[simp] theorem State.raiseFaultAttention_links (s : State) : (s.raiseFaultAttention).links = s.links := by rw [State.raiseFaultAttention_frame]
@[simp] theorem State.raiseFaultAttention_ports (s : State) : (s.raiseFaultAttention).ports = s.ports := by rw [State.raiseFaultAttention_frame]
@[simp] theorem State.raiseFaultAttention_systemZone (s : State) : (s.raiseFaultAttention).systemZone = s.systemZone := by rw [State.raiseFaultAttention_frame]
@[simp] theorem State.raiseFaultAttention_zones (s : State) : (s.raiseFaultAttention).zones = s.zones := by rw [State.raiseFaultAttention_frame]
@[simp] theorem State.raiseFaultAttention_bits (s : State) : (s.raiseFaultAttention).bits = s.bits := by rw [State.raiseFaultAttention_frame]
@[simp] theorem State.raiseFaultAttention_words (s : State) : (s.raiseFaultAttention).words = s.words := by rw [State.raiseFaultAttention_frame]
@[simp] theorem State.raiseFaultAttention_tokens (s : State) : (s.raiseFaultAttention).tokens = s.tokens := by rw [State.raiseFaultAttention_frame]
@[simp] theorem State.raiseFaultAttention_timers (s : State) : (s.raiseFaultAttention).timers = s.timers := by rw [State.raiseFaultAttention_frame]
@[simp] theorem State.raiseFaultAttention_exchange (s : State) : (s.raiseFaultAttention).exchange = s.exchange := by rw [State.raiseFaultAttention_frame]
@[simp] theorem State.raiseFaultAttention_faults (s : State) : (s.raiseFaultAttention).faults = s.faults := by rw [State.raiseFaultAttention_frame]
@[simp] theorem State.raiseFaultAttention_overflow (s : State) : (s.raiseFaultAttention).overflow = s.overflow := by rw [State.raiseFaultAttention_frame]
@[simp] theorem State.raiseFaultAttention_freeDraws (s : State) : (s.raiseFaultAttention).freeDraws = s.freeDraws := by rw [State.raiseFaultAttention_frame]
@[simp] theorem State.raiseFaultAttention_pending (s : State) : (s.raiseFaultAttention).pending = s.pending := by rw [State.raiseFaultAttention_frame]
@[simp] theorem State.raiseFaultAttention_session (s : State) (q : Port) : (s.raiseFaultAttention).session q = s.session q := by simp [State.session]
@[simp] theorem State.raiseFaultAttention_zone (s : State) (z : Nat) : (s.raiseFaultAttention).zone z = s.zone z := by simp [State.zone]
@[simp] theorem State.raiseFaultAttention_bit (s : State) (i : Nat) : (s.raiseFaultAttention).bit i = s.bit i := by simp [State.bit]
@[simp] theorem State.raiseFaultAttention_word (s : State) (i : Nat) : (s.raiseFaultAttention).word i = s.word i := by simp [State.word]
@[simp] theorem State.raiseFaultAttention_token (s : State) (t : Nat) : (s.raiseFaultAttention).token t = s.token t := by simp [State.token]
@[simp] theorem State.raiseFaultAttention_timer (s : State) (t : Nat) : (s.raiseFaultAttention).timer t = s.timer t := by simp [State.timer]

@[simp] theorem State.raiseGrant_phase (s : State) (n : Nat) (k : Token) (b : Bool) : (s.raiseGrant n k b).phase = s.phase := by rw [State.raiseGrant_frame]
@[simp] theorem State.raiseGrant_clock (s : State) (n : Nat) (k : Token) (b : Bool) : (s.raiseGrant n k b).clock = s.clock := by rw [State.raiseGrant_frame]
@[simp] theorem State.raiseGrant_epoch (s : State) (n : Nat) (k : Token) (b : Bool) : (s.raiseGrant n k b).epoch = s.epoch := by rw [State.raiseGrant_frame]
@[simp] theorem State.raiseGrant_tickDue (s : State) (n : Nat) (k : Token) (b : Bool) : (s.raiseGrant n k b).tickDue = s.tickDue := by rw [State.raiseGrant_frame]
@[simp] theorem State.raiseGrant_freeWordDue (s : State) (n : Nat) (k : Token) (b : Bool) : (s.raiseGrant n k b).freeWordDue = s.freeWordDue := by rw [State.raiseGrant_frame]
@[simp] theorem State.raiseGrant_sessionCounter (s : State) (n : Nat) (k : Token) (b : Bool) : (s.raiseGrant n k b).sessionCounter = s.sessionCounter := by rw [State.raiseGrant_frame]
@[simp] theorem State.raiseGrant_links (s : State) (n : Nat) (k : Token) (b : Bool) : (s.raiseGrant n k b).links = s.links := by rw [State.raiseGrant_frame]
@[simp] theorem State.raiseGrant_ports (s : State) (n : Nat) (k : Token) (b : Bool) : (s.raiseGrant n k b).ports = s.ports := by rw [State.raiseGrant_frame]
@[simp] theorem State.raiseGrant_systemZone (s : State) (n : Nat) (k : Token) (b : Bool) : (s.raiseGrant n k b).systemZone = s.systemZone := by rw [State.raiseGrant_frame]
@[simp] theorem State.raiseGrant_zones (s : State) (n : Nat) (k : Token) (b : Bool) : (s.raiseGrant n k b).zones = s.zones := by rw [State.raiseGrant_frame]
@[simp] theorem State.raiseGrant_bits (s : State) (n : Nat) (k : Token) (b : Bool) : (s.raiseGrant n k b).bits = s.bits := by rw [State.raiseGrant_frame]
@[simp] theorem State.raiseGrant_words (s : State) (n : Nat) (k : Token) (b : Bool) : (s.raiseGrant n k b).words = s.words := by rw [State.raiseGrant_frame]
@[simp] theorem State.raiseGrant_tokens (s : State) (n : Nat) (k : Token) (b : Bool) : (s.raiseGrant n k b).tokens = s.tokens := by rw [State.raiseGrant_frame]
@[simp] theorem State.raiseGrant_timers (s : State) (n : Nat) (k : Token) (b : Bool) : (s.raiseGrant n k b).timers = s.timers := by rw [State.raiseGrant_frame]
@[simp] theorem State.raiseGrant_exchange (s : State) (n : Nat) (k : Token) (b : Bool) : (s.raiseGrant n k b).exchange = s.exchange := by rw [State.raiseGrant_frame]
@[simp] theorem State.raiseGrant_faults (s : State) (n : Nat) (k : Token) (b : Bool) : (s.raiseGrant n k b).faults = s.faults := by rw [State.raiseGrant_frame]
@[simp] theorem State.raiseGrant_overflow (s : State) (n : Nat) (k : Token) (b : Bool) : (s.raiseGrant n k b).overflow = s.overflow := by rw [State.raiseGrant_frame]
@[simp] theorem State.raiseGrant_freeDraws (s : State) (n : Nat) (k : Token) (b : Bool) : (s.raiseGrant n k b).freeDraws = s.freeDraws := by rw [State.raiseGrant_frame]
@[simp] theorem State.raiseGrant_pending (s : State) (n : Nat) (k : Token) (b : Bool) : (s.raiseGrant n k b).pending = s.pending := by rw [State.raiseGrant_frame]
@[simp] theorem State.raiseGrant_session (s : State) (n : Nat) (k : Token) (b : Bool) (q : Port) : (s.raiseGrant n k b).session q = s.session q := by simp [State.session]
@[simp] theorem State.raiseGrant_zone (s : State) (n : Nat) (k : Token) (b : Bool) (z : Nat) : (s.raiseGrant n k b).zone z = s.zone z := by simp [State.zone]
@[simp] theorem State.raiseGrant_bit (s : State) (n : Nat) (k : Token) (b : Bool) (i : Nat) : (s.raiseGrant n k b).bit i = s.bit i := by simp [State.bit]
@[simp] theorem State.raiseGrant_word (s : State) (n : Nat) (k : Token) (b : Bool) (i : Nat) : (s.raiseGrant n k b).word i = s.word i := by simp [State.word]
@[simp] theorem State.raiseGrant_token (s : State) (n : Nat) (k : Token) (b : Bool) (t : Nat) : (s.raiseGrant n k b).token t = s.token t := by simp [State.token]
@[simp] theorem State.raiseGrant_timer (s : State) (n : Nat) (k : Token) (b : Bool) (t : Nat) : (s.raiseGrant n k b).timer t = s.timer t := by simp [State.timer]

@[simp] theorem State.raiseMoves_phase (s : State) (ms : List ZoneMove) : (s.raiseMoves ms).phase = s.phase := by rw [State.raiseMoves_frame]
@[simp] theorem State.raiseMoves_clock (s : State) (ms : List ZoneMove) : (s.raiseMoves ms).clock = s.clock := by rw [State.raiseMoves_frame]
@[simp] theorem State.raiseMoves_epoch (s : State) (ms : List ZoneMove) : (s.raiseMoves ms).epoch = s.epoch := by rw [State.raiseMoves_frame]
@[simp] theorem State.raiseMoves_tickDue (s : State) (ms : List ZoneMove) : (s.raiseMoves ms).tickDue = s.tickDue := by rw [State.raiseMoves_frame]
@[simp] theorem State.raiseMoves_freeWordDue (s : State) (ms : List ZoneMove) : (s.raiseMoves ms).freeWordDue = s.freeWordDue := by rw [State.raiseMoves_frame]
@[simp] theorem State.raiseMoves_sessionCounter (s : State) (ms : List ZoneMove) : (s.raiseMoves ms).sessionCounter = s.sessionCounter := by rw [State.raiseMoves_frame]
@[simp] theorem State.raiseMoves_links (s : State) (ms : List ZoneMove) : (s.raiseMoves ms).links = s.links := by rw [State.raiseMoves_frame]
@[simp] theorem State.raiseMoves_ports (s : State) (ms : List ZoneMove) : (s.raiseMoves ms).ports = s.ports := by rw [State.raiseMoves_frame]
@[simp] theorem State.raiseMoves_systemZone (s : State) (ms : List ZoneMove) : (s.raiseMoves ms).systemZone = s.systemZone := by rw [State.raiseMoves_frame]
@[simp] theorem State.raiseMoves_zones (s : State) (ms : List ZoneMove) : (s.raiseMoves ms).zones = s.zones := by rw [State.raiseMoves_frame]
@[simp] theorem State.raiseMoves_bits (s : State) (ms : List ZoneMove) : (s.raiseMoves ms).bits = s.bits := by rw [State.raiseMoves_frame]
@[simp] theorem State.raiseMoves_words (s : State) (ms : List ZoneMove) : (s.raiseMoves ms).words = s.words := by rw [State.raiseMoves_frame]
@[simp] theorem State.raiseMoves_tokens (s : State) (ms : List ZoneMove) : (s.raiseMoves ms).tokens = s.tokens := by rw [State.raiseMoves_frame]
@[simp] theorem State.raiseMoves_timers (s : State) (ms : List ZoneMove) : (s.raiseMoves ms).timers = s.timers := by rw [State.raiseMoves_frame]
@[simp] theorem State.raiseMoves_exchange (s : State) (ms : List ZoneMove) : (s.raiseMoves ms).exchange = s.exchange := by rw [State.raiseMoves_frame]
@[simp] theorem State.raiseMoves_faults (s : State) (ms : List ZoneMove) : (s.raiseMoves ms).faults = s.faults := by rw [State.raiseMoves_frame]
@[simp] theorem State.raiseMoves_overflow (s : State) (ms : List ZoneMove) : (s.raiseMoves ms).overflow = s.overflow := by rw [State.raiseMoves_frame]
@[simp] theorem State.raiseMoves_freeDraws (s : State) (ms : List ZoneMove) : (s.raiseMoves ms).freeDraws = s.freeDraws := by rw [State.raiseMoves_frame]
@[simp] theorem State.raiseMoves_pending (s : State) (ms : List ZoneMove) : (s.raiseMoves ms).pending = s.pending := by rw [State.raiseMoves_frame]
@[simp] theorem State.raiseMoves_session (s : State) (ms : List ZoneMove) (q : Port) : (s.raiseMoves ms).session q = s.session q := by simp [State.session]
@[simp] theorem State.raiseMoves_zone (s : State) (ms : List ZoneMove) (z : Nat) : (s.raiseMoves ms).zone z = s.zone z := by simp [State.zone]
@[simp] theorem State.raiseMoves_bit (s : State) (ms : List ZoneMove) (i : Nat) : (s.raiseMoves ms).bit i = s.bit i := by simp [State.bit]
@[simp] theorem State.raiseMoves_word (s : State) (ms : List ZoneMove) (i : Nat) : (s.raiseMoves ms).word i = s.word i := by simp [State.word]
@[simp] theorem State.raiseMoves_token (s : State) (ms : List ZoneMove) (t : Nat) : (s.raiseMoves ms).token t = s.token t := by simp [State.token]
@[simp] theorem State.raiseMoves_timer (s : State) (ms : List ZoneMove) (t : Nat) : (s.raiseMoves ms).timer t = s.timer t := by simp [State.timer]

@[simp] theorem State.fireChange_phase (s : State) (n : Notice) : (s.fireChange n).phase = s.phase := by rw [State.fireChange_frame]
@[simp] theorem State.fireChange_clock (s : State) (n : Notice) : (s.fireChange n).clock = s.clock := by rw [State.fireChange_frame]
@[simp] theorem State.fireChange_epoch (s : State) (n : Notice) : (s.fireChange n).epoch = s.epoch := by rw [State.fireChange_frame]
@[simp] theorem State.fireChange_tickDue (s : State) (n : Notice) : (s.fireChange n).tickDue = s.tickDue := by rw [State.fireChange_frame]
@[simp] theorem State.fireChange_freeWordDue (s : State) (n : Notice) : (s.fireChange n).freeWordDue = s.freeWordDue := by rw [State.fireChange_frame]
@[simp] theorem State.fireChange_sessionCounter (s : State) (n : Notice) : (s.fireChange n).sessionCounter = s.sessionCounter := by rw [State.fireChange_frame]
@[simp] theorem State.fireChange_links (s : State) (n : Notice) : (s.fireChange n).links = s.links := by rw [State.fireChange_frame]
@[simp] theorem State.fireChange_ports (s : State) (n : Notice) : (s.fireChange n).ports = s.ports := by rw [State.fireChange_frame]
@[simp] theorem State.fireChange_systemZone (s : State) (n : Notice) : (s.fireChange n).systemZone = s.systemZone := by rw [State.fireChange_frame]
@[simp] theorem State.fireChange_zones (s : State) (n : Notice) : (s.fireChange n).zones = s.zones := by rw [State.fireChange_frame]
@[simp] theorem State.fireChange_bits (s : State) (n : Notice) : (s.fireChange n).bits = s.bits := by rw [State.fireChange_frame]
@[simp] theorem State.fireChange_words (s : State) (n : Notice) : (s.fireChange n).words = s.words := by rw [State.fireChange_frame]
@[simp] theorem State.fireChange_tokens (s : State) (n : Notice) : (s.fireChange n).tokens = s.tokens := by rw [State.fireChange_frame]
@[simp] theorem State.fireChange_timers (s : State) (n : Notice) : (s.fireChange n).timers = s.timers := by rw [State.fireChange_frame]
@[simp] theorem State.fireChange_exchange (s : State) (n : Notice) : (s.fireChange n).exchange = s.exchange := by rw [State.fireChange_frame]
@[simp] theorem State.fireChange_faults (s : State) (n : Notice) : (s.fireChange n).faults = s.faults := by rw [State.fireChange_frame]
@[simp] theorem State.fireChange_overflow (s : State) (n : Notice) : (s.fireChange n).overflow = s.overflow := by rw [State.fireChange_frame]
@[simp] theorem State.fireChange_freeDraws (s : State) (n : Notice) : (s.fireChange n).freeDraws = s.freeDraws := by rw [State.fireChange_frame]
@[simp] theorem State.fireChange_pending (s : State) (n : Notice) : (s.fireChange n).pending = s.pending := by rw [State.fireChange_frame]
@[simp] theorem State.fireChange_session (s : State) (n : Notice) (q : Port) : (s.fireChange n).session q = s.session q := by simp [State.session]
@[simp] theorem State.fireChange_zone (s : State) (n : Notice) (z : Nat) : (s.fireChange n).zone z = s.zone z := by simp [State.zone]
@[simp] theorem State.fireChange_bit (s : State) (n : Notice) (i : Nat) : (s.fireChange n).bit i = s.bit i := by simp [State.bit]
@[simp] theorem State.fireChange_word (s : State) (n : Notice) (i : Nat) : (s.fireChange n).word i = s.word i := by simp [State.word]
@[simp] theorem State.fireChange_token (s : State) (n : Notice) (t : Nat) : (s.fireChange n).token t = s.token t := by simp [State.token]
@[simp] theorem State.fireChange_timer (s : State) (n : Notice) (t : Nat) : (s.fireChange n).timer t = s.timer t := by simp [State.timer]

@[simp] theorem State.fireOwnership_phase (s : State) (zs : List Nat) : (s.fireOwnership zs).phase = s.phase := by rw [State.fireOwnership_frame]
@[simp] theorem State.fireOwnership_clock (s : State) (zs : List Nat) : (s.fireOwnership zs).clock = s.clock := by rw [State.fireOwnership_frame]
@[simp] theorem State.fireOwnership_epoch (s : State) (zs : List Nat) : (s.fireOwnership zs).epoch = s.epoch := by rw [State.fireOwnership_frame]
@[simp] theorem State.fireOwnership_tickDue (s : State) (zs : List Nat) : (s.fireOwnership zs).tickDue = s.tickDue := by rw [State.fireOwnership_frame]
@[simp] theorem State.fireOwnership_freeWordDue (s : State) (zs : List Nat) : (s.fireOwnership zs).freeWordDue = s.freeWordDue := by rw [State.fireOwnership_frame]
@[simp] theorem State.fireOwnership_sessionCounter (s : State) (zs : List Nat) : (s.fireOwnership zs).sessionCounter = s.sessionCounter := by rw [State.fireOwnership_frame]
@[simp] theorem State.fireOwnership_links (s : State) (zs : List Nat) : (s.fireOwnership zs).links = s.links := by rw [State.fireOwnership_frame]
@[simp] theorem State.fireOwnership_ports (s : State) (zs : List Nat) : (s.fireOwnership zs).ports = s.ports := by rw [State.fireOwnership_frame]
@[simp] theorem State.fireOwnership_systemZone (s : State) (zs : List Nat) : (s.fireOwnership zs).systemZone = s.systemZone := by rw [State.fireOwnership_frame]
@[simp] theorem State.fireOwnership_zones (s : State) (zs : List Nat) : (s.fireOwnership zs).zones = s.zones := by rw [State.fireOwnership_frame]
@[simp] theorem State.fireOwnership_bits (s : State) (zs : List Nat) : (s.fireOwnership zs).bits = s.bits := by rw [State.fireOwnership_frame]
@[simp] theorem State.fireOwnership_words (s : State) (zs : List Nat) : (s.fireOwnership zs).words = s.words := by rw [State.fireOwnership_frame]
@[simp] theorem State.fireOwnership_tokens (s : State) (zs : List Nat) : (s.fireOwnership zs).tokens = s.tokens := by rw [State.fireOwnership_frame]
@[simp] theorem State.fireOwnership_timers (s : State) (zs : List Nat) : (s.fireOwnership zs).timers = s.timers := by rw [State.fireOwnership_frame]
@[simp] theorem State.fireOwnership_exchange (s : State) (zs : List Nat) : (s.fireOwnership zs).exchange = s.exchange := by rw [State.fireOwnership_frame]
@[simp] theorem State.fireOwnership_faults (s : State) (zs : List Nat) : (s.fireOwnership zs).faults = s.faults := by rw [State.fireOwnership_frame]
@[simp] theorem State.fireOwnership_overflow (s : State) (zs : List Nat) : (s.fireOwnership zs).overflow = s.overflow := by rw [State.fireOwnership_frame]
@[simp] theorem State.fireOwnership_freeDraws (s : State) (zs : List Nat) : (s.fireOwnership zs).freeDraws = s.freeDraws := by rw [State.fireOwnership_frame]
@[simp] theorem State.fireOwnership_pending (s : State) (zs : List Nat) : (s.fireOwnership zs).pending = s.pending := by rw [State.fireOwnership_frame]
@[simp] theorem State.fireOwnership_session (s : State) (zs : List Nat) (q : Port) : (s.fireOwnership zs).session q = s.session q := by simp [State.session]
@[simp] theorem State.fireOwnership_zone (s : State) (zs : List Nat) (z : Nat) : (s.fireOwnership zs).zone z = s.zone z := by simp [State.zone]
@[simp] theorem State.fireOwnership_bit (s : State) (zs : List Nat) (i : Nat) : (s.fireOwnership zs).bit i = s.bit i := by simp [State.bit]
@[simp] theorem State.fireOwnership_word (s : State) (zs : List Nat) (i : Nat) : (s.fireOwnership zs).word i = s.word i := by simp [State.word]
@[simp] theorem State.fireOwnership_token (s : State) (zs : List Nat) (t : Nat) : (s.fireOwnership zs).token t = s.token t := by simp [State.token]
@[simp] theorem State.fireOwnership_timer (s : State) (zs : List Nat) (t : Nat) : (s.fireOwnership zs).timer t = s.timer t := by simp [State.timer]

@[simp] theorem State.removeWatches_phase (s : State) (n : Nat) : (s.removeWatches n).phase = s.phase := by rw [State.removeWatches_frame]
@[simp] theorem State.removeWatches_clock (s : State) (n : Nat) : (s.removeWatches n).clock = s.clock := by rw [State.removeWatches_frame]
@[simp] theorem State.removeWatches_epoch (s : State) (n : Nat) : (s.removeWatches n).epoch = s.epoch := by rw [State.removeWatches_frame]
@[simp] theorem State.removeWatches_tickDue (s : State) (n : Nat) : (s.removeWatches n).tickDue = s.tickDue := by rw [State.removeWatches_frame]
@[simp] theorem State.removeWatches_freeWordDue (s : State) (n : Nat) : (s.removeWatches n).freeWordDue = s.freeWordDue := by rw [State.removeWatches_frame]
@[simp] theorem State.removeWatches_sessionCounter (s : State) (n : Nat) : (s.removeWatches n).sessionCounter = s.sessionCounter := by rw [State.removeWatches_frame]
@[simp] theorem State.removeWatches_links (s : State) (n : Nat) : (s.removeWatches n).links = s.links := by rw [State.removeWatches_frame]
@[simp] theorem State.removeWatches_ports (s : State) (n : Nat) : (s.removeWatches n).ports = s.ports := by rw [State.removeWatches_frame]
@[simp] theorem State.removeWatches_systemZone (s : State) (n : Nat) : (s.removeWatches n).systemZone = s.systemZone := by rw [State.removeWatches_frame]
@[simp] theorem State.removeWatches_zones (s : State) (n : Nat) : (s.removeWatches n).zones = s.zones := by rw [State.removeWatches_frame]
@[simp] theorem State.removeWatches_bits (s : State) (n : Nat) : (s.removeWatches n).bits = s.bits := by rw [State.removeWatches_frame]
@[simp] theorem State.removeWatches_words (s : State) (n : Nat) : (s.removeWatches n).words = s.words := by rw [State.removeWatches_frame]
@[simp] theorem State.removeWatches_tokens (s : State) (n : Nat) : (s.removeWatches n).tokens = s.tokens := by rw [State.removeWatches_frame]
@[simp] theorem State.removeWatches_timers (s : State) (n : Nat) : (s.removeWatches n).timers = s.timers := by rw [State.removeWatches_frame]
@[simp] theorem State.removeWatches_exchange (s : State) (n : Nat) : (s.removeWatches n).exchange = s.exchange := by rw [State.removeWatches_frame]
@[simp] theorem State.removeWatches_faults (s : State) (n : Nat) : (s.removeWatches n).faults = s.faults := by rw [State.removeWatches_frame]
@[simp] theorem State.removeWatches_overflow (s : State) (n : Nat) : (s.removeWatches n).overflow = s.overflow := by rw [State.removeWatches_frame]
@[simp] theorem State.removeWatches_freeDraws (s : State) (n : Nat) : (s.removeWatches n).freeDraws = s.freeDraws := by rw [State.removeWatches_frame]
@[simp] theorem State.removeWatches_pending (s : State) (n : Nat) : (s.removeWatches n).pending = s.pending := by rw [State.removeWatches_frame]
@[simp] theorem State.removeWatches_session (s : State) (n : Nat) (q : Port) : (s.removeWatches n).session q = s.session q := by simp [State.session]
@[simp] theorem State.removeWatches_zone (s : State) (n : Nat) (z : Nat) : (s.removeWatches n).zone z = s.zone z := by simp [State.zone]
@[simp] theorem State.removeWatches_bit (s : State) (n : Nat) (i : Nat) : (s.removeWatches n).bit i = s.bit i := by simp [State.bit]
@[simp] theorem State.removeWatches_word (s : State) (n : Nat) (i : Nat) : (s.removeWatches n).word i = s.word i := by simp [State.word]
@[simp] theorem State.removeWatches_token (s : State) (n : Nat) (t : Nat) : (s.removeWatches n).token t = s.token t := by simp [State.token]
@[simp] theorem State.removeWatches_timer (s : State) (n : Nat) (t : Nat) : (s.removeWatches n).timer t = s.timer t := by simp [State.timer]

/-! ## Watches -/

/-- R163: a record after a change notice. -/
@[simp] theorem State.attention_fireChange (s : State) (n : Notice) (p : Port) :
    (s.fireChange n).attention.get p = (s.attention.get p).map (AttentionRecord.fireWhere (Watch.seesChange n)) :=
  State.attention_mapAttention s _ p

/-- R164: a record after an ownership notice. -/
@[simp] theorem State.attention_fireOwnership (s : State) (zs : List Nat) (p : Port) :
    (s.fireOwnership zs).attention.get p = (s.attention.get p).map (AttentionRecord.fireWhere (Watch.seesOwnership zs)) :=
  State.attention_mapAttention s _ p

/-- R165: a record after a retirement. -/
@[simp] theorem State.attention_removeWatches (s : State) (z : Nat) (p : Port) :
    (s.removeWatches z).attention.get p = (s.attention.get p).map (AttentionRecord.zoneGone z) :=
  State.attention_mapAttention s _ p

/-- What a record holds beside its pending set, its watches and its level. -/
abbrev AttentionRecord.details (r : AttentionRecord) : CauseSet × Byte × Half × Half × Half × BitVec 32 × PortSet :=
  (r.mask, r.gone, r.granted, r.grantedBroken, r.revoked, r.zones, r.ports)

/-- R163: a firing leaves the mask and the detail sets. -/
@[simp] theorem AttentionRecord.details_fireWhere (f : Watch → Bool) (r : AttentionRecord) :
    (r.fireWhere f).details = r.details := by
  unfold AttentionRecord.fireWhere
  split <;> rfl

/-- R163: a firing adds WATCH to the pending set, or nothing. -/
theorem AttentionRecord.pending_fireWhere (f : Watch → Bool) (r : AttentionRecord) :
    (r.fireWhere f).pending = r.pending ∨ (r.fireWhere f).pending = r.pending ||| Cause.watch.bit := by
  unfold AttentionRecord.fireWhere
  split
  · exact Or.inr rfl
  · exact Or.inl rfl

/-- R163: a record without watches takes no firing. -/
@[simp] theorem AttentionRecord.fireWhere_of_no_slots (f : Watch → Bool) (r : AttentionRecord) (h : r.slots = []) :
    r.fireWhere f = r := by simp [AttentionRecord.fireWhere, h]

/-! ## The ATN level (R160) -/

/-- R160: the level of a record is the one its pending set and mask give. -/
abbrev AttentionRecord.levelled (r : AttentionRecord) : Prop := r.atn = atnLevel r.pending r.mask

/-- A recomputed level is right. -/
theorem AttentionRecord.levelled_relevel (r : AttentionRecord) : r.relevel.levelled := rfl

/-- A raise leaves the level right. -/
theorem AttentionRecord.levelled_raise (r : AttentionRecord) (c : Cause) (d : Detail) : (r.raise c d).levelled :=
  AttentionRecord.levelled_relevel _

/-- A firing leaves the level right. -/
theorem AttentionRecord.levelled_fireWhere (f : Watch → Bool) {r : AttentionRecord} (h : r.levelled) :
    (r.fireWhere f).levelled := by
  unfold AttentionRecord.fireWhere
  split
  · exact AttentionRecord.levelled_relevel _
  · exact h

/-- A retirement leaves the level right. -/
theorem AttentionRecord.levelled_zoneGone (z : Nat) {r : AttentionRecord} (h : r.levelled) : (r.zoneGone z).levelled := by
  unfold AttentionRecord.zoneGone
  generalize r.watching z = ks
  induction ks generalizing r with
  | nil => exact h
  | cons k rest ih => exact ih (AttentionRecord.levelled_raise _ _ _)

/-- A read of attention leaves the level right. -/
theorem AttentionRecord.levelled_cleared (r : AttentionRecord) (c : CauseSet) : (r.cleared c).levelled := rfl

/-- A session's first record has the level right. -/
theorem AttentionRecord.levelled_start : AttentionRecord.start.levelled := by decide

/-! ## The slots' canonical form -/

/-- A firing keeps the canonical form. -/
theorem AttentionRecord.slots_fireWhere (f : Watch → Bool) {r : AttentionRecord} (h : Memory.wf none r.slots) :
    Memory.wf none (r.fireWhere f).slots := by
  unfold AttentionRecord.fireWhere
  split
  · refine Memory.wf_mapValues none h _ ?_
    intro v hv
    cases v with
    | none => exact absurd rfl hv
    | some w => simp
  · exact h

/-- A raise leaves the slots. -/
@[simp] theorem AttentionRecord.slots_raise (r : AttentionRecord) (c : Cause) (d : Detail) : (r.raise c d).slots = r.slots := by
  cases d <;> rfl

/-- A raise adds its cause to the pending set. -/
@[simp] theorem AttentionRecord.pending_raise (r : AttentionRecord) (c : Cause) (d : Detail) :
    (r.raise c d).pending = r.pending ||| c.bit := by
  cases d <;> rfl

/-- A raise leaves the mask. -/
@[simp] theorem AttentionRecord.mask_raise (r : AttentionRecord) (c : Cause) (d : Detail) : (r.raise c d).mask = r.mask := by
  cases d <;> rfl

/-- A retirement keeps the canonical form. -/
theorem AttentionRecord.slots_zoneGone (z : Nat) {r : AttentionRecord} (h : Memory.wf none r.slots) :
    Memory.wf none (r.zoneGone z).slots := by
  unfold AttentionRecord.zoneGone
  generalize r.watching z = ks
  induction ks generalizing r with
  | nil => exact h
  | cons k rest ih =>
    refine ih ?_
    show Memory.wf none (AttentionRecord.raise _ _ _).slots
    rw [AttentionRecord.slots_raise]
    exact Memory.wf_write none h k none

end Sys2Proof.Machine
end

