-- ==== Sys2Proof/Laws/Image.lean ====
section
/-!
SUPPORT. What a write event does with everything that follows from it: the points it names, the generation it counts, the
timers and watches its notices reach, and nothing else.
-/

namespace Sys2Proof.Machine

/-! ## The edges of a write event (R68) -/

/-- A number joined to a list. -/
theorem mem_joinNumber (k i : Nat) (l : List Nat) : i ∈ joinNumber k l ↔ i = k ∨ i ∈ l := by
  induction l with
  | nil => simp [joinNumber]
  | cons j rest ih =>
    simp only [joinNumber]
    split
    · simp
    · split
      · rename_i h
        subst h
        simp
      · simp only [List.mem_cons, ih]
        tauto

/-- Numbers joined to a list. -/
theorem mem_foldr_joinNumber (i : Nat) (ks l : List Nat) : i ∈ ks.foldr joinNumber l ↔ i ∈ ks ∨ i ∈ l := by
  induction ks with
  | nil => simp
  | cons k rest ih => simp only [List.foldr_cons, mem_joinNumber, ih, List.mem_cons]; tauto

/-- A number that does not read as the default is listed. -/
theorem Memory.mem_of_read_ne {β : Type} (d : β) (m : Memory β) (i : Nat) (h : m.read d i ≠ d) : i ∈ m.map Prod.fst := by
  by_contra hi
  refine h (Memory.read_of_forall_ne d m i fun e he heq => hi ?_)
  exact List.mem_map.mpr ⟨e, he, heq⟩

/-- R68: a bit is in the edges exactly when its value differs, with its new value. -/
theorem mem_bitEdges (before after : Memory Bool) (i : Nat) (v : Bool) :
    (i, v) ∈ bitEdges before after ↔ after.read false i = v ∧ before.read false i ≠ v := by
  unfold bitEdges
  simp only [List.mem_map, List.mem_filter, mem_foldr_joinNumber]
  constructor
  · rintro ⟨j, ⟨-, hne⟩, heq⟩
    obtain ⟨rfl, rfl⟩ := Prod.mk.inj heq
    exact ⟨rfl, by simpa using hne⟩
  · rintro ⟨ha, hb⟩
    subst ha
    refine ⟨i, ⟨?_, by simpa using hb⟩, rfl⟩
    by_cases h : before.read false i = false
    · refine Or.inr (List.mem_map.mp (Memory.mem_of_read_ne false after i ?_))
      intro ha
      exact hb (by rw [h, ha])
    · exact Or.inl (List.mem_map.mp (Memory.mem_of_read_ne false before i h))

/-- R68: nothing changes where the two images read alike. -/
theorem bitEdges_eq_nil_iff (before after : Memory Bool) :
    bitEdges before after = [] ↔ ∀ i, after.read false i = before.read false i := by
  constructor
  · intro h i
    by_contra hne
    have : (i, after.read false i) ∈ bitEdges before after := (mem_bitEdges _ _ _ _).mpr ⟨rfl, fun hb => hne hb.symm⟩
    rw [h] at this
    exact absurd this (by simp)
  · intro h
    refine List.eq_nil_iff_forall_not_mem.mpr ?_
    rintro ⟨i, v⟩ hm
    obtain ⟨ha, hb⟩ := (mem_bitEdges _ _ _ _).mp hm
    exact hb (by rw [← ha, h i])

/-- The same image has no edges. -/
@[simp] theorem bitEdges_self (m : Memory Bool) : bitEdges m m = [] := (bitEdges_eq_nil_iff m m).mpr fun _ => rfl

/-- An edge of a notice, looked up, is the value that differs. -/
theorem edgeOf_bitEdges (gens : List Nat) (before after : Memory Bool) (b : Nat) :
    (Notice.mk gens (bitEdges before after)).edgeOf b =
      if before.read false b = after.read false b then none else some (after.read false b) := by
  unfold Notice.edgeOf
  cases hf : (bitEdges before after).find? fun e => e.1 == b with
  | none =>
    split
    · rfl
    · rename_i hne
      have hm : (b, after.read false b) ∈ bitEdges before after := (mem_bitEdges _ _ _ _).mpr ⟨rfl, hne⟩
      have := List.find?_eq_none.mp hf _ hm
      simp at this
  | some e =>
    obtain ⟨i, v⟩ := e
    have hi : i = b := by simpa using List.find?_some hf
    subst hi
    obtain ⟨ha, hb⟩ := (mem_bitEdges _ _ _ _).mp (List.mem_of_find?_eq_some hf)
    rw [if_neg (by rw [ha]; exact hb)]
    simp [ha]

/-! ## Write events at the image store -/

/-- R70: a system-zone write applies its points, and counts zone 0 where a bit changed. -/
theorem State.storeSystem_fst (s : State) (w : Points) :
    (s.storeSystem w).1 =
      { s.store w with
          systemZone :=
            if (bitEdges s.bits (s.store w).bits).isEmpty then s.systemZone
            else { generation := seqNext s.systemZone.generation, lastTime := s.clock, lastEpoch := s.epoch } } := by
  unfold State.storeSystem
  dsimp only
  split <;> simp_all [State.store]

/-- R68, R70: the notice of a system-zone write. -/
theorem State.storeSystem_snd (s : State) (w : Points) :
    (s.storeSystem w).2 =
      if (bitEdges s.bits (s.store w).bits).isEmpty then ⟨[], []⟩ else ⟨[0], bitEdges s.bits (s.store w).bits⟩ := by
  unfold State.storeSystem
  dsimp only
  split <;> simp_all

/-- R70: the edges of a system-zone write are the bits that differ. -/
theorem State.storeSystem_edges (s : State) (w : Points) :
    (s.storeSystem w).2.edges = bitEdges s.bits (s.store w).bits := by
  rw [State.storeSystem_snd]
  split
  · rename_i h
    simpa using h.symm
  · rfl

/-- R46: the zones after some are counted. -/
theorem State.zone_foldl_countZone (zs : List Nat) (hzs : zs.Nodup) (s : State) (z : Nat) :
    (zs.foldl State.countZone s).zone z =
      if z ∈ zs then (s.zone z).map (ZoneRecord.counted s.clock s.epoch) else s.zone z := by
  induction zs generalizing s with
  | nil => simp
  | cons k rest ih =>
    obtain ⟨hk, hrest⟩ := List.nodup_cons.mp hzs
    have hcount : ∀ i, (s.countZone k).zone i =
        if i = k then (s.zone i).map (ZoneRecord.counted s.clock s.epoch) else s.zone i := by
      intro i
      unfold State.countZone
      split
      · rename_i r hr
        rw [State.zone_setZone]
        split
        · rename_i hi
          rw [hi, hr]
          rfl
        · rfl
      · rename_i hr
        split
        · rename_i hi
          rw [hi, hr]
          rfl
        · rfl
    have hclock : (s.countZone k).clock = s.clock ∧ (s.countZone k).epoch = s.epoch := by
      unfold State.countZone
      split <;> exact ⟨rfl, rfl⟩
    rw [List.foldl_cons, ih hrest, hcount, hclock.1, hclock.2]
    by_cases hz : z = k
    · subst hz
      simp [hk]
    · simp [hz]

/-- R46: counting zones changes the zones alone. -/
theorem State.foldl_countZone_frame (zs : List Nat) (s : State) :
    zs.foldl State.countZone s = { s with zones := (zs.foldl State.countZone s).zones } := by
  induction zs generalizing s with
  | nil => rfl
  | cons k rest ih =>
    rw [List.foldl_cons, ih]
    have : s.countZone k = { s with zones := (s.countZone k).zones } := by
      unfold State.countZone
      split <;> rfl
    rw [this]

/-- R66, R71: a counted write event applies its points and counts its zones. -/
theorem State.storeCounted_fst (s : State) (zs : List Nat) (w : Points) :
    (s.storeCounted zs w).1 = { s.store w with zones := (zs.foldl State.countZone (s.store w)).zones } :=
  State.foldl_countZone_frame zs (s.store w)

/-- R66: the image after a counted write event. -/
theorem State.storeCounted_bits (s : State) (zs : List Nat) (w : Points) :
    (s.storeCounted zs w).1.bits = (s.store w).bits := by rw [State.storeCounted_fst]

/-- R56: a clearing applies its points and counts nothing. -/
theorem State.storeClearing_fst (s : State) (w : Points) : (s.storeClearing w).1 = s.store w := rfl

/-! ## The timer array at a notice -/

/-- R118: the timer array's points are bits 0 to 31. -/
theorem timerPoints_bits_lt (before after : State) : ∀ b ∈ (timerPoints before after).bits, b.1 < 32 := by
  intro b hb
  obtain ⟨t, ht, rfl⟩ := List.mem_map.mp hb
  simpa [Config.timerCount] using (List.mem_filter.mp ht).1

/-- R118: the timer array's points are words 0 to 31. -/
theorem timerPoints_words_lt (before after : State) : ∀ b ∈ (timerPoints before after).words, b.1 < 32 := by
  intro b hb
  obtain ⟨t, ht, rfl⟩ := List.mem_map.mp hb
  simpa [Config.timerCount] using (List.mem_filter.mp ht).1

/-- A source rise leaves the settings. -/
@[simp] theorem Armed.settings_rise (c : Clock) (t : Armed) : (t.rise c).settings = t.settings := by
  unfold Armed.rise
  split <;> rfl

/-- A source fall leaves the settings. -/
@[simp] theorem Armed.settings_fall (c : Clock) (t : Armed) : (t.fall c).settings = t.settings := by
  unfold Armed.fall
  split <;> rfl

/-- The held values leave the settings. -/
@[simp] theorem Armed.settings_held (t : Armed) : t.held.settings = t.settings := rfl

/-- A notice leaves the settings. -/
@[simp] theorem Armed.settings_take (n : Notice) (bits : Memory Bool) (c : Clock) (t : Armed) :
    (t.take n bits c).settings = t.settings := by
  unfold Armed.take
  split
  · rfl
  · split
    · exact Armed.settings_rise c t.held
    · rfl
  · split
    · rfl
    · split
      · exact Armed.settings_rise c t
      · exact Armed.settings_fall c t
      · rfl

/-- A count leaves the settings. -/
@[simp] theorem Armed.settings_count1 (t : Armed) : t.count1.settings = t.settings := by
  unfold Armed.count1
  dsimp only
  split
  · split <;> rfl
  · rfl

/-- A tick leaves the settings. -/
@[simp] theorem Armed.settings_tick (bits : Memory Bool) (c : Clock) (t : Armed) : (t.tick bits c).settings = t.settings := by
  unfold Armed.tick
  split
  · exact Armed.settings_count1 t
  · rfl

/-- R118: the timer array at a notice: the timers take it, the rest of the state changes by one system-zone write. -/
theorem State.timersTake_fst (s : State) (n : Notice) :
    (s.timersTake n).1 =
      { s with
          timers := (s.mapTimers (Armed.take n s.bits s.clock)).timers
          bits := (s.timersTake n).1.bits
          words := (s.timersTake n).1.words
          systemZone := (s.timersTake n).1.systemZone } := by
  unfold State.timersTake
  dsimp only
  rw [State.storeSystem_fst]
  rfl

/-- A bit at or above 32 after the timer array took a notice. -/
theorem State.timersTake_bit (s : State) (n : Notice) (i : Nat) (h : 32 ≤ i) : (s.timersTake n).1.bit i = s.bit i := by
  unfold State.timersTake
  dsimp only
  rw [State.storeSystem_fst]
  show ((s.mapTimers _).store _).bit i = s.bit i
  rw [State.bit_store_ne]
  · rfl
  · intro b hb
    have := timerPoints_bits_lt _ _ b hb
    omega

/-- A word at or above 32 after the timer array took a notice. -/
theorem State.timersTake_word (s : State) (n : Notice) (i : Nat) (h : 32 ≤ i) : (s.timersTake n).1.word i = s.word i := by
  unfold State.timersTake
  dsimp only
  rw [State.storeSystem_fst]
  show ((s.mapTimers _).store _).word i = s.word i
  rw [State.word_store_ne]
  · rfl
  · intro b hb
    have := timerPoints_words_lt _ _ b hb
    omega

/-! ## A notice delivered (R69) -/

/-- R69: an empty notice does nothing. -/
@[simp] theorem State.deliver_empty (k : Nat) (s : State) (n : Notice) (h : n.isEmpty = true) : s.deliver k n = s := by
  cases k <;> simp [State.deliver, h]

/-- An induction over a chain: what one firing and one answer of the timer array keep, the whole chain keeps. -/
theorem State.deliver_keeps (P : State → Prop) (hfire : ∀ s n, P s → P (s.fireChange n))
    (htake : ∀ s n, P s → P (s.timersTake n).1) (k : Nat) (s : State) (n : Notice) (h : P s) : P (s.deliver k n) := by
  induction k generalizing s n with
  | zero =>
    unfold State.deliver
    split
    · exact h
    · exact hfire s n h
  | succ k ih =>
    unfold State.deliver
    split
    · exact h
    · exact ih _ _ (htake _ n (hfire s n h))

/-- R69: a delivered notice changes timers, bits and words, zone 0 and attention records alone. -/
theorem State.deliver_frame (k : Nat) (s : State) (n : Notice) :
    s.deliver k n =
      { s with
          systemZone := (s.deliver k n).systemZone
          bits := (s.deliver k n).bits
          words := (s.deliver k n).words
          timers := (s.deliver k n).timers
          attention := (s.deliver k n).attention } := by
  refine State.deliver_keeps
    (fun t => t = { s with systemZone := t.systemZone, bits := t.bits, words := t.words, timers := t.timers,
                           attention := t.attention }) ?_ ?_ k s n rfl
  · intro t m h
    rw [State.fireChange_frame]
    rw [h]
  · intro t m h
    rw [State.timersTake_fst]
    rw [h]

/-- R69: a chain leaves every bit from 32 up. -/
theorem State.deliver_bit (k : Nat) (s : State) (n : Notice) (i : Nat) (h : 32 ≤ i) : (s.deliver k n).bit i = s.bit i :=
  State.deliver_keeps (fun t => t.bit i = s.bit i) (fun t m ht => by simpa using ht)
    (fun t m ht => by rw [State.timersTake_bit t m i h, ht]) k s n rfl

/-- R69: a chain leaves every word from 32 up. -/
theorem State.deliver_word (k : Nat) (s : State) (n : Notice) (i : Nat) (h : 32 ≤ i) :
    (s.deliver k n).word i = s.word i :=
  State.deliver_keeps (fun t => t.word i = s.word i) (fun t m ht => by simpa using ht)
    (fun t m ht => by rw [State.timersTake_word t m i h, ht]) k s n rfl

/-- The timers after the timer array took a notice. -/
theorem State.timersTake_timer (s : State) (n : Notice) (t : Nat) :
    (s.timersTake n).1.timer t = (s.timer t).map (Armed.take n s.bits s.clock) := by
  rw [State.timersTake_fst]
  exact State.timer_mapTimers s _ t

/-- R69: a chain leaves the settings of every timer. -/
theorem State.deliver_settings (k : Nat) (s : State) (n : Notice) (t : Nat) :
    ((s.deliver k n).timer t).map Armed.settings = (s.timer t).map Armed.settings := by
  refine State.deliver_keeps (fun u => (u.timer t).map Armed.settings = (s.timer t).map Armed.settings)
    (fun u m hu => by simpa using hu) (fun u m hu => ?_) k s n rfl
  rw [State.timersTake_timer, Option.map_map, ← hu]
  congr 1
  funext a
  exact Armed.settings_take m _ _ a

/-- R69: a chain leaves the mask and the detail sets of every attention record. -/
theorem State.deliver_details (k : Nat) (s : State) (n : Notice) (p : Port) :
    ((s.deliver k n).attention.get p).map AttentionRecord.details =
      (s.attention.get p).map AttentionRecord.details := by
  refine State.deliver_keeps
    (fun u => (u.attention.get p).map AttentionRecord.details = (s.attention.get p).map AttentionRecord.details)
    (fun u m hu => ?_) (fun u m hu => ?_) k s n rfl
  · rw [State.attention_fireChange, Option.map_map, ← hu]
    congr 1
    funext r
    exact AttentionRecord.details_fireWhere _ r
  · rw [State.timersTake_fst]
    exact hu

/-- WATCH joined to a set leaves the causes of a set without WATCH. -/
theorem or_watch_and : ∀ x c : CauseSet, c &&& Cause.watch.bit = 0 → (x ||| Cause.watch.bit) &&& c = x &&& c := by
  decide +kernel

/-- R69: a chain adds WATCH to pending sets, or nothing. -/
theorem State.deliver_pendingSet (k : Nat) (s : State) (n : Notice) (p : Port) (c : CauseSet)
    (hc : c &&& Cause.watch.bit = 0) :
    ((s.deliver k n).attention.get p).map (fun r => r.pending &&& c) =
      (s.attention.get p).map (fun r => r.pending &&& c) := by
  refine State.deliver_keeps
    (fun u => (u.attention.get p).map (fun r => r.pending &&& c) = (s.attention.get p).map (fun r => r.pending &&& c))
    (fun u m hu => ?_) (fun u m hu => ?_) k s n rfl
  · rw [State.attention_fireChange, Option.map_map, ← hu]
    congr 1
    funext r
    show (AttentionRecord.fireWhere _ r).pending &&& c = r.pending &&& c
    rcases AttentionRecord.pending_fireWhere (Watch.seesChange m) r with h | h
    · rw [h]
    · rw [h]
      exact or_watch_and r.pending c hc
  · rw [State.timersTake_fst]
    exact hu

/-- R69: a chain gives no session a record and takes none away. -/
theorem State.deliver_isSome (k : Nat) (s : State) (n : Notice) (p : Port) :
    ((s.deliver k n).attention.get p).isSome = (s.attention.get p).isSome := by
  have h := congrArg Option.isSome (State.deliver_details k s n p)
  simpa using h

/-- R69: a chain leaves a record without watches as it is. -/
theorem State.deliver_no_slots (k : Nat) (s : State) (n : Notice) (p : Port) (r : AttentionRecord)
    (hr : s.attention.get p = some r) (h : r.slots = []) : (s.deliver k n).attention.get p = some r := by
  refine State.deliver_keeps (fun u => u.attention.get p = some r) (fun u m hu => ?_) (fun u m hu => ?_) k s n hr
  · rw [State.attention_fireChange, hu]
    simp [AttentionRecord.fireWhere_of_no_slots _ _ h]
  · rw [State.timersTake_fst]
    exact hu

/-! ## Whole write events -/

/-- R70: a system-zone write with what follows, in two parts. -/
theorem State.writeSystem_eq (s : State) (w : Points) :
    s.writeSystem w = (s.storeSystem w).1.deliver Config.chainLimit (s.storeSystem w).2 := rfl

/-- R70: a system-zone write changes timers, bits and words, zone 0 and attention records alone. -/
theorem State.writeSystem_frame (s : State) (w : Points) :
    s.writeSystem w =
      { s with
          systemZone := (s.writeSystem w).systemZone
          bits := (s.writeSystem w).bits
          words := (s.writeSystem w).words
          timers := (s.writeSystem w).timers
          attention := (s.writeSystem w).attention } := by
  rw [State.writeSystem_eq, State.deliver_frame, State.storeSystem_fst]
  rfl

/-- R70: a bit from 32 up after a system-zone write is what the write stores. -/
theorem State.writeSystem_bit (s : State) (w : Points) (i : Nat) (h : 32 ≤ i) :
    (s.writeSystem w).bit i = (s.store w).bit i := by
  rw [State.writeSystem_eq, State.deliver_bit _ _ _ _ h, State.storeSystem_fst]
  rfl

/-- R70: a word from 32 up after a system-zone write is what the write stores. -/
theorem State.writeSystem_word (s : State) (w : Points) (i : Nat) (h : 32 ≤ i) :
    (s.writeSystem w).word i = (s.store w).word i := by
  rw [State.writeSystem_eq, State.deliver_word _ _ _ _ h, State.storeSystem_fst]
  rfl

/-- R70: a system-zone write leaves the settings of every timer. -/
theorem State.writeSystem_settings (s : State) (w : Points) (t : Nat) :
    ((s.writeSystem w).timer t).map Armed.settings = (s.timer t).map Armed.settings := by
  rw [State.writeSystem_eq, State.deliver_settings, State.storeSystem_fst]
  rfl

/-- R70: a system-zone write leaves the mask and the detail sets of every attention record. -/
theorem State.writeSystem_details (s : State) (w : Points) (p : Port) :
    ((s.writeSystem w).attention.get p).map AttentionRecord.details = (s.attention.get p).map AttentionRecord.details := by
  rw [State.writeSystem_eq, State.deliver_details, State.storeSystem_fst]
  rfl

/-- R70: a system-zone write adds WATCH to pending sets, or nothing. -/
theorem State.writeSystem_pendingSet (s : State) (w : Points) (p : Port) (c : CauseSet)
    (hc : c &&& Cause.watch.bit = 0) :
    ((s.writeSystem w).attention.get p).map (fun r => r.pending &&& c) =
      (s.attention.get p).map (fun r => r.pending &&& c) := by
  rw [State.writeSystem_eq, State.deliver_pendingSet _ _ _ _ _ hc, State.storeSystem_fst]
  rfl

/-- R70: a system-zone write leaves a record without watches as it is. -/
theorem State.writeSystem_no_slots (s : State) (w : Points) (p : Port) (r : AttentionRecord)
    (hr : s.attention.get p = some r) (h : r.slots = []) : (s.writeSystem w).attention.get p = some r := by
  rw [State.writeSystem_eq]
  refine State.deliver_no_slots _ _ _ _ r ?_ h
  rw [State.storeSystem_fst]
  exact hr

/-- R68, R70: a system-zone write that changes no bit stores its words and forms no notice. -/
theorem State.writeSystem_no_edges (s : State) (w : Points) (h : ∀ i, (s.store w).bit i = s.bit i) :
    s.writeSystem w = s.store w := by
  have he : bitEdges s.bits (s.store w).bits = [] := (bitEdges_eq_nil_iff _ _).mpr h
  rw [State.writeSystem_eq, State.deliver_empty, State.storeSystem_fst, he]
  · rfl
  · rw [State.storeSystem_snd, he]
    rfl

/-- A system-zone write that names nothing. -/
@[simp] theorem State.writeSystem_nothing (s : State) : s.writeSystem ⟨[], []⟩ = s :=
  State.writeSystem_no_edges s ⟨[], []⟩ fun _ => rfl

/-- R66, R71: a counted write event changes zones, timers, bits and words, zone 0 and attention records alone. -/
theorem State.writeZones_frame (s : State) (zs : List Nat) (w : Points) :
    s.writeZones zs w =
      { s with
          systemZone := (s.writeZones zs w).systemZone
          zones := (zs.foldl State.countZone (s.store w)).zones
          bits := (s.writeZones zs w).bits
          words := (s.writeZones zs w).words
          timers := (s.writeZones zs w).timers
          attention := (s.writeZones zs w).attention } := by
  unfold State.writeZones
  dsimp only
  rw [State.deliver_frame, State.storeCounted_fst]
  rfl

/-- R46, R66: the zones after a counted write event. -/
theorem State.writeZones_zone (s : State) (zs : List Nat) (hzs : zs.Nodup) (w : Points) (z : Nat) :
    (s.writeZones zs w).zone z =
      if z ∈ zs then (s.zone z).map (ZoneRecord.counted s.clock s.epoch) else s.zone z := by
  rw [State.writeZones_frame]
  show (zs.foldl State.countZone (s.store w)).zone z = _
  rw [State.zone_foldl_countZone zs hzs]
  rfl

/-- R66: a bit from 32 up after a counted write event is what the event stores. -/
theorem State.writeZones_bit (s : State) (zs : List Nat) (w : Points) (i : Nat) (h : 32 ≤ i) :
    (s.writeZones zs w).bit i = (s.store w).bit i := by
  unfold State.writeZones
  dsimp only
  rw [State.deliver_bit _ _ _ _ h, State.storeCounted_fst]
  rfl

/-- R66: a word from 32 up after a counted write event is what the event stores. -/
theorem State.writeZones_word (s : State) (zs : List Nat) (w : Points) (i : Nat) (h : 32 ≤ i) :
    (s.writeZones zs w).word i = (s.store w).word i := by
  unfold State.writeZones
  dsimp only
  rw [State.deliver_word _ _ _ _ h, State.storeCounted_fst]
  rfl

/-- R56: a clearing changes timers, bits and words, zone 0 and attention records alone. -/
theorem State.writeClearing_frame (s : State) (w : Points) :
    s.writeClearing w =
      { s with
          systemZone := (s.writeClearing w).systemZone
          bits := (s.writeClearing w).bits
          words := (s.writeClearing w).words
          timers := (s.writeClearing w).timers
          attention := (s.writeClearing w).attention } := by
  unfold State.writeClearing
  dsimp only
  rw [State.deliver_frame, State.storeClearing_fst]
  rfl

/-- R56: a bit from 32 up after a clearing is what the clearing stores. -/
theorem State.writeClearing_bit (s : State) (w : Points) (i : Nat) (h : 32 ≤ i) :
    (s.writeClearing w).bit i = (s.store w).bit i := by
  unfold State.writeClearing
  dsimp only
  rw [State.deliver_bit _ _ _ _ h, State.storeClearing_fst]

/-- R56: a word from 32 up after a clearing is what the clearing stores. -/
theorem State.writeClearing_word (s : State) (w : Points) (i : Nat) (h : 32 ≤ i) :
    (s.writeClearing w).word i = (s.store w).word i := by
  unfold State.writeClearing
  dsimp only
  rw [State.deliver_word _ _ _ _ h, State.storeClearing_fst]

/-- R71: a loss-policy write changes zones, timers, bits and words, zone 0 and attention records alone. -/
theorem State.writePolicy_frame (s : State) (z : Nat) :
    s.writePolicy z =
      { s with
          systemZone := (s.writePolicy z).systemZone
          zones := (s.writePolicy z).zones
          bits := (s.writePolicy z).bits
          words := (s.writePolicy z).words
          timers := (s.writePolicy z).timers
          attention := (s.writePolicy z).attention } := by
  unfold State.writePolicy
  split
  · rw [State.writeZones_frame]
  · rfl

/-- R46, R71: the zones after a loss-policy write. -/
theorem State.writePolicy_zone (s : State) (z i : Nat) :
    (s.writePolicy z).zone i =
      if i = z ∧ ((s.zone z).bind ZoneRecord.policyPoints).isSome then
        (s.zone i).map (ZoneRecord.counted s.clock s.epoch)
      else s.zone i := by
  unfold State.writePolicy
  split
  · rename_i w hw
    rw [State.writeZones_zone s [z] (by simp) w i]
    simp [hw]
  · rename_i hw
    simp [hw]

/-! ## Every other field stands -/

@[simp] theorem State.writeSystem_phase (s : State) (w : Points) : (s.writeSystem w).phase = s.phase := by rw [State.writeSystem_frame]
@[simp] theorem State.writeSystem_clock (s : State) (w : Points) : (s.writeSystem w).clock = s.clock := by rw [State.writeSystem_frame]
@[simp] theorem State.writeSystem_epoch (s : State) (w : Points) : (s.writeSystem w).epoch = s.epoch := by rw [State.writeSystem_frame]
@[simp] theorem State.writeSystem_tickDue (s : State) (w : Points) : (s.writeSystem w).tickDue = s.tickDue := by rw [State.writeSystem_frame]
@[simp] theorem State.writeSystem_freeWordDue (s : State) (w : Points) : (s.writeSystem w).freeWordDue = s.freeWordDue := by rw [State.writeSystem_frame]
@[simp] theorem State.writeSystem_sessionCounter (s : State) (w : Points) : (s.writeSystem w).sessionCounter = s.sessionCounter := by rw [State.writeSystem_frame]
@[simp] theorem State.writeSystem_links (s : State) (w : Points) : (s.writeSystem w).links = s.links := by rw [State.writeSystem_frame]
@[simp] theorem State.writeSystem_ports (s : State) (w : Points) : (s.writeSystem w).ports = s.ports := by rw [State.writeSystem_frame]
@[simp] theorem State.writeSystem_zones (s : State) (w : Points) : (s.writeSystem w).zones = s.zones := by rw [State.writeSystem_frame]
@[simp] theorem State.writeSystem_tokens (s : State) (w : Points) : (s.writeSystem w).tokens = s.tokens := by rw [State.writeSystem_frame]
@[simp] theorem State.writeSystem_exchange (s : State) (w : Points) : (s.writeSystem w).exchange = s.exchange := by rw [State.writeSystem_frame]
@[simp] theorem State.writeSystem_faults (s : State) (w : Points) : (s.writeSystem w).faults = s.faults := by rw [State.writeSystem_frame]
@[simp] theorem State.writeSystem_overflow (s : State) (w : Points) : (s.writeSystem w).overflow = s.overflow := by rw [State.writeSystem_frame]
@[simp] theorem State.writeSystem_freeDraws (s : State) (w : Points) : (s.writeSystem w).freeDraws = s.freeDraws := by rw [State.writeSystem_frame]
@[simp] theorem State.writeSystem_pending (s : State) (w : Points) : (s.writeSystem w).pending = s.pending := by rw [State.writeSystem_frame]
@[simp] theorem State.writeSystem_session (s : State) (w : Points) (q : Port) : (s.writeSystem w).session q = s.session q := by simp [State.session]
@[simp] theorem State.writeSystem_zone (s : State) (w : Points) (z : Nat) : (s.writeSystem w).zone z = s.zone z := by simp [State.zone]
@[simp] theorem State.writeSystem_token (s : State) (w : Points) (t : Nat) : (s.writeSystem w).token t = s.token t := by simp [State.token]

@[simp] theorem State.writeZones_phase (s : State) (zs : List Nat) (w : Points) : (s.writeZones zs w).phase = s.phase := by rw [State.writeZones_frame]
@[simp] theorem State.writeZones_clock (s : State) (zs : List Nat) (w : Points) : (s.writeZones zs w).clock = s.clock := by rw [State.writeZones_frame]
@[simp] theorem State.writeZones_epoch (s : State) (zs : List Nat) (w : Points) : (s.writeZones zs w).epoch = s.epoch := by rw [State.writeZones_frame]
@[simp] theorem State.writeZones_tickDue (s : State) (zs : List Nat) (w : Points) : (s.writeZones zs w).tickDue = s.tickDue := by rw [State.writeZones_frame]
@[simp] theorem State.writeZones_freeWordDue (s : State) (zs : List Nat) (w : Points) : (s.writeZones zs w).freeWordDue = s.freeWordDue := by rw [State.writeZones_frame]
@[simp] theorem State.writeZones_sessionCounter (s : State) (zs : List Nat) (w : Points) : (s.writeZones zs w).sessionCounter = s.sessionCounter := by rw [State.writeZones_frame]
@[simp] theorem State.writeZones_links (s : State) (zs : List Nat) (w : Points) : (s.writeZones zs w).links = s.links := by rw [State.writeZones_frame]
@[simp] theorem State.writeZones_ports (s : State) (zs : List Nat) (w : Points) : (s.writeZones zs w).ports = s.ports := by rw [State.writeZones_frame]
@[simp] theorem State.writeZones_tokens (s : State) (zs : List Nat) (w : Points) : (s.writeZones zs w).tokens = s.tokens := by rw [State.writeZones_frame]
@[simp] theorem State.writeZones_exchange (s : State) (zs : List Nat) (w : Points) : (s.writeZones zs w).exchange = s.exchange := by rw [State.writeZones_frame]
@[simp] theorem State.writeZones_faults (s : State) (zs : List Nat) (w : Points) : (s.writeZones zs w).faults = s.faults := by rw [State.writeZones_frame]
@[simp] theorem State.writeZones_overflow (s : State) (zs : List Nat) (w : Points) : (s.writeZones zs w).overflow = s.overflow := by rw [State.writeZones_frame]
@[simp] theorem State.writeZones_freeDraws (s : State) (zs : List Nat) (w : Points) : (s.writeZones zs w).freeDraws = s.freeDraws := by rw [State.writeZones_frame]
@[simp] theorem State.writeZones_pending (s : State) (zs : List Nat) (w : Points) : (s.writeZones zs w).pending = s.pending := by rw [State.writeZones_frame]
@[simp] theorem State.writeZones_session (s : State) (zs : List Nat) (w : Points) (q : Port) : (s.writeZones zs w).session q = s.session q := by simp [State.session]
@[simp] theorem State.writeZones_token (s : State) (zs : List Nat) (w : Points) (t : Nat) : (s.writeZones zs w).token t = s.token t := by simp [State.token]

@[simp] theorem State.writeClearing_phase (s : State) (w : Points) : (s.writeClearing w).phase = s.phase := by rw [State.writeClearing_frame]
@[simp] theorem State.writeClearing_clock (s : State) (w : Points) : (s.writeClearing w).clock = s.clock := by rw [State.writeClearing_frame]
@[simp] theorem State.writeClearing_epoch (s : State) (w : Points) : (s.writeClearing w).epoch = s.epoch := by rw [State.writeClearing_frame]
@[simp] theorem State.writeClearing_tickDue (s : State) (w : Points) : (s.writeClearing w).tickDue = s.tickDue := by rw [State.writeClearing_frame]
@[simp] theorem State.writeClearing_freeWordDue (s : State) (w : Points) : (s.writeClearing w).freeWordDue = s.freeWordDue := by rw [State.writeClearing_frame]
@[simp] theorem State.writeClearing_sessionCounter (s : State) (w : Points) : (s.writeClearing w).sessionCounter = s.sessionCounter := by rw [State.writeClearing_frame]
@[simp] theorem State.writeClearing_links (s : State) (w : Points) : (s.writeClearing w).links = s.links := by rw [State.writeClearing_frame]
@[simp] theorem State.writeClearing_ports (s : State) (w : Points) : (s.writeClearing w).ports = s.ports := by rw [State.writeClearing_frame]
@[simp] theorem State.writeClearing_zones (s : State) (w : Points) : (s.writeClearing w).zones = s.zones := by rw [State.writeClearing_frame]
@[simp] theorem State.writeClearing_tokens (s : State) (w : Points) : (s.writeClearing w).tokens = s.tokens := by rw [State.writeClearing_frame]
@[simp] theorem State.writeClearing_exchange (s : State) (w : Points) : (s.writeClearing w).exchange = s.exchange := by rw [State.writeClearing_frame]
@[simp] theorem State.writeClearing_faults (s : State) (w : Points) : (s.writeClearing w).faults = s.faults := by rw [State.writeClearing_frame]
@[simp] theorem State.writeClearing_overflow (s : State) (w : Points) : (s.writeClearing w).overflow = s.overflow := by rw [State.writeClearing_frame]
@[simp] theorem State.writeClearing_freeDraws (s : State) (w : Points) : (s.writeClearing w).freeDraws = s.freeDraws := by rw [State.writeClearing_frame]
@[simp] theorem State.writeClearing_pending (s : State) (w : Points) : (s.writeClearing w).pending = s.pending := by rw [State.writeClearing_frame]
@[simp] theorem State.writeClearing_session (s : State) (w : Points) (q : Port) : (s.writeClearing w).session q = s.session q := by simp [State.session]
@[simp] theorem State.writeClearing_zone (s : State) (w : Points) (z : Nat) : (s.writeClearing w).zone z = s.zone z := by simp [State.zone]
@[simp] theorem State.writeClearing_token (s : State) (w : Points) (t : Nat) : (s.writeClearing w).token t = s.token t := by simp [State.token]

@[simp] theorem State.writePolicy_phase (s : State) (n : Nat) : (s.writePolicy n).phase = s.phase := by rw [State.writePolicy_frame]
@[simp] theorem State.writePolicy_clock (s : State) (n : Nat) : (s.writePolicy n).clock = s.clock := by rw [State.writePolicy_frame]
@[simp] theorem State.writePolicy_epoch (s : State) (n : Nat) : (s.writePolicy n).epoch = s.epoch := by rw [State.writePolicy_frame]
@[simp] theorem State.writePolicy_tickDue (s : State) (n : Nat) : (s.writePolicy n).tickDue = s.tickDue := by rw [State.writePolicy_frame]
@[simp] theorem State.writePolicy_freeWordDue (s : State) (n : Nat) : (s.writePolicy n).freeWordDue = s.freeWordDue := by rw [State.writePolicy_frame]
@[simp] theorem State.writePolicy_sessionCounter (s : State) (n : Nat) : (s.writePolicy n).sessionCounter = s.sessionCounter := by rw [State.writePolicy_frame]
@[simp] theorem State.writePolicy_links (s : State) (n : Nat) : (s.writePolicy n).links = s.links := by rw [State.writePolicy_frame]
@[simp] theorem State.writePolicy_ports (s : State) (n : Nat) : (s.writePolicy n).ports = s.ports := by rw [State.writePolicy_frame]
@[simp] theorem State.writePolicy_tokens (s : State) (n : Nat) : (s.writePolicy n).tokens = s.tokens := by rw [State.writePolicy_frame]
@[simp] theorem State.writePolicy_exchange (s : State) (n : Nat) : (s.writePolicy n).exchange = s.exchange := by rw [State.writePolicy_frame]
@[simp] theorem State.writePolicy_faults (s : State) (n : Nat) : (s.writePolicy n).faults = s.faults := by rw [State.writePolicy_frame]
@[simp] theorem State.writePolicy_overflow (s : State) (n : Nat) : (s.writePolicy n).overflow = s.overflow := by rw [State.writePolicy_frame]
@[simp] theorem State.writePolicy_freeDraws (s : State) (n : Nat) : (s.writePolicy n).freeDraws = s.freeDraws := by rw [State.writePolicy_frame]
@[simp] theorem State.writePolicy_pending (s : State) (n : Nat) : (s.writePolicy n).pending = s.pending := by rw [State.writePolicy_frame]
@[simp] theorem State.writePolicy_session (s : State) (n : Nat) (q : Port) : (s.writePolicy n).session q = s.session q := by simp [State.session]
@[simp] theorem State.writePolicy_token (s : State) (n : Nat) (t : Nat) : (s.writePolicy n).token t = s.token t := by simp [State.token]


end Sys2Proof.Machine
end

