-- ==== Sys2Proof/Laws/Events.lean ====
section
/-!
SUPPORT. What a fault raise, the write events of one event, the end of a session and its beginning do: the fields they reach,
and that an order left open changes neither.
-/

namespace Sys2Proof.Machine

/-! ## The fault list -/

/-- R174: a raise in the list changes the entries and the overflow count alone. -/
theorem State.enterFault_frame (s : State) (n : Half) (o : Origin) (r : Half) :
    s.enterFault n o r =
      { s with faults := (s.enterFault n o r).faults, overflow := (s.enterFault n o r).overflow } := by
  unfold State.enterFault
  split <;> rfl

/-- R174 to R177: a raise changes the fault list, its points with what follows, and attention records alone. -/
theorem State.raiseFault_frame (s : State) (n : Half) (o : Origin) (r : Half) :
     s.raiseFault n o r =
      { s with
          systemZone := (s.raiseFault n o r).systemZone
          bits := (s.raiseFault n o r).bits
          words := (s.raiseFault n o r).words
          timers := (s.raiseFault n o r).timers
          attention := (s.raiseFault n o r).attention
          faults := (s.raiseFault n o r).faults
          overflow := (s.raiseFault n o r).overflow } := by
  unfold State.raiseFault State.writeFaults
  dsimp only
  split
  · rw [State.writeSystem_frame, State.enterFault_frame]
  · rw [State.raiseFaultAttention_frame, State.writeSystem_frame, State.enterFault_frame]
  · rw [State.raiseFaultAttention_frame, State.writeSystem_frame, State.enterFault_frame]

@[simp] theorem State.raiseFault_phase (s : State) (n : Half) (o : Origin) (r : Half) : (s.raiseFault n o r).phase = s.phase := by rw [State.raiseFault_frame]
@[simp] theorem State.raiseFault_clock (s : State) (n : Half) (o : Origin) (r : Half) : (s.raiseFault n o r).clock = s.clock := by rw [State.raiseFault_frame]
@[simp] theorem State.raiseFault_epoch (s : State) (n : Half) (o : Origin) (r : Half) : (s.raiseFault n o r).epoch = s.epoch := by rw [State.raiseFault_frame]
@[simp] theorem State.raiseFault_tickDue (s : State) (n : Half) (o : Origin) (r : Half) : (s.raiseFault n o r).tickDue = s.tickDue := by rw [State.raiseFault_frame]
@[simp] theorem State.raiseFault_freeWordDue (s : State) (n : Half) (o : Origin) (r : Half) : (s.raiseFault n o r).freeWordDue = s.freeWordDue := by rw [State.raiseFault_frame]
@[simp] theorem State.raiseFault_sessionCounter (s : State) (n : Half) (o : Origin) (r : Half) : (s.raiseFault n o r).sessionCounter = s.sessionCounter := by rw [State.raiseFault_frame]
@[simp] theorem State.raiseFault_links (s : State) (n : Half) (o : Origin) (r : Half) : (s.raiseFault n o r).links = s.links := by rw [State.raiseFault_frame]
@[simp] theorem State.raiseFault_ports (s : State) (n : Half) (o : Origin) (r : Half) : (s.raiseFault n o r).ports = s.ports := by rw [State.raiseFault_frame]
@[simp] theorem State.raiseFault_zones (s : State) (n : Half) (o : Origin) (r : Half) : (s.raiseFault n o r).zones = s.zones := by rw [State.raiseFault_frame]
@[simp] theorem State.raiseFault_tokens (s : State) (n : Half) (o : Origin) (r : Half) : (s.raiseFault n o r).tokens = s.tokens := by rw [State.raiseFault_frame]
@[simp] theorem State.raiseFault_exchange (s : State) (n : Half) (o : Origin) (r : Half) : (s.raiseFault n o r).exchange = s.exchange := by rw [State.raiseFault_frame]
@[simp] theorem State.raiseFault_freeDraws (s : State) (n : Half) (o : Origin) (r : Half) : (s.raiseFault n o r).freeDraws = s.freeDraws := by rw [State.raiseFault_frame]
@[simp] theorem State.raiseFault_pending (s : State) (n : Half) (o : Origin) (r : Half) : (s.raiseFault n o r).pending = s.pending := by rw [State.raiseFault_frame]
@[simp] theorem State.raiseFault_session (s : State) (n : Half) (o : Origin) (r : Half) (q : Port) : (s.raiseFault n o r).session q = s.session q := by simp [State.session]
@[simp] theorem State.raiseFault_zone (s : State) (n : Half) (o : Origin) (r : Half) (z : Nat) : (s.raiseFault n o r).zone z = s.zone z := by simp [State.zone]
@[simp] theorem State.raiseFault_token (s : State) (n : Half) (o : Origin) (r : Half) (t : Nat) : (s.raiseFault n o r).token t = s.token t := by simp [State.token]

/-- R174: the entries after a raise, whatever follows from its points. -/
@[simp] theorem State.raiseFault_faults (s : State) (n : Half) (o : Origin) (r : Half) :
    (s.raiseFault n o r).faults = (s.enterFault n o r).faults := by
  unfold State.raiseFault State.writeFaults
  dsimp only
  split <;> simp

/-- R174: the overflow count after a raise. -/
@[simp] theorem State.raiseFault_overflow (s : State) (n : Half) (o : Origin) (r : Half) :
    (s.raiseFault n o r).overflow = (s.enterFault n o r).overflow := by
  unfold State.raiseFault State.writeFaults
  dsimp only
  split <;> simp

/-! ## The moves of a session end -/

/-- The records of moves put in place change the zones alone. -/
theorem State.putMoves_frame (s : State) (ms : List ZoneMove) :
    s.putMoves ms = { s with zones := (s.putMoves ms).zones } := by
  unfold State.putMoves
  induction ms generalizing s with
  | nil => rfl
  | cons m rest ih =>
    rw [List.foldl_cons, ih]
    rfl

@[simp] theorem State.putMoves_phase (s : State) (ms : List ZoneMove) : (s.putMoves ms).phase = s.phase := by rw [State.putMoves_frame]
@[simp] theorem State.putMoves_clock (s : State) (ms : List ZoneMove) : (s.putMoves ms).clock = s.clock := by rw [State.putMoves_frame]
@[simp] theorem State.putMoves_epoch (s : State) (ms : List ZoneMove) : (s.putMoves ms).epoch = s.epoch := by rw [State.putMoves_frame]
@[simp] theorem State.putMoves_tickDue (s : State) (ms : List ZoneMove) : (s.putMoves ms).tickDue = s.tickDue := by rw [State.putMoves_frame]
@[simp] theorem State.putMoves_freeWordDue (s : State) (ms : List ZoneMove) : (s.putMoves ms).freeWordDue = s.freeWordDue := by rw [State.putMoves_frame]
@[simp] theorem State.putMoves_sessionCounter (s : State) (ms : List ZoneMove) : (s.putMoves ms).sessionCounter = s.sessionCounter := by rw [State.putMoves_frame]
@[simp] theorem State.putMoves_links (s : State) (ms : List ZoneMove) : (s.putMoves ms).links = s.links := by rw [State.putMoves_frame]
@[simp] theorem State.putMoves_ports (s : State) (ms : List ZoneMove) : (s.putMoves ms).ports = s.ports := by rw [State.putMoves_frame]
@[simp] theorem State.putMoves_systemZone (s : State) (ms : List ZoneMove) : (s.putMoves ms).systemZone = s.systemZone := by rw [State.putMoves_frame]
@[simp] theorem State.putMoves_bits (s : State) (ms : List ZoneMove) : (s.putMoves ms).bits = s.bits := by rw [State.putMoves_frame]
@[simp] theorem State.putMoves_words (s : State) (ms : List ZoneMove) : (s.putMoves ms).words = s.words := by rw [State.putMoves_frame]
@[simp] theorem State.putMoves_tokens (s : State) (ms : List ZoneMove) : (s.putMoves ms).tokens = s.tokens := by rw [State.putMoves_frame]
@[simp] theorem State.putMoves_timers (s : State) (ms : List ZoneMove) : (s.putMoves ms).timers = s.timers := by rw [State.putMoves_frame]
@[simp] theorem State.putMoves_exchange (s : State) (ms : List ZoneMove) : (s.putMoves ms).exchange = s.exchange := by rw [State.putMoves_frame]
@[simp] theorem State.putMoves_attention (s : State) (ms : List ZoneMove) : (s.putMoves ms).attention = s.attention := by rw [State.putMoves_frame]
@[simp] theorem State.putMoves_faults (s : State) (ms : List ZoneMove) : (s.putMoves ms).faults = s.faults := by rw [State.putMoves_frame]
@[simp] theorem State.putMoves_overflow (s : State) (ms : List ZoneMove) : (s.putMoves ms).overflow = s.overflow := by rw [State.putMoves_frame]
@[simp] theorem State.putMoves_freeDraws (s : State) (ms : List ZoneMove) : (s.putMoves ms).freeDraws = s.freeDraws := by rw [State.putMoves_frame]
@[simp] theorem State.putMoves_pending (s : State) (ms : List ZoneMove) : (s.putMoves ms).pending = s.pending := by rw [State.putMoves_frame]
@[simp] theorem State.putMoves_session (s : State) (ms : List ZoneMove) (q : Port) : (s.putMoves ms).session q = s.session q := by simp [State.session]
@[simp] theorem State.putMoves_bit (s : State) (ms : List ZoneMove) (i : Nat) : (s.putMoves ms).bit i = s.bit i := by simp [State.bit]
@[simp] theorem State.putMoves_word (s : State) (ms : List ZoneMove) (i : Nat) : (s.putMoves ms).word i = s.word i := by simp [State.word]
@[simp] theorem State.putMoves_token (s : State) (ms : List ZoneMove) (t : Nat) : (s.putMoves ms).token t = s.token t := by simp [State.token]
@[simp] theorem State.putMoves_timer (s : State) (ms : List ZoneMove) (t : Nat) : (s.putMoves ms).timer t = s.timer t := by simp [State.timer]

/-- R79, R81: the moves of a session end change the zones and attention records alone. -/
theorem State.takeMoves_frame (s : State) (ms : List ZoneMove) :
    s.takeMoves ms = { s with zones := (s.takeMoves ms).zones, attention := (s.takeMoves ms).attention } := by
  unfold State.takeMoves
  rw [State.fireOwnership_frame, State.raiseMoves_frame, State.putMoves_frame]

@[simp] theorem State.takeMoves_phase (s : State) (ms : List ZoneMove) : (s.takeMoves ms).phase = s.phase := by rw [State.takeMoves_frame]
@[simp] theorem State.takeMoves_clock (s : State) (ms : List ZoneMove) : (s.takeMoves ms).clock = s.clock := by rw [State.takeMoves_frame]
@[simp] theorem State.takeMoves_epoch (s : State) (ms : List ZoneMove) : (s.takeMoves ms).epoch = s.epoch := by rw [State.takeMoves_frame]
@[simp] theorem State.takeMoves_tickDue (s : State) (ms : List ZoneMove) : (s.takeMoves ms).tickDue = s.tickDue := by rw [State.takeMoves_frame]
@[simp] theorem State.takeMoves_freeWordDue (s : State) (ms : List ZoneMove) : (s.takeMoves ms).freeWordDue = s.freeWordDue := by rw [State.takeMoves_frame]
@[simp] theorem State.takeMoves_sessionCounter (s : State) (ms : List ZoneMove) : (s.takeMoves ms).sessionCounter = s.sessionCounter := by rw [State.takeMoves_frame]
@[simp] theorem State.takeMoves_links (s : State) (ms : List ZoneMove) : (s.takeMoves ms).links = s.links := by rw [State.takeMoves_frame]
@[simp] theorem State.takeMoves_ports (s : State) (ms : List ZoneMove) : (s.takeMoves ms).ports = s.ports := by rw [State.takeMoves_frame]
@[simp] theorem State.takeMoves_systemZone (s : State) (ms : List ZoneMove) : (s.takeMoves ms).systemZone = s.systemZone := by rw [State.takeMoves_frame]
@[simp] theorem State.takeMoves_bits (s : State) (ms : List ZoneMove) : (s.takeMoves ms).bits = s.bits := by rw [State.takeMoves_frame]
@[simp] theorem State.takeMoves_words (s : State) (ms : List ZoneMove) : (s.takeMoves ms).words = s.words := by rw [State.takeMoves_frame]
@[simp] theorem State.takeMoves_tokens (s : State) (ms : List ZoneMove) : (s.takeMoves ms).tokens = s.tokens := by rw [State.takeMoves_frame]
@[simp] theorem State.takeMoves_timers (s : State) (ms : List ZoneMove) : (s.takeMoves ms).timers = s.timers := by rw [State.takeMoves_frame]
@[simp] theorem State.takeMoves_exchange (s : State) (ms : List ZoneMove) : (s.takeMoves ms).exchange = s.exchange := by rw [State.takeMoves_frame]
@[simp] theorem State.takeMoves_faults (s : State) (ms : List ZoneMove) : (s.takeMoves ms).faults = s.faults := by rw [State.takeMoves_frame]
@[simp] theorem State.takeMoves_overflow (s : State) (ms : List ZoneMove) : (s.takeMoves ms).overflow = s.overflow := by rw [State.takeMoves_frame]
@[simp] theorem State.takeMoves_freeDraws (s : State) (ms : List ZoneMove) : (s.takeMoves ms).freeDraws = s.freeDraws := by rw [State.takeMoves_frame]
@[simp] theorem State.takeMoves_pending (s : State) (ms : List ZoneMove) : (s.takeMoves ms).pending = s.pending := by rw [State.takeMoves_frame]
@[simp] theorem State.takeMoves_session (s : State) (ms : List ZoneMove) (q : Port) : (s.takeMoves ms).session q = s.session q := by simp [State.session]
@[simp] theorem State.takeMoves_bit (s : State) (ms : List ZoneMove) (i : Nat) : (s.takeMoves ms).bit i = s.bit i := by simp [State.bit]
@[simp] theorem State.takeMoves_word (s : State) (ms : List ZoneMove) (i : Nat) : (s.takeMoves ms).word i = s.word i := by simp [State.word]
@[simp] theorem State.takeMoves_token (s : State) (ms : List ZoneMove) (t : Nat) : (s.takeMoves ms).token t = s.token t := by simp [State.token]
@[simp] theorem State.takeMoves_timer (s : State) (ms : List ZoneMove) (t : Nat) : (s.takeMoves ms).timer t = s.timer t := by simp [State.timer]

/-- R79, R81: the zones after the moves are those that the moves put in place. -/
@[simp] theorem State.takeMoves_zone (s : State) (ms : List ZoneMove) (z : Nat) :
    (s.takeMoves ms).zone z = (s.putMoves ms).zone z := by
  unfold State.takeMoves
  rw [State.fireOwnership_zone, State.raiseMoves_zone]

/-! ## The write events and raises of one event -/

/-- One action changes zones, timers, the image, the fault list and attention records alone. -/
theorem State.act_frame (s : State) (a : Action) :
     s.act a =
      { s with
          systemZone := (s.act a).systemZone
          zones := (s.act a).zones
          bits := (s.act a).bits
          words := (s.act a).words
          timers := (s.act a).timers
          attention := (s.act a).attention
          faults := (s.act a).faults
          overflow := (s.act a).overflow } := by
  cases a with
  | system w =>
    simp only [State.act]
    rw [State.writeSystem_frame]
  | policy z =>
    simp only [State.act]
    rw [State.writePolicy_frame]
  | clearing w =>
    simp only [State.act]
    rw [State.writeClearing_frame]
  | raise n =>
    simp only [State.act, State.raiseInternal]
    rw [State.raiseFault_frame]
  | move ms =>
    simp only [State.act]
    rw [State.takeMoves_frame]

@[simp] theorem State.act_phase (s : State) (a : Action) : (s.act a).phase = s.phase := by rw [State.act_frame]
@[simp] theorem State.act_clock (s : State) (a : Action) : (s.act a).clock = s.clock := by rw [State.act_frame]
@[simp] theorem State.act_epoch (s : State) (a : Action) : (s.act a).epoch = s.epoch := by rw [State.act_frame]
@[simp] theorem State.act_tickDue (s : State) (a : Action) : (s.act a).tickDue = s.tickDue := by rw [State.act_frame]
@[simp] theorem State.act_freeWordDue (s : State) (a : Action) : (s.act a).freeWordDue = s.freeWordDue := by rw [State.act_frame]
@[simp] theorem State.act_sessionCounter (s : State) (a : Action) : (s.act a).sessionCounter = s.sessionCounter := by rw [State.act_frame]
@[simp] theorem State.act_links (s : State) (a : Action) : (s.act a).links = s.links := by rw [State.act_frame]
@[simp] theorem State.act_ports (s : State) (a : Action) : (s.act a).ports = s.ports := by rw [State.act_frame]
@[simp] theorem State.act_tokens (s : State) (a : Action) : (s.act a).tokens = s.tokens := by rw [State.act_frame]
@[simp] theorem State.act_exchange (s : State) (a : Action) : (s.act a).exchange = s.exchange := by rw [State.act_frame]
@[simp] theorem State.act_freeDraws (s : State) (a : Action) : (s.act a).freeDraws = s.freeDraws := by rw [State.act_frame]
@[simp] theorem State.act_pending (s : State) (a : Action) : (s.act a).pending = s.pending := by rw [State.act_frame]
@[simp] theorem State.act_session (s : State) (a : Action) (q : Port) : (s.act a).session q = s.session q := by simp [State.session]
@[simp] theorem State.act_token (s : State) (a : Action) (t : Nat) : (s.act a).token t = s.token t := by simp [State.token]

/-- What every action of a list keeps, the list keeps. -/
theorem State.actAll_keeps (P : State → Prop) (as : List Action) (h : ∀ a ∈ as, ∀ t, P t → P (t.act a)) (s : State)
    (hs : P s) : P (s.actAll as) := by
  unfold State.actAll
  induction as generalizing s with
  | nil => exact hs
  | cons a rest ih => exact ih (fun b hb => h b (by simp [hb])) _ (h a (by simp) s hs)

/-- What one action of a list reaches and every action keeps holds after the list. -/
theorem State.actAll_reaches (P Q : State → Prop) (as : List Action) (a : Action) (ha : a ∈ as)
    (hP : ∀ b ∈ as, ∀ t, P t → P (t.act b)) (hreach : ∀ t, P t → Q (t.act a))
    (hQ : ∀ b ∈ as, ∀ t, P t → Q t → Q (t.act b)) (s : State) (hs : P s) : Q (s.actAll as) := by
  unfold State.actAll
  induction as generalizing s with
  | nil => exact absurd ha (by simp)
  | cons b rest ih =>
    rw [List.foldl_cons]
    rcases List.mem_cons.mp ha with rfl | ha'
    · exact (State.actAll_keeps (fun t => P t ∧ Q t) rest
        (fun c hc t ht => ⟨hP c (by simp [hc]) t ht.1, hQ c (by simp [hc]) t ht.1 ht.2⟩) _
        ⟨hP a (by simp) s hs, hreach s hs⟩).2
    · exact ih ha' (fun c hc => hP c (by simp [hc])) (fun c hc => hQ c (by simp [hc])) _ (hP b (by simp) s hs)

/-- Two sequences run into one hold what they held. -/
theorem riffle_perm {α : Type} (n : Nat) (xs ys : List α) : (riffle n xs ys).1.Perm (xs ++ ys) := by
  induction xs generalizing n ys with
  | nil => simp [riffle]
  | cons x xs ih =>
    cases ys with
    | nil => simp [riffle]
    | cons y ys =>
      simp only [riffle]
      generalize Config.freeOrder n % (ys.length + 2) = k
      refine (List.Perm.append_left _ (List.Perm.cons x (ih (n + 1) _))).trans ?_
      refine List.perm_middle.trans ?_
      rw [List.cons_append]
      refine List.Perm.cons x ?_
      refine (List.perm_append_comm_assoc _ _ _).trans ?_
      rw [List.take_append_drop]

/-- A list in a free order holds what it held. -/
theorem shuffle_perm {α : Type} (n : Nat) (xs : List α) : (shuffle n xs).1.Perm xs := by
  induction xs generalizing n with
  | nil => exact List.Perm.refl _
  | cons x xs ih =>
    simp only [shuffle]
    exact (riffle_perm _ _ _).trans (List.Perm.cons x (ih n))

/-- Several sequences run into one hold what they held. -/
theorem riffleAll_perm {α : Type} (n : Nat) (xss : List (List α)) : (riffleAll n xss).1.Perm xss.flatten := by
  induction xss generalizing n with
  | nil => exact List.Perm.refl _
  | cons xs rest ih =>
    simp only [riffleAll, List.flatten_cons]
    exact (riffle_perm _ _ _).trans (List.Perm.append_left xs (ih n))

/-- What every action of the blocks keeps holds after them, in whatever order they are taken (entry 5). -/
theorem State.actFreely_keeps (P : State → Prop) (s : State) (blocks : List (List Action))
    (hs : ∀ n, P { s with freeDraws := n }) (h : ∀ a ∈ blocks.flatten, ∀ t, P t → P (t.act a)) :
    P (s.actFreely blocks) := by
  unfold State.actFreely
  exact State.actAll_keeps P _ (fun a ha => h a ((riffleAll_perm _ _).mem_iff.mp ha)) _ (hs _)

/-- What one action of the blocks reaches and every action keeps holds after them, in whatever order they are taken
(entry 5). -/
theorem State.actFreely_reaches (P Q : State → Prop) (s : State) (blocks : List (List Action)) (a : Action)
    (ha : a ∈ blocks.flatten) (hs : ∀ n, P { s with freeDraws := n })
    (hP : ∀ b ∈ blocks.flatten, ∀ t, P t → P (t.act b)) (hreach : ∀ t, P t → Q (t.act a))
    (hQ : ∀ b ∈ blocks.flatten, ∀ t, P t → Q t → Q (t.act b)) : Q (s.actFreely blocks) := by
  unfold State.actFreely
  have hm := fun b => (riffleAll_perm s.freeDraws blocks).mem_iff (a := b)
  exact State.actAll_reaches P Q _ a ((hm a).mpr ha) (fun b hb => hP b ((hm b).mp hb)) hreach
    (fun b hb => hQ b ((hm b).mp hb)) _ (hs _)

/-- The actions of no block do nothing but count. -/
theorem State.actFreely_nothing (s : State) (blocks : List (List Action)) (h : blocks.flatten = []) :
    s.actFreely blocks = { s with freeDraws := (s.actFreely blocks).freeDraws } := by
  have hp := (riffleAll_perm s.freeDraws blocks).length_eq
  rw [h] at hp
  have hnil : (riffleAll s.freeDraws blocks).1 = [] := List.length_eq_zero_iff.mp hp
  unfold State.actFreely State.actAll
  dsimp only
  rw [hnil]
  rfl

/-- The actions of several blocks change zones, timers, the image, the fault list and attention records alone. -/
theorem State.actFreely_frame (s : State) (blocks : List (List Action)) :
     s.actFreely blocks =
      { s with
          systemZone := (s.actFreely blocks).systemZone
          zones := (s.actFreely blocks).zones
          bits := (s.actFreely blocks).bits
          words := (s.actFreely blocks).words
          timers := (s.actFreely blocks).timers
          attention := (s.actFreely blocks).attention
          faults := (s.actFreely blocks).faults
          overflow := (s.actFreely blocks).overflow
          freeDraws := (s.actFreely blocks).freeDraws } := by
  refine State.actFreely_keeps
    (fun t => t = { s with systemZone := t.systemZone, zones := t.zones, bits := t.bits, words := t.words,
                           timers := t.timers, attention := t.attention, faults := t.faults, overflow := t.overflow,
                           freeDraws := t.freeDraws }) s blocks (fun n => rfl) ?_
  intro a _ t ht
  rw [State.act_frame]
  rw [ht]

@[simp] theorem State.actFreely_phase (s : State) (blocks : List (List Action)) : (s.actFreely blocks).phase = s.phase := by rw [State.actFreely_frame]
@[simp] theorem State.actFreely_clock (s : State) (blocks : List (List Action)) : (s.actFreely blocks).clock = s.clock := by rw [State.actFreely_frame]
@[simp] theorem State.actFreely_epoch (s : State) (blocks : List (List Action)) : (s.actFreely blocks).epoch = s.epoch := by rw [State.actFreely_frame]
@[simp] theorem State.actFreely_tickDue (s : State) (blocks : List (List Action)) : (s.actFreely blocks).tickDue = s.tickDue := by rw [State.actFreely_frame]
@[simp] theorem State.actFreely_freeWordDue (s : State) (blocks : List (List Action)) : (s.actFreely blocks).freeWordDue = s.freeWordDue := by rw [State.actFreely_frame]
@[simp] theorem State.actFreely_sessionCounter (s : State) (blocks : List (List Action)) : (s.actFreely blocks).sessionCounter = s.sessionCounter := by rw [State.actFreely_frame]
@[simp] theorem State.actFreely_links (s : State) (blocks : List (List Action)) : (s.actFreely blocks).links = s.links := by rw [State.actFreely_frame]
@[simp] theorem State.actFreely_ports (s : State) (blocks : List (List Action)) : (s.actFreely blocks).ports = s.ports := by rw [State.actFreely_frame]
@[simp] theorem State.actFreely_tokens (s : State) (blocks : List (List Action)) : (s.actFreely blocks).tokens = s.tokens := by rw [State.actFreely_frame]
@[simp] theorem State.actFreely_exchange (s : State) (blocks : List (List Action)) : (s.actFreely blocks).exchange = s.exchange := by rw [State.actFreely_frame]
@[simp] theorem State.actFreely_pending (s : State) (blocks : List (List Action)) : (s.actFreely blocks).pending = s.pending := by rw [State.actFreely_frame]
@[simp] theorem State.actFreely_session (s : State) (blocks : List (List Action)) (q : Port) : (s.actFreely blocks).session q = s.session q := by simp [State.session]
@[simp] theorem State.actFreely_token (s : State) (blocks : List (List Action)) (t : Nat) : (s.actFreely blocks).token t = s.token t := by simp [State.token]

/-- The actions of a write, where it names a point. -/
theorem mem_systemAction (w : Points) (a : Action) (h : a ∈ systemAction w) : a = .system w := by
  unfold systemAction at h
  split at h
  · exact absurd h (by simp)
  · simpa using h

/-- The action of the moves, where there are any. -/
theorem mem_moveAction (ms : List ZoneMove) (a : Action) (h : a ∈ moveAction ms) : a = .move ms := by
  unfold moveAction at h
  split at h
  · exact absurd h (by simp)
  · simpa using h

/-! ## The message exchange -/

/-- R138: an entry joins a queue. -/
theorem State.pushEntry_frame (s : State) (p : Port) (u : Bool) (e : Entry) :
     s.pushEntry p u e =
      { s with
          exchange := (s.pushEntry p u e).exchange
          attention := (s.pushEntry p u e).attention } := by
  unfold State.pushEntry
  split <;> rfl

@[simp] theorem State.pushEntry_phase (s : State) (p : Port) (u : Bool) (e : Entry) : (s.pushEntry p u e).phase = s.phase := by rw [State.pushEntry_frame]
@[simp] theorem State.pushEntry_clock (s : State) (p : Port) (u : Bool) (e : Entry) : (s.pushEntry p u e).clock = s.clock := by rw [State.pushEntry_frame]
@[simp] theorem State.pushEntry_epoch (s : State) (p : Port) (u : Bool) (e : Entry) : (s.pushEntry p u e).epoch = s.epoch := by rw [State.pushEntry_frame]
@[simp] theorem State.pushEntry_tickDue (s : State) (p : Port) (u : Bool) (e : Entry) : (s.pushEntry p u e).tickDue = s.tickDue := by rw [State.pushEntry_frame]
@[simp] theorem State.pushEntry_freeWordDue (s : State) (p : Port) (u : Bool) (e : Entry) : (s.pushEntry p u e).freeWordDue = s.freeWordDue := by rw [State.pushEntry_frame]
@[simp] theorem State.pushEntry_sessionCounter (s : State) (p : Port) (u : Bool) (e : Entry) : (s.pushEntry p u e).sessionCounter = s.sessionCounter := by rw [State.pushEntry_frame]
@[simp] theorem State.pushEntry_links (s : State) (p : Port) (u : Bool) (e : Entry) : (s.pushEntry p u e).links = s.links := by rw [State.pushEntry_frame]
@[simp] theorem State.pushEntry_ports (s : State) (p : Port) (u : Bool) (e : Entry) : (s.pushEntry p u e).ports = s.ports := by rw [State.pushEntry_frame]
@[simp] theorem State.pushEntry_systemZone (s : State) (p : Port) (u : Bool) (e : Entry) : (s.pushEntry p u e).systemZone = s.systemZone := by rw [State.pushEntry_frame]
@[simp] theorem State.pushEntry_zones (s : State) (p : Port) (u : Bool) (e : Entry) : (s.pushEntry p u e).zones = s.zones := by rw [State.pushEntry_frame]
@[simp] theorem State.pushEntry_bits (s : State) (p : Port) (u : Bool) (e : Entry) : (s.pushEntry p u e).bits = s.bits := by rw [State.pushEntry_frame]
@[simp] theorem State.pushEntry_words (s : State) (p : Port) (u : Bool) (e : Entry) : (s.pushEntry p u e).words = s.words := by rw [State.pushEntry_frame]
@[simp] theorem State.pushEntry_tokens (s : State) (p : Port) (u : Bool) (e : Entry) : (s.pushEntry p u e).tokens = s.tokens := by rw [State.pushEntry_frame]
@[simp] theorem State.pushEntry_timers (s : State) (p : Port) (u : Bool) (e : Entry) : (s.pushEntry p u e).timers = s.timers := by rw [State.pushEntry_frame]
@[simp] theorem State.pushEntry_faults (s : State) (p : Port) (u : Bool) (e : Entry) : (s.pushEntry p u e).faults = s.faults := by rw [State.pushEntry_frame]
@[simp] theorem State.pushEntry_overflow (s : State) (p : Port) (u : Bool) (e : Entry) : (s.pushEntry p u e).overflow = s.overflow := by rw [State.pushEntry_frame]
@[simp] theorem State.pushEntry_freeDraws (s : State) (p : Port) (u : Bool) (e : Entry) : (s.pushEntry p u e).freeDraws = s.freeDraws := by rw [State.pushEntry_frame]
@[simp] theorem State.pushEntry_pending (s : State) (p : Port) (u : Bool) (e : Entry) : (s.pushEntry p u e).pending = s.pending := by rw [State.pushEntry_frame]
@[simp] theorem State.pushEntry_session (s : State) (p : Port) (u : Bool) (e : Entry) (q : Port) : (s.pushEntry p u e).session q = s.session q := by simp [State.session]
@[simp] theorem State.pushEntry_zone (s : State) (p : Port) (u : Bool) (e : Entry) (z : Nat) : (s.pushEntry p u e).zone z = s.zone z := by simp [State.zone]
@[simp] theorem State.pushEntry_bit (s : State) (p : Port) (u : Bool) (e : Entry) (i : Nat) : (s.pushEntry p u e).bit i = s.bit i := by simp [State.bit]
@[simp] theorem State.pushEntry_word (s : State) (p : Port) (u : Bool) (e : Entry) (i : Nat) : (s.pushEntry p u e).word i = s.word i := by simp [State.word]
@[simp] theorem State.pushEntry_token (s : State) (p : Port) (u : Bool) (e : Entry) (t : Nat) : (s.pushEntry p u e).token t = s.token t := by simp [State.token]
@[simp] theorem State.pushEntry_timer (s : State) (p : Port) (u : Bool) (e : Entry) (t : Nat) : (s.pushEntry p u e).timer t = s.timer t := by simp [State.timer]

/-- R150: a coalesce timer stops. -/
theorem State.stopCoalesce_frame (s : State) (p : Port) :
     s.stopCoalesce p =
      { s with
          exchange := (s.stopCoalesce p).exchange
          attention := (s.stopCoalesce p).attention } := by
  rfl

@[simp] theorem State.stopCoalesce_phase (s : State) (p : Port) : (s.stopCoalesce p).phase = s.phase := by rw [State.stopCoalesce_frame]
@[simp] theorem State.stopCoalesce_clock (s : State) (p : Port) : (s.stopCoalesce p).clock = s.clock := by rw [State.stopCoalesce_frame]
@[simp] theorem State.stopCoalesce_epoch (s : State) (p : Port) : (s.stopCoalesce p).epoch = s.epoch := by rw [State.stopCoalesce_frame]
@[simp] theorem State.stopCoalesce_tickDue (s : State) (p : Port) : (s.stopCoalesce p).tickDue = s.tickDue := by rw [State.stopCoalesce_frame]
@[simp] theorem State.stopCoalesce_freeWordDue (s : State) (p : Port) : (s.stopCoalesce p).freeWordDue = s.freeWordDue := by rw [State.stopCoalesce_frame]
@[simp] theorem State.stopCoalesce_sessionCounter (s : State) (p : Port) : (s.stopCoalesce p).sessionCounter = s.sessionCounter := by rw [State.stopCoalesce_frame]
@[simp] theorem State.stopCoalesce_links (s : State) (p : Port) : (s.stopCoalesce p).links = s.links := by rw [State.stopCoalesce_frame]
@[simp] theorem State.stopCoalesce_ports (s : State) (p : Port) : (s.stopCoalesce p).ports = s.ports := by rw [State.stopCoalesce_frame]
@[simp] theorem State.stopCoalesce_systemZone (s : State) (p : Port) : (s.stopCoalesce p).systemZone = s.systemZone := by rw [State.stopCoalesce_frame]
@[simp] theorem State.stopCoalesce_zones (s : State) (p : Port) : (s.stopCoalesce p).zones = s.zones := by rw [State.stopCoalesce_frame]
@[simp] theorem State.stopCoalesce_bits (s : State) (p : Port) : (s.stopCoalesce p).bits = s.bits := by rw [State.stopCoalesce_frame]
@[simp] theorem State.stopCoalesce_words (s : State) (p : Port) : (s.stopCoalesce p).words = s.words := by rw [State.stopCoalesce_frame]
@[simp] theorem State.stopCoalesce_tokens (s : State) (p : Port) : (s.stopCoalesce p).tokens = s.tokens := by rw [State.stopCoalesce_frame]
@[simp] theorem State.stopCoalesce_timers (s : State) (p : Port) : (s.stopCoalesce p).timers = s.timers := by rw [State.stopCoalesce_frame]
@[simp] theorem State.stopCoalesce_faults (s : State) (p : Port) : (s.stopCoalesce p).faults = s.faults := by rw [State.stopCoalesce_frame]
@[simp] theorem State.stopCoalesce_overflow (s : State) (p : Port) : (s.stopCoalesce p).overflow = s.overflow := by rw [State.stopCoalesce_frame]
@[simp] theorem State.stopCoalesce_freeDraws (s : State) (p : Port) : (s.stopCoalesce p).freeDraws = s.freeDraws := by rw [State.stopCoalesce_frame]
@[simp] theorem State.stopCoalesce_pending (s : State) (p : Port) : (s.stopCoalesce p).pending = s.pending := by rw [State.stopCoalesce_frame]
@[simp] theorem State.stopCoalesce_session (s : State) (p : Port) (q : Port) : (s.stopCoalesce p).session q = s.session q := by simp [State.session]
@[simp] theorem State.stopCoalesce_zone (s : State) (p : Port) (z : Nat) : (s.stopCoalesce p).zone z = s.zone z := by simp [State.zone]
@[simp] theorem State.stopCoalesce_bit (s : State) (p : Port) (i : Nat) : (s.stopCoalesce p).bit i = s.bit i := by simp [State.bit]
@[simp] theorem State.stopCoalesce_word (s : State) (p : Port) (i : Nat) : (s.stopCoalesce p).word i = s.word i := by simp [State.word]
@[simp] theorem State.stopCoalesce_token (s : State) (p : Port) (t : Nat) : (s.stopCoalesce p).token t = s.token t := by simp [State.token]
@[simp] theorem State.stopCoalesce_timer (s : State) (p : Port) (t : Nat) : (s.stopCoalesce p).timer t = s.timer t := by simp [State.timer]

/-- R150: a coalesce timer starts. -/
theorem State.startCoalesce_frame (s : State) (p : Port) :
     s.startCoalesce p =
      { s with
          exchange := (s.startCoalesce p).exchange
          attention := (s.startCoalesce p).attention } := by
  rfl

@[simp] theorem State.startCoalesce_phase (s : State) (p : Port) : (s.startCoalesce p).phase = s.phase := by rw [State.startCoalesce_frame]
@[simp] theorem State.startCoalesce_clock (s : State) (p : Port) : (s.startCoalesce p).clock = s.clock := by rw [State.startCoalesce_frame]
@[simp] theorem State.startCoalesce_epoch (s : State) (p : Port) : (s.startCoalesce p).epoch = s.epoch := by rw [State.startCoalesce_frame]
@[simp] theorem State.startCoalesce_tickDue (s : State) (p : Port) : (s.startCoalesce p).tickDue = s.tickDue := by rw [State.startCoalesce_frame]
@[simp] theorem State.startCoalesce_freeWordDue (s : State) (p : Port) : (s.startCoalesce p).freeWordDue = s.freeWordDue := by rw [State.startCoalesce_frame]
@[simp] theorem State.startCoalesce_sessionCounter (s : State) (p : Port) : (s.startCoalesce p).sessionCounter = s.sessionCounter := by rw [State.startCoalesce_frame]
@[simp] theorem State.startCoalesce_links (s : State) (p : Port) : (s.startCoalesce p).links = s.links := by rw [State.startCoalesce_frame]
@[simp] theorem State.startCoalesce_ports (s : State) (p : Port) : (s.startCoalesce p).ports = s.ports := by rw [State.startCoalesce_frame]
@[simp] theorem State.startCoalesce_systemZone (s : State) (p : Port) : (s.startCoalesce p).systemZone = s.systemZone := by rw [State.startCoalesce_frame]
@[simp] theorem State.startCoalesce_zones (s : State) (p : Port) : (s.startCoalesce p).zones = s.zones := by rw [State.startCoalesce_frame]
@[simp] theorem State.startCoalesce_bits (s : State) (p : Port) : (s.startCoalesce p).bits = s.bits := by rw [State.startCoalesce_frame]
@[simp] theorem State.startCoalesce_words (s : State) (p : Port) : (s.startCoalesce p).words = s.words := by rw [State.startCoalesce_frame]
@[simp] theorem State.startCoalesce_tokens (s : State) (p : Port) : (s.startCoalesce p).tokens = s.tokens := by rw [State.startCoalesce_frame]
@[simp] theorem State.startCoalesce_timers (s : State) (p : Port) : (s.startCoalesce p).timers = s.timers := by rw [State.startCoalesce_frame]
@[simp] theorem State.startCoalesce_faults (s : State) (p : Port) : (s.startCoalesce p).faults = s.faults := by rw [State.startCoalesce_frame]
@[simp] theorem State.startCoalesce_overflow (s : State) (p : Port) : (s.startCoalesce p).overflow = s.overflow := by rw [State.startCoalesce_frame]
@[simp] theorem State.startCoalesce_freeDraws (s : State) (p : Port) : (s.startCoalesce p).freeDraws = s.freeDraws := by rw [State.startCoalesce_frame]
@[simp] theorem State.startCoalesce_pending (s : State) (p : Port) : (s.startCoalesce p).pending = s.pending := by rw [State.startCoalesce_frame]
@[simp] theorem State.startCoalesce_session (s : State) (p : Port) (q : Port) : (s.startCoalesce p).session q = s.session q := by simp [State.session]
@[simp] theorem State.startCoalesce_zone (s : State) (p : Port) (z : Nat) : (s.startCoalesce p).zone z = s.zone z := by simp [State.zone]
@[simp] theorem State.startCoalesce_bit (s : State) (p : Port) (i : Nat) : (s.startCoalesce p).bit i = s.bit i := by simp [State.bit]
@[simp] theorem State.startCoalesce_word (s : State) (p : Port) (i : Nat) : (s.startCoalesce p).word i = s.word i := by simp [State.word]
@[simp] theorem State.startCoalesce_token (s : State) (p : Port) (t : Nat) : (s.startCoalesce p).token t = s.token t := by simp [State.token]
@[simp] theorem State.startCoalesce_timer (s : State) (p : Port) (t : Nat) : (s.startCoalesce p).timer t = s.timer t := by simp [State.timer]

/-- R138, R150: an append changes the exchange and attention records alone. -/
theorem State.appendEntry_frame (s : State) (p : Port) (u : Bool) (e : Entry) :
     s.appendEntry p u e =
      { s with
          exchange := (s.appendEntry p u e).exchange
          attention := (s.appendEntry p u e).attention } := by
  unfold State.appendEntry
  dsimp only
  split
  · rw [State.raise_frame, State.pushEntry_frame]
  · split
    · rw [State.pushEntry_frame]
    · split
      · rw [State.raise_frame, State.stopCoalesce_frame, State.pushEntry_frame]
      · split
        · rw [State.startCoalesce_frame, State.pushEntry_frame]
        · rw [State.pushEntry_frame]

@[simp] theorem State.appendEntry_phase (s : State) (p : Port) (u : Bool) (e : Entry) : (s.appendEntry p u e).phase = s.phase := by rw [State.appendEntry_frame]
@[simp] theorem State.appendEntry_clock (s : State) (p : Port) (u : Bool) (e : Entry) : (s.appendEntry p u e).clock = s.clock := by rw [State.appendEntry_frame]
@[simp] theorem State.appendEntry_epoch (s : State) (p : Port) (u : Bool) (e : Entry) : (s.appendEntry p u e).epoch = s.epoch := by rw [State.appendEntry_frame]
@[simp] theorem State.appendEntry_tickDue (s : State) (p : Port) (u : Bool) (e : Entry) : (s.appendEntry p u e).tickDue = s.tickDue := by rw [State.appendEntry_frame]
@[simp] theorem State.appendEntry_freeWordDue (s : State) (p : Port) (u : Bool) (e : Entry) : (s.appendEntry p u e).freeWordDue = s.freeWordDue := by rw [State.appendEntry_frame]
@[simp] theorem State.appendEntry_sessionCounter (s : State) (p : Port) (u : Bool) (e : Entry) : (s.appendEntry p u e).sessionCounter = s.sessionCounter := by rw [State.appendEntry_frame]
@[simp] theorem State.appendEntry_links (s : State) (p : Port) (u : Bool) (e : Entry) : (s.appendEntry p u e).links = s.links := by rw [State.appendEntry_frame]
@[simp] theorem State.appendEntry_ports (s : State) (p : Port) (u : Bool) (e : Entry) : (s.appendEntry p u e).ports = s.ports := by rw [State.appendEntry_frame]
@[simp] theorem State.appendEntry_systemZone (s : State) (p : Port) (u : Bool) (e : Entry) : (s.appendEntry p u e).systemZone = s.systemZone := by rw [State.appendEntry_frame]
@[simp] theorem State.appendEntry_zones (s : State) (p : Port) (u : Bool) (e : Entry) : (s.appendEntry p u e).zones = s.zones := by rw [State.appendEntry_frame]
@[simp] theorem State.appendEntry_bits (s : State) (p : Port) (u : Bool) (e : Entry) : (s.appendEntry p u e).bits = s.bits := by rw [State.appendEntry_frame]
@[simp] theorem State.appendEntry_words (s : State) (p : Port) (u : Bool) (e : Entry) : (s.appendEntry p u e).words = s.words := by rw [State.appendEntry_frame]
@[simp] theorem State.appendEntry_tokens (s : State) (p : Port) (u : Bool) (e : Entry) : (s.appendEntry p u e).tokens = s.tokens := by rw [State.appendEntry_frame]
@[simp] theorem State.appendEntry_timers (s : State) (p : Port) (u : Bool) (e : Entry) : (s.appendEntry p u e).timers = s.timers := by rw [State.appendEntry_frame]
@[simp] theorem State.appendEntry_faults (s : State) (p : Port) (u : Bool) (e : Entry) : (s.appendEntry p u e).faults = s.faults := by rw [State.appendEntry_frame]
@[simp] theorem State.appendEntry_overflow (s : State) (p : Port) (u : Bool) (e : Entry) : (s.appendEntry p u e).overflow = s.overflow := by rw [State.appendEntry_frame]
@[simp] theorem State.appendEntry_freeDraws (s : State) (p : Port) (u : Bool) (e : Entry) : (s.appendEntry p u e).freeDraws = s.freeDraws := by rw [State.appendEntry_frame]
@[simp] theorem State.appendEntry_pending (s : State) (p : Port) (u : Bool) (e : Entry) : (s.appendEntry p u e).pending = s.pending := by rw [State.appendEntry_frame]
@[simp] theorem State.appendEntry_session (s : State) (p : Port) (u : Bool) (e : Entry) (q : Port) : (s.appendEntry p u e).session q = s.session q := by simp [State.session]
@[simp] theorem State.appendEntry_zone (s : State) (p : Port) (u : Bool) (e : Entry) (z : Nat) : (s.appendEntry p u e).zone z = s.zone z := by simp [State.zone]
@[simp] theorem State.appendEntry_bit (s : State) (p : Port) (u : Bool) (e : Entry) (i : Nat) : (s.appendEntry p u e).bit i = s.bit i := by simp [State.bit]
@[simp] theorem State.appendEntry_word (s : State) (p : Port) (u : Bool) (e : Entry) (i : Nat) : (s.appendEntry p u e).word i = s.word i := by simp [State.word]
@[simp] theorem State.appendEntry_token (s : State) (p : Port) (u : Bool) (e : Entry) (t : Nat) : (s.appendEntry p u e).token t = s.token t := by simp [State.token]
@[simp] theorem State.appendEntry_timer (s : State) (p : Port) (u : Bool) (e : Entry) (t : Nat) : (s.appendEntry p u e).timer t = s.timer t := by simp [State.timer]

/-- R137: a buffer freed changes the exchange alone. -/
theorem State.freeBuffer_frame (s : State) (b : Nat) (k : Buffer) :
     s.freeBuffer b k =
      { s with
          exchange := (s.freeBuffer b k).exchange
          attention := (s.freeBuffer b k).attention } := by
  unfold State.freeBuffer
  dsimp only
  split <;> rfl

@[simp] theorem State.freeBuffer_phase (s : State) (b : Nat) (k : Buffer) : (s.freeBuffer b k).phase = s.phase := by rw [State.freeBuffer_frame]
@[simp] theorem State.freeBuffer_clock (s : State) (b : Nat) (k : Buffer) : (s.freeBuffer b k).clock = s.clock := by rw [State.freeBuffer_frame]
@[simp] theorem State.freeBuffer_epoch (s : State) (b : Nat) (k : Buffer) : (s.freeBuffer b k).epoch = s.epoch := by rw [State.freeBuffer_frame]
@[simp] theorem State.freeBuffer_tickDue (s : State) (b : Nat) (k : Buffer) : (s.freeBuffer b k).tickDue = s.tickDue := by rw [State.freeBuffer_frame]
@[simp] theorem State.freeBuffer_freeWordDue (s : State) (b : Nat) (k : Buffer) : (s.freeBuffer b k).freeWordDue = s.freeWordDue := by rw [State.freeBuffer_frame]
@[simp] theorem State.freeBuffer_sessionCounter (s : State) (b : Nat) (k : Buffer) : (s.freeBuffer b k).sessionCounter = s.sessionCounter := by rw [State.freeBuffer_frame]
@[simp] theorem State.freeBuffer_links (s : State) (b : Nat) (k : Buffer) : (s.freeBuffer b k).links = s.links := by rw [State.freeBuffer_frame]
@[simp] theorem State.freeBuffer_ports (s : State) (b : Nat) (k : Buffer) : (s.freeBuffer b k).ports = s.ports := by rw [State.freeBuffer_frame]
@[simp] theorem State.freeBuffer_systemZone (s : State) (b : Nat) (k : Buffer) : (s.freeBuffer b k).systemZone = s.systemZone := by rw [State.freeBuffer_frame]
@[simp] theorem State.freeBuffer_zones (s : State) (b : Nat) (k : Buffer) : (s.freeBuffer b k).zones = s.zones := by rw [State.freeBuffer_frame]
@[simp] theorem State.freeBuffer_bits (s : State) (b : Nat) (k : Buffer) : (s.freeBuffer b k).bits = s.bits := by rw [State.freeBuffer_frame]
@[simp] theorem State.freeBuffer_words (s : State) (b : Nat) (k : Buffer) : (s.freeBuffer b k).words = s.words := by rw [State.freeBuffer_frame]
@[simp] theorem State.freeBuffer_tokens (s : State) (b : Nat) (k : Buffer) : (s.freeBuffer b k).tokens = s.tokens := by rw [State.freeBuffer_frame]
@[simp] theorem State.freeBuffer_timers (s : State) (b : Nat) (k : Buffer) : (s.freeBuffer b k).timers = s.timers := by rw [State.freeBuffer_frame]
@[simp] theorem State.freeBuffer_faults (s : State) (b : Nat) (k : Buffer) : (s.freeBuffer b k).faults = s.faults := by rw [State.freeBuffer_frame]
@[simp] theorem State.freeBuffer_overflow (s : State) (b : Nat) (k : Buffer) : (s.freeBuffer b k).overflow = s.overflow := by rw [State.freeBuffer_frame]
@[simp] theorem State.freeBuffer_freeDraws (s : State) (b : Nat) (k : Buffer) : (s.freeBuffer b k).freeDraws = s.freeDraws := by rw [State.freeBuffer_frame]
@[simp] theorem State.freeBuffer_pending (s : State) (b : Nat) (k : Buffer) : (s.freeBuffer b k).pending = s.pending := by rw [State.freeBuffer_frame]
@[simp] theorem State.freeBuffer_session (s : State) (b : Nat) (k : Buffer) (q : Port) : (s.freeBuffer b k).session q = s.session q := by simp [State.session]
@[simp] theorem State.freeBuffer_zone (s : State) (b : Nat) (k : Buffer) (z : Nat) : (s.freeBuffer b k).zone z = s.zone z := by simp [State.zone]
@[simp] theorem State.freeBuffer_bit (s : State) (b : Nat) (k : Buffer) (i : Nat) : (s.freeBuffer b k).bit i = s.bit i := by simp [State.bit]
@[simp] theorem State.freeBuffer_word (s : State) (b : Nat) (k : Buffer) (i : Nat) : (s.freeBuffer b k).word i = s.word i := by simp [State.word]
@[simp] theorem State.freeBuffer_token (s : State) (b : Nat) (k : Buffer) (t : Nat) : (s.freeBuffer b k).token t = s.token t := by simp [State.token]
@[simp] theorem State.freeBuffer_timer (s : State) (b : Nat) (k : Buffer) (t : Nat) : (s.freeBuffer b k).timer t = s.timer t := by simp [State.timer]

/-- R144: a release changes the exchange alone. -/
theorem State.releaseBuffer_frame (s : State) (b : Nat) :
     s.releaseBuffer b =
      { s with
          exchange := (s.releaseBuffer b).exchange
          attention := (s.releaseBuffer b).attention } := by
  unfold State.releaseBuffer
  split
  · rfl
  · split
    · exact State.freeBuffer_frame s _ _
    · rfl

@[simp] theorem State.releaseBuffer_phase (s : State) (b : Nat) : (s.releaseBuffer b).phase = s.phase := by rw [State.releaseBuffer_frame]
@[simp] theorem State.releaseBuffer_clock (s : State) (b : Nat) : (s.releaseBuffer b).clock = s.clock := by rw [State.releaseBuffer_frame]
@[simp] theorem State.releaseBuffer_epoch (s : State) (b : Nat) : (s.releaseBuffer b).epoch = s.epoch := by rw [State.releaseBuffer_frame]
@[simp] theorem State.releaseBuffer_tickDue (s : State) (b : Nat) : (s.releaseBuffer b).tickDue = s.tickDue := by rw [State.releaseBuffer_frame]
@[simp] theorem State.releaseBuffer_freeWordDue (s : State) (b : Nat) : (s.releaseBuffer b).freeWordDue = s.freeWordDue := by rw [State.releaseBuffer_frame]
@[simp] theorem State.releaseBuffer_sessionCounter (s : State) (b : Nat) : (s.releaseBuffer b).sessionCounter = s.sessionCounter := by rw [State.releaseBuffer_frame]
@[simp] theorem State.releaseBuffer_links (s : State) (b : Nat) : (s.releaseBuffer b).links = s.links := by rw [State.releaseBuffer_frame]
@[simp] theorem State.releaseBuffer_ports (s : State) (b : Nat) : (s.releaseBuffer b).ports = s.ports := by rw [State.releaseBuffer_frame]
@[simp] theorem State.releaseBuffer_systemZone (s : State) (b : Nat) : (s.releaseBuffer b).systemZone = s.systemZone := by rw [State.releaseBuffer_frame]
@[simp] theorem State.releaseBuffer_zones (s : State) (b : Nat) : (s.releaseBuffer b).zones = s.zones := by rw [State.releaseBuffer_frame]
@[simp] theorem State.releaseBuffer_bits (s : State) (b : Nat) : (s.releaseBuffer b).bits = s.bits := by rw [State.releaseBuffer_frame]
@[simp] theorem State.releaseBuffer_words (s : State) (b : Nat) : (s.releaseBuffer b).words = s.words := by rw [State.releaseBuffer_frame]
@[simp] theorem State.releaseBuffer_tokens (s : State) (b : Nat) : (s.releaseBuffer b).tokens = s.tokens := by rw [State.releaseBuffer_frame]
@[simp] theorem State.releaseBuffer_timers (s : State) (b : Nat) : (s.releaseBuffer b).timers = s.timers := by rw [State.releaseBuffer_frame]
@[simp] theorem State.releaseBuffer_faults (s : State) (b : Nat) : (s.releaseBuffer b).faults = s.faults := by rw [State.releaseBuffer_frame]
@[simp] theorem State.releaseBuffer_overflow (s : State) (b : Nat) : (s.releaseBuffer b).overflow = s.overflow := by rw [State.releaseBuffer_frame]
@[simp] theorem State.releaseBuffer_freeDraws (s : State) (b : Nat) : (s.releaseBuffer b).freeDraws = s.freeDraws := by rw [State.releaseBuffer_frame]
@[simp] theorem State.releaseBuffer_pending (s : State) (b : Nat) : (s.releaseBuffer b).pending = s.pending := by rw [State.releaseBuffer_frame]
@[simp] theorem State.releaseBuffer_session (s : State) (b : Nat) (q : Port) : (s.releaseBuffer b).session q = s.session q := by simp [State.session]
@[simp] theorem State.releaseBuffer_zone (s : State) (b : Nat) (z : Nat) : (s.releaseBuffer b).zone z = s.zone z := by simp [State.zone]
@[simp] theorem State.releaseBuffer_bit (s : State) (b : Nat) (i : Nat) : (s.releaseBuffer b).bit i = s.bit i := by simp [State.bit]
@[simp] theorem State.releaseBuffer_word (s : State) (b : Nat) (i : Nat) : (s.releaseBuffer b).word i = s.word i := by simp [State.word]
@[simp] theorem State.releaseBuffer_token (s : State) (b : Nat) (t : Nat) : (s.releaseBuffer b).token t = s.token t := by simp [State.token]
@[simp] theorem State.releaseBuffer_timer (s : State) (b : Nat) (t : Nat) : (s.releaseBuffer b).timer t = s.timer t := by simp [State.timer]

/-- R146: a discard changes the exchange alone. -/
theorem State.discardEntry_frame (s : State) (e : Entry) :
     s.discardEntry e =
      { s with
          exchange := (s.discardEntry e).exchange
          attention := (s.discardEntry e).attention } := by
  unfold State.discardEntry
  dsimp only
  rw [State.releaseBuffer_frame]

@[simp] theorem State.discardEntry_phase (s : State) (e : Entry) : (s.discardEntry e).phase = s.phase := by rw [State.discardEntry_frame]
@[simp] theorem State.discardEntry_clock (s : State) (e : Entry) : (s.discardEntry e).clock = s.clock := by rw [State.discardEntry_frame]
@[simp] theorem State.discardEntry_epoch (s : State) (e : Entry) : (s.discardEntry e).epoch = s.epoch := by rw [State.discardEntry_frame]
@[simp] theorem State.discardEntry_tickDue (s : State) (e : Entry) : (s.discardEntry e).tickDue = s.tickDue := by rw [State.discardEntry_frame]
@[simp] theorem State.discardEntry_freeWordDue (s : State) (e : Entry) : (s.discardEntry e).freeWordDue = s.freeWordDue := by rw [State.discardEntry_frame]
@[simp] theorem State.discardEntry_sessionCounter (s : State) (e : Entry) : (s.discardEntry e).sessionCounter = s.sessionCounter := by rw [State.discardEntry_frame]
@[simp] theorem State.discardEntry_links (s : State) (e : Entry) : (s.discardEntry e).links = s.links := by rw [State.discardEntry_frame]
@[simp] theorem State.discardEntry_ports (s : State) (e : Entry) : (s.discardEntry e).ports = s.ports := by rw [State.discardEntry_frame]
@[simp] theorem State.discardEntry_systemZone (s : State) (e : Entry) : (s.discardEntry e).systemZone = s.systemZone := by rw [State.discardEntry_frame]
@[simp] theorem State.discardEntry_zones (s : State) (e : Entry) : (s.discardEntry e).zones = s.zones := by rw [State.discardEntry_frame]
@[simp] theorem State.discardEntry_bits (s : State) (e : Entry) : (s.discardEntry e).bits = s.bits := by rw [State.discardEntry_frame]
@[simp] theorem State.discardEntry_words (s : State) (e : Entry) : (s.discardEntry e).words = s.words := by rw [State.discardEntry_frame]
@[simp] theorem State.discardEntry_tokens (s : State) (e : Entry) : (s.discardEntry e).tokens = s.tokens := by rw [State.discardEntry_frame]
@[simp] theorem State.discardEntry_timers (s : State) (e : Entry) : (s.discardEntry e).timers = s.timers := by rw [State.discardEntry_frame]
@[simp] theorem State.discardEntry_faults (s : State) (e : Entry) : (s.discardEntry e).faults = s.faults := by rw [State.discardEntry_frame]
@[simp] theorem State.discardEntry_overflow (s : State) (e : Entry) : (s.discardEntry e).overflow = s.overflow := by rw [State.discardEntry_frame]
@[simp] theorem State.discardEntry_freeDraws (s : State) (e : Entry) : (s.discardEntry e).freeDraws = s.freeDraws := by rw [State.discardEntry_frame]
@[simp] theorem State.discardEntry_pending (s : State) (e : Entry) : (s.discardEntry e).pending = s.pending := by rw [State.discardEntry_frame]
@[simp] theorem State.discardEntry_session (s : State) (e : Entry) (q : Port) : (s.discardEntry e).session q = s.session q := by simp [State.session]
@[simp] theorem State.discardEntry_zone (s : State) (e : Entry) (z : Nat) : (s.discardEntry e).zone z = s.zone z := by simp [State.zone]
@[simp] theorem State.discardEntry_bit (s : State) (e : Entry) (i : Nat) : (s.discardEntry e).bit i = s.bit i := by simp [State.bit]
@[simp] theorem State.discardEntry_word (s : State) (e : Entry) (i : Nat) : (s.discardEntry e).word i = s.word i := by simp [State.word]
@[simp] theorem State.discardEntry_token (s : State) (e : Entry) (t : Nat) : (s.discardEntry e).token t = s.token t := by simp [State.token]
@[simp] theorem State.discardEntry_timer (s : State) (e : Entry) (t : Nat) : (s.discardEntry e).timer t = s.timer t := by simp [State.timer]

/-- R146: undelivered handling changes the exchange and attention records alone. -/
theorem State.undelivered_frame (s : State) (q : Port) (e : Entry) :
    (s.undelivered q e).1 =
      { s with exchange := (s.undelivered q e).1.exchange, attention := (s.undelivered q e).1.attention } := by
  unfold State.undelivered
  split
  · split
    · exact State.appendEntry_frame s _ _ _
    · exact State.discardEntry_frame s e
  · exact State.discardEntry_frame s e

/-- R146: undelivered handling of a list changes the exchange and attention records alone. -/
theorem State.undeliverAll_frame (s : State) (q : Port) (es : List Entry) :
    (s.undeliverAll q es).1 =
      { s with exchange := (s.undeliverAll q es).1.exchange, attention := (s.undeliverAll q es).1.attention } := by
  induction es generalizing s with
  | nil => rfl
  | cons e rest ih =>
    simp only [State.undeliverAll]
    rw [ih, State.undelivered_frame]

/-- R147, R148: queues drained change the exchange and attention records alone. -/
theorem State.drain_frame (s : State) (q : Port) (u n : Bool) :
    (s.drain q u n).1 =
      { s with exchange := (s.drain q u n).1.exchange, attention := (s.drain q u n).1.attention } := by
  unfold State.drain
  rw [State.undeliverAll_frame]
  rfl

@[simp] theorem State.drain_phase (s : State) (p : Port) (u n : Bool) : ((s.drain p u n).1).phase = s.phase := by rw [State.drain_frame]
@[simp] theorem State.drain_clock (s : State) (p : Port) (u n : Bool) : ((s.drain p u n).1).clock = s.clock := by rw [State.drain_frame]
@[simp] theorem State.drain_epoch (s : State) (p : Port) (u n : Bool) : ((s.drain p u n).1).epoch = s.epoch := by rw [State.drain_frame]
@[simp] theorem State.drain_tickDue (s : State) (p : Port) (u n : Bool) : ((s.drain p u n).1).tickDue = s.tickDue := by rw [State.drain_frame]
@[simp] theorem State.drain_freeWordDue (s : State) (p : Port) (u n : Bool) : ((s.drain p u n).1).freeWordDue = s.freeWordDue := by rw [State.drain_frame]
@[simp] theorem State.drain_sessionCounter (s : State) (p : Port) (u n : Bool) : ((s.drain p u n).1).sessionCounter = s.sessionCounter := by rw [State.drain_frame]
@[simp] theorem State.drain_links (s : State) (p : Port) (u n : Bool) : ((s.drain p u n).1).links = s.links := by rw [State.drain_frame]
@[simp] theorem State.drain_ports (s : State) (p : Port) (u n : Bool) : ((s.drain p u n).1).ports = s.ports := by rw [State.drain_frame]
@[simp] theorem State.drain_systemZone (s : State) (p : Port) (u n : Bool) : ((s.drain p u n).1).systemZone = s.systemZone := by rw [State.drain_frame]
@[simp] theorem State.drain_zones (s : State) (p : Port) (u n : Bool) : ((s.drain p u n).1).zones = s.zones := by rw [State.drain_frame]
@[simp] theorem State.drain_bits (s : State) (p : Port) (u n : Bool) : ((s.drain p u n).1).bits = s.bits := by rw [State.drain_frame]
@[simp] theorem State.drain_words (s : State) (p : Port) (u n : Bool) : ((s.drain p u n).1).words = s.words := by rw [State.drain_frame]
@[simp] theorem State.drain_tokens (s : State) (p : Port) (u n : Bool) : ((s.drain p u n).1).tokens = s.tokens := by rw [State.drain_frame]
@[simp] theorem State.drain_timers (s : State) (p : Port) (u n : Bool) : ((s.drain p u n).1).timers = s.timers := by rw [State.drain_frame]
@[simp] theorem State.drain_faults (s : State) (p : Port) (u n : Bool) : ((s.drain p u n).1).faults = s.faults := by rw [State.drain_frame]
@[simp] theorem State.drain_overflow (s : State) (p : Port) (u n : Bool) : ((s.drain p u n).1).overflow = s.overflow := by rw [State.drain_frame]
@[simp] theorem State.drain_freeDraws (s : State) (p : Port) (u n : Bool) : ((s.drain p u n).1).freeDraws = s.freeDraws := by rw [State.drain_frame]
@[simp] theorem State.drain_pending (s : State) (p : Port) (u n : Bool) : ((s.drain p u n).1).pending = s.pending := by rw [State.drain_frame]
@[simp] theorem State.drain_session (s : State) (p : Port) (u n : Bool) (q : Port) : ((s.drain p u n).1).session q = s.session q := by simp [State.session]
@[simp] theorem State.drain_zone (s : State) (p : Port) (u n : Bool) (z : Nat) : ((s.drain p u n).1).zone z = s.zone z := by simp [State.zone]
@[simp] theorem State.drain_bit (s : State) (p : Port) (u n : Bool) (i : Nat) : ((s.drain p u n).1).bit i = s.bit i := by simp [State.bit]
@[simp] theorem State.drain_word (s : State) (p : Port) (u n : Bool) (i : Nat) : ((s.drain p u n).1).word i = s.word i := by simp [State.word]
@[simp] theorem State.drain_token (s : State) (p : Port) (u n : Bool) (t : Nat) : ((s.drain p u n).1).token t = s.token t := by simp [State.token]
@[simp] theorem State.drain_timer (s : State) (p : Port) (u n : Bool) (t : Nat) : ((s.drain p u n).1).timer t = s.timer t := by simp [State.timer]

/-- R147: the message exchange at a session end. -/
theorem State.messagesAtEnd_frame (s : State) (p : Port) :
     s.messagesAtEnd p =
      { s with
          exchange := (s.messagesAtEnd p).exchange
          attention := (s.messagesAtEnd p).attention } := by
  unfold State.messagesAtEnd
  dsimp only
  rw [State.drain_frame]

@[simp] theorem State.messagesAtEnd_phase (s : State) (p : Port) : (s.messagesAtEnd p).phase = s.phase := by rw [State.messagesAtEnd_frame]
@[simp] theorem State.messagesAtEnd_clock (s : State) (p : Port) : (s.messagesAtEnd p).clock = s.clock := by rw [State.messagesAtEnd_frame]
@[simp] theorem State.messagesAtEnd_epoch (s : State) (p : Port) : (s.messagesAtEnd p).epoch = s.epoch := by rw [State.messagesAtEnd_frame]
@[simp] theorem State.messagesAtEnd_tickDue (s : State) (p : Port) : (s.messagesAtEnd p).tickDue = s.tickDue := by rw [State.messagesAtEnd_frame]
@[simp] theorem State.messagesAtEnd_freeWordDue (s : State) (p : Port) : (s.messagesAtEnd p).freeWordDue = s.freeWordDue := by rw [State.messagesAtEnd_frame]
@[simp] theorem State.messagesAtEnd_sessionCounter (s : State) (p : Port) : (s.messagesAtEnd p).sessionCounter = s.sessionCounter := by rw [State.messagesAtEnd_frame]
@[simp] theorem State.messagesAtEnd_links (s : State) (p : Port) : (s.messagesAtEnd p).links = s.links := by rw [State.messagesAtEnd_frame]
@[simp] theorem State.messagesAtEnd_ports (s : State) (p : Port) : (s.messagesAtEnd p).ports = s.ports := by rw [State.messagesAtEnd_frame]
@[simp] theorem State.messagesAtEnd_systemZone (s : State) (p : Port) : (s.messagesAtEnd p).systemZone = s.systemZone := by rw [State.messagesAtEnd_frame]
@[simp] theorem State.messagesAtEnd_zones (s : State) (p : Port) : (s.messagesAtEnd p).zones = s.zones := by rw [State.messagesAtEnd_frame]
@[simp] theorem State.messagesAtEnd_bits (s : State) (p : Port) : (s.messagesAtEnd p).bits = s.bits := by rw [State.messagesAtEnd_frame]
@[simp] theorem State.messagesAtEnd_words (s : State) (p : Port) : (s.messagesAtEnd p).words = s.words := by rw [State.messagesAtEnd_frame]
@[simp] theorem State.messagesAtEnd_tokens (s : State) (p : Port) : (s.messagesAtEnd p).tokens = s.tokens := by rw [State.messagesAtEnd_frame]
@[simp] theorem State.messagesAtEnd_timers (s : State) (p : Port) : (s.messagesAtEnd p).timers = s.timers := by rw [State.messagesAtEnd_frame]
@[simp] theorem State.messagesAtEnd_faults (s : State) (p : Port) : (s.messagesAtEnd p).faults = s.faults := by rw [State.messagesAtEnd_frame]
@[simp] theorem State.messagesAtEnd_overflow (s : State) (p : Port) : (s.messagesAtEnd p).overflow = s.overflow := by rw [State.messagesAtEnd_frame]
@[simp] theorem State.messagesAtEnd_freeDraws (s : State) (p : Port) : (s.messagesAtEnd p).freeDraws = s.freeDraws := by rw [State.messagesAtEnd_frame]
@[simp] theorem State.messagesAtEnd_pending (s : State) (p : Port) : (s.messagesAtEnd p).pending = s.pending := by rw [State.messagesAtEnd_frame]
@[simp] theorem State.messagesAtEnd_session (s : State) (p : Port) (q : Port) : (s.messagesAtEnd p).session q = s.session q := by simp [State.session]
@[simp] theorem State.messagesAtEnd_zone (s : State) (p : Port) (z : Nat) : (s.messagesAtEnd p).zone z = s.zone z := by simp [State.zone]
@[simp] theorem State.messagesAtEnd_bit (s : State) (p : Port) (i : Nat) : (s.messagesAtEnd p).bit i = s.bit i := by simp [State.bit]
@[simp] theorem State.messagesAtEnd_word (s : State) (p : Port) (i : Nat) : (s.messagesAtEnd p).word i = s.word i := by simp [State.word]
@[simp] theorem State.messagesAtEnd_token (s : State) (p : Port) (t : Nat) : (s.messagesAtEnd p).token t = s.token t := by simp [State.token]
@[simp] theorem State.messagesAtEnd_timer (s : State) (p : Port) (t : Nat) : (s.messagesAtEnd p).timer t = s.timer t := by simp [State.timer]

/-! ## The token arbiter -/

/-- R113: one pass of the token arbiter over some tokens changes tokens and attention records alone. -/
theorem State.tokensAtEnd_fold_frame (ended : SessionRef) (b : Bool) (ts : List Nat) (s : State) :
    let f := fun (s : State) (t : Nat) =>
      let k := s.token t
      let s' := s.setToken t (k.atEnd ended b s.clock)
      if k.heldBy ended then s'.raiseGrant t { k with waiters := k.waiters.filter fun w => w != ended } b else s'
    ts.foldl f s = { s with tokens := (ts.foldl f s).tokens, attention := (ts.foldl f s).attention } := by
  intro f
  induction ts generalizing s with
  | nil => rfl
  | cons t rest ih =>
    have hf : f s t = { s with tokens := (f s t).tokens, attention := (f s t).attention } := by
      show (if _ then _ else _ : State) = _
      simp only [f]
      split
      · rw [State.raiseGrant_frame]
        rfl
      · rfl
    rw [List.foldl_cons, ih, hf]

/-- R113: each token that the pass names as the end leaves it; every other stands. -/
theorem State.tokensAtEnd_fold_token (ended : SessionRef) (b : Bool) (ts : List Nat) (hts : ts.Nodup) (s : State) (i : Nat) :
    let f := fun (s : State) (t : Nat) =>
      let k := s.token t
      let s' := s.setToken t (k.atEnd ended b s.clock)
      if k.heldBy ended then s'.raiseGrant t { k with waiters := k.waiters.filter fun w => w != ended } b else s'
    (ts.foldl f s).token i = if i ∈ ts then (s.token i).atEnd ended b s.clock else s.token i := by
  intro f
  induction ts generalizing s with
  | nil => simp
  | cons t rest ih =>
    obtain ⟨ht, hrest⟩ := List.nodup_cons.mp hts
    have hclock : (f s t).clock = s.clock := by
      simp only [f]
      split <;> simp
    have htok : (f s t).token i = if i = t then (s.token t).atEnd ended b s.clock else s.token i := by
      simp only [f]
      split <;> simp [State.token_setToken]
    rw [List.foldl_cons, ih hrest, htok, hclock]
    by_cases hi : i = t
    · subst hi
      simp [ht]
    · simp [hi]

/-- R113: the token arbiter at a session end, token by token. -/
theorem State.token_tokensAtEnd (s : State) (ended : SessionRef) (b : Bool) (i : Nat) :
    (s.tokensAtEnd ended b).token i = if i < Config.tokenCount then (s.token i).atEnd ended b s.clock else s.token i := by
  have h := State.tokensAtEnd_fold_token ended b (List.range Config.tokenCount) List.nodup_range s i
  simpa [State.tokensAtEnd] using h

/-- R113: the token arbiter at a session end changes tokens and attention records alone. -/
theorem State.tokensAtEnd_frame (s : State) (e : SessionRef) (b : Bool) :
     s.tokensAtEnd e b =
      { s with
          tokens := (s.tokensAtEnd e b).tokens
          attention := (s.tokensAtEnd e b).attention } := by
  exact State.tokensAtEnd_fold_frame e b (List.range Config.tokenCount) s

@[simp] theorem State.tokensAtEnd_phase (s : State) (e : SessionRef) (b : Bool) : (s.tokensAtEnd e b).phase = s.phase := by rw [State.tokensAtEnd_frame]
@[simp] theorem State.tokensAtEnd_clock (s : State) (e : SessionRef) (b : Bool) : (s.tokensAtEnd e b).clock = s.clock := by rw [State.tokensAtEnd_frame]
@[simp] theorem State.tokensAtEnd_epoch (s : State) (e : SessionRef) (b : Bool) : (s.tokensAtEnd e b).epoch = s.epoch := by rw [State.tokensAtEnd_frame]
@[simp] theorem State.tokensAtEnd_tickDue (s : State) (e : SessionRef) (b : Bool) : (s.tokensAtEnd e b).tickDue = s.tickDue := by rw [State.tokensAtEnd_frame]
@[simp] theorem State.tokensAtEnd_freeWordDue (s : State) (e : SessionRef) (b : Bool) : (s.tokensAtEnd e b).freeWordDue = s.freeWordDue := by rw [State.tokensAtEnd_frame]
@[simp] theorem State.tokensAtEnd_sessionCounter (s : State) (e : SessionRef) (b : Bool) : (s.tokensAtEnd e b).sessionCounter = s.sessionCounter := by rw [State.tokensAtEnd_frame]
@[simp] theorem State.tokensAtEnd_links (s : State) (e : SessionRef) (b : Bool) : (s.tokensAtEnd e b).links = s.links := by rw [State.tokensAtEnd_frame]
@[simp] theorem State.tokensAtEnd_ports (s : State) (e : SessionRef) (b : Bool) : (s.tokensAtEnd e b).ports = s.ports := by rw [State.tokensAtEnd_frame]
@[simp] theorem State.tokensAtEnd_systemZone (s : State) (e : SessionRef) (b : Bool) : (s.tokensAtEnd e b).systemZone = s.systemZone := by rw [State.tokensAtEnd_frame]
@[simp] theorem State.tokensAtEnd_zones (s : State) (e : SessionRef) (b : Bool) : (s.tokensAtEnd e b).zones = s.zones := by rw [State.tokensAtEnd_frame]
@[simp] theorem State.tokensAtEnd_bits (s : State) (e : SessionRef) (b : Bool) : (s.tokensAtEnd e b).bits = s.bits := by rw [State.tokensAtEnd_frame]
@[simp] theorem State.tokensAtEnd_words (s : State) (e : SessionRef) (b : Bool) : (s.tokensAtEnd e b).words = s.words := by rw [State.tokensAtEnd_frame]
@[simp] theorem State.tokensAtEnd_timers (s : State) (e : SessionRef) (b : Bool) : (s.tokensAtEnd e b).timers = s.timers := by rw [State.tokensAtEnd_frame]
@[simp] theorem State.tokensAtEnd_exchange (s : State) (e : SessionRef) (b : Bool) : (s.tokensAtEnd e b).exchange = s.exchange := by rw [State.tokensAtEnd_frame]
@[simp] theorem State.tokensAtEnd_faults (s : State) (e : SessionRef) (b : Bool) : (s.tokensAtEnd e b).faults = s.faults := by rw [State.tokensAtEnd_frame]
@[simp] theorem State.tokensAtEnd_overflow (s : State) (e : SessionRef) (b : Bool) : (s.tokensAtEnd e b).overflow = s.overflow := by rw [State.tokensAtEnd_frame]
@[simp] theorem State.tokensAtEnd_freeDraws (s : State) (e : SessionRef) (b : Bool) : (s.tokensAtEnd e b).freeDraws = s.freeDraws := by rw [State.tokensAtEnd_frame]
@[simp] theorem State.tokensAtEnd_pending (s : State) (e : SessionRef) (b : Bool) : (s.tokensAtEnd e b).pending = s.pending := by rw [State.tokensAtEnd_frame]
@[simp] theorem State.tokensAtEnd_session (s : State) (e : SessionRef) (b : Bool) (q : Port) : (s.tokensAtEnd e b).session q = s.session q := by simp [State.session]
@[simp] theorem State.tokensAtEnd_zone (s : State) (e : SessionRef) (b : Bool) (z : Nat) : (s.tokensAtEnd e b).zone z = s.zone z := by simp [State.zone]
@[simp] theorem State.tokensAtEnd_bit (s : State) (e : SessionRef) (b : Bool) (i : Nat) : (s.tokensAtEnd e b).bit i = s.bit i := by simp [State.bit]
@[simp] theorem State.tokensAtEnd_word (s : State) (e : SessionRef) (b : Bool) (i : Nat) : (s.tokensAtEnd e b).word i = s.word i := by simp [State.word]
@[simp] theorem State.tokensAtEnd_timer (s : State) (e : SessionRef) (b : Bool) (t : Nat) : (s.tokensAtEnd e b).timer t = s.timer t := by simp [State.timer]

/-! ## The zone table -/

/-- R92: the number of a zone's move is the zone's. -/
theorem State.zoneAtEnd_zone (s : State) (ended : SessionRef) (cause : EndCause) (z : Nat) (m : ZoneMove)
    (h : s.zoneAtEnd ended cause z = some m) : m.zone = z := by
  unfold State.zoneAtEnd at h
  split at h
  · exact absurd h (by simp)
  · split at h
    · split at h
      · obtain rfl := Option.some.inj h
        unfold State.ownedAtEnd
        split
        · split <;> rfl
        · split <;> rfl
      · exact absurd h (by simp)
    · split at h
      · obtain rfl := Option.some.inj h
        rfl
      · exact absurd h (by simp)
    · exact absurd h (by simp)
    · exact absurd h (by simp)

/-- The zones after the moves of distinct zones. -/
theorem State.zone_putMoves (s : State) (ms : List ZoneMove) (hms : (ms.map ZoneMove.zone).Nodup) (z : Nat) :
    (s.putMoves ms).zone z =
      match ms.find? fun m => m.zone == z with
      | some m => (s.zone z).map m.apply
      | none => s.zone z := by
  induction ms generalizing s with
  | nil => rfl
  | cons m rest ih =>
    obtain ⟨hm, hrest⟩ := List.nodup_cons.mp hms
    show ((s.setZone m.zone ((s.zone m.zone).map m.apply)).putMoves rest).zone z = _
    rw [ih _ hrest, State.zone_setZone, List.find?_cons]
    by_cases hz : m.zone = z
    · subst hz
      have hn : rest.find? (fun n => n.zone == m.zone) = none := by
        refine List.find?_eq_none.mpr fun n hn => ?_
        intro heq
        exact hm (List.mem_map.mpr ⟨n, hn, by simpa using heq⟩)
      simp [hn]
    · have : (m.zone == z) = false := by simpa using hz
      rw [this]
      simp [Ne.symm hz]

/-- The definable zones' numbers are distinct. -/
theorem nodup_zoneNumbers : zoneNumbers.Nodup := by decide

/-- The definable zones are 1 to 31. -/
theorem mem_zoneNumbers (z : Nat) : z ∈ zoneNumbers ↔ 1 ≤ z ∧ z ≤ 31 := by
  simp only [zoneNumbers, Config.zoneCount, List.mem_map, List.mem_range]
  constructor
  · rintro ⟨a, ha, rfl⟩
    omega
  · rintro ⟨h1, h2⟩
    exact ⟨z - 1, by omega, by omega⟩

/-- R92: the moves of a session end name each zone once. -/
theorem State.zoneMoves_nodup (s : State) (ended : SessionRef) (cause : EndCause) :
    ((s.zoneMoves ended cause).map ZoneMove.zone).Nodup := by
  unfold State.zoneMoves
  have h := nodup_zoneNumbers
  revert h
  generalize zoneNumbers = zs
  intro h
  have hsub : ((zs.filterMap (s.zoneAtEnd ended cause)).map ZoneMove.zone).Sublist zs := by
    clear h
    induction zs with
    | nil => simp
    | cons z rest ih =>
      rw [List.filterMap_cons]
      split
      · exact ih.cons z
      · rename_i m hm
        rw [List.map_cons, State.zoneAtEnd_zone s ended cause z m hm]
        exact ih.cons_cons z
  exact h.sublist hsub

/-- R92: the move of a zone, looked up. -/
theorem State.find_zoneMoves (s : State) (ended : SessionRef) (cause : EndCause) (z : Nat) :
    (s.zoneMoves ended cause).find? (fun m => m.zone == z) =
      if z ∈ zoneNumbers then s.zoneAtEnd ended cause z else none := by
  unfold State.zoneMoves
  have h := nodup_zoneNumbers
  revert h
  generalize zoneNumbers = zs
  intro h
  induction zs with
  | nil => rfl
  | cons k rest ih =>
    obtain ⟨hk, hrest⟩ := List.nodup_cons.mp h
    rw [List.filterMap_cons]
    by_cases hz : z = k
    · subst hz
      split
      · rename_i hn
        rw [ih hrest]
        simp [hk, hn]
      · rename_i m hm
        rw [List.find?_cons]
        simp [State.zoneAtEnd_zone s ended cause z m hm, hm]
    · split
      · rw [ih hrest]
        simp [hz]
      · rename_i m hm
        rw [List.find?_cons]
        have : (m.zone == z) = false := by
          rw [State.zoneAtEnd_zone s ended cause k m hm]
          simpa using Ne.symm hz
        rw [this, ih hrest]
        simp [hz]

/-! ## The end and the beginning of a session -/

/-- R92: the actions of the zone table at a session end, in whatever order its free choices give them. -/
theorem State.mem_zoneActions (s : State) (ms : List ZoneMove) (n : Nat) (a : Action) :
    a ∈ (s.zoneActions ms n).1 ↔
      (∃ m ∈ ms, m.policy = true ∧ a = .policy m.zone) ∨ a ∈ moveAction ms ∨
        a ∈ systemAction (zonePoints s (s.putMoves ms)) ∨ ∃ m ∈ ms, m.orphanFault = true ∧ a = .raise (4032 + m.zone) := by
  simp only [State.zoneActions, List.mem_append, (shuffle_perm _ _).mem_iff, (riffle_perm _ _ _).mem_iff, List.mem_map,
    List.mem_filter]
  constructor
  · rintro ((⟨m, ⟨hm, hp⟩, rfl⟩ | h) | h | ⟨m, ⟨hm, hp⟩, rfl⟩)
    · exact Or.inl ⟨m, hm, hp, rfl⟩
    · exact Or.inr (Or.inl h)
    · exact Or.inr (Or.inr (Or.inl h))
    · exact Or.inr (Or.inr (Or.inr ⟨m, hm, hp, rfl⟩))
  · rintro (⟨m, hm, hp, rfl⟩ | h | h | ⟨m, hm, hp, rfl⟩)
    · exact Or.inl (Or.inl ⟨m, ⟨hm, hp⟩, rfl⟩)
    · exact Or.inl (Or.inr h)
    · exact Or.inr (Or.inl h)
    · exact Or.inr (Or.inr ⟨m, ⟨hm, hp⟩, rfl⟩)

@[simp] theorem State.endSession_phase (s : State) (e : SessionRef) (c : EndCause) (m : List (List Action)) : (s.endSession e c m).phase = s.phase := by simp [State.endSession]
@[simp] theorem State.endSession_clock (s : State) (e : SessionRef) (c : EndCause) (m : List (List Action)) : (s.endSession e c m).clock = s.clock := by simp [State.endSession]
@[simp] theorem State.endSession_epoch (s : State) (e : SessionRef) (c : EndCause) (m : List (List Action)) : (s.endSession e c m).epoch = s.epoch := by simp [State.endSession]
@[simp] theorem State.endSession_tickDue (s : State) (e : SessionRef) (c : EndCause) (m : List (List Action)) : (s.endSession e c m).tickDue = s.tickDue := by simp [State.endSession]
@[simp] theorem State.endSession_freeWordDue (s : State) (e : SessionRef) (c : EndCause) (m : List (List Action)) : (s.endSession e c m).freeWordDue = s.freeWordDue := by simp [State.endSession]
@[simp] theorem State.endSession_sessionCounter (s : State) (e : SessionRef) (c : EndCause) (m : List (List Action)) : (s.endSession e c m).sessionCounter = s.sessionCounter := by simp [State.endSession]
@[simp] theorem State.endSession_links (s : State) (e : SessionRef) (c : EndCause) (m : List (List Action)) : (s.endSession e c m).links = s.links := by simp [State.endSession]
@[simp] theorem State.endSession_ports (s : State) (e : SessionRef) (c : EndCause) (m : List (List Action)) : (s.endSession e c m).ports = s.ports := by simp [State.endSession]
@[simp] theorem State.endSession_pending (s : State) (e : SessionRef) (c : EndCause) (m : List (List Action)) : (s.endSession e c m).pending = s.pending := by simp [State.endSession]
@[simp] theorem State.endSession_session (s : State) (e : SessionRef) (c : EndCause) (m : List (List Action)) (q : Port) : (s.endSession e c m).session q = s.session q := by simp [State.session]

/-- R28: the beginning of a session leaves the links, the zones, the tokens and the fault list. -/
theorem State.beginSession_frame (s : State) (p : Port) (b : Byte) :
     s.beginSession p b =
      { s with
          sessionCounter := (s.beginSession p b).sessionCounter
          ports := (s.beginSession p b).ports
          systemZone := (s.beginSession p b).systemZone
          bits := (s.beginSession p b).bits
          words := (s.beginSession p b).words
          timers := (s.beginSession p b).timers
          exchange := (s.beginSession p b).exchange
          attention := (s.beginSession p b).attention } := by
  unfold State.beginSession State.writeMonitor
  dsimp only
  rw [State.raisePeer_frame, State.writeSystem_frame]

@[simp] theorem State.beginSession_phase (s : State) (p : Port) (b : Byte) : (s.beginSession p b).phase = s.phase := by rw [State.beginSession_frame]
@[simp] theorem State.beginSession_clock (s : State) (p : Port) (b : Byte) : (s.beginSession p b).clock = s.clock := by rw [State.beginSession_frame]
@[simp] theorem State.beginSession_epoch (s : State) (p : Port) (b : Byte) : (s.beginSession p b).epoch = s.epoch := by rw [State.beginSession_frame]
@[simp] theorem State.beginSession_tickDue (s : State) (p : Port) (b : Byte) : (s.beginSession p b).tickDue = s.tickDue := by rw [State.beginSession_frame]
@[simp] theorem State.beginSession_freeWordDue (s : State) (p : Port) (b : Byte) : (s.beginSession p b).freeWordDue = s.freeWordDue := by rw [State.beginSession_frame]
@[simp] theorem State.beginSession_links (s : State) (p : Port) (b : Byte) : (s.beginSession p b).links = s.links := by rw [State.beginSession_frame]
@[simp] theorem State.beginSession_zones (s : State) (p : Port) (b : Byte) : (s.beginSession p b).zones = s.zones := by rw [State.beginSession_frame]
@[simp] theorem State.beginSession_tokens (s : State) (p : Port) (b : Byte) : (s.beginSession p b).tokens = s.tokens := by rw [State.beginSession_frame]
@[simp] theorem State.beginSession_faults (s : State) (p : Port) (b : Byte) : (s.beginSession p b).faults = s.faults := by rw [State.beginSession_frame]
@[simp] theorem State.beginSession_overflow (s : State) (p : Port) (b : Byte) : (s.beginSession p b).overflow = s.overflow := by rw [State.beginSession_frame]
@[simp] theorem State.beginSession_freeDraws (s : State) (p : Port) (b : Byte) : (s.beginSession p b).freeDraws = s.freeDraws := by rw [State.beginSession_frame]
@[simp] theorem State.beginSession_pending (s : State) (p : Port) (b : Byte) : (s.beginSession p b).pending = s.pending := by rw [State.beginSession_frame]
@[simp] theorem State.beginSession_zone (s : State) (p : Port) (b : Byte) (z : Nat) : (s.beginSession p b).zone z = s.zone z := by simp [State.zone]
@[simp] theorem State.beginSession_token (s : State) (p : Port) (b : Byte) (t : Nat) : (s.beginSession p b).token t = s.token t := by simp [State.token]

end Sys2Proof.Machine
end

