-- ==== Sys2Proof/Laws/Arrival.lean ====
section
/-!
SUPPORT. What an arrival does before and after its service: the monitor's part (R25), the fence (R24), the reply (R12), and the
one form that every request row has.
-/

namespace Sys2Proof.Machine

/-! ## The request rows -/

/-- Every request row is a request of its kind, served by its kind's service. -/
theorem exec_command (k : Kind) (p : Port) (tag : Byte) (session : Half) (body : List Byte) (s : State) :
    exec (k.command p tag session body) s =
      .next (s.request p ⟨tag, k.code, session, body⟩ (serviceOf k p session body)) := by
  cases k <;> rfl

/-- UNKNOWN_KIND is a request that the link answers itself. -/
theorem exec_unknownKind (p : Port) (tag kind : Byte) (session : Half) (body : List Byte) (s : State) :
    exec (.unknownKind p tag kind session body) s = .next (s.request p ⟨tag, kind, session, body⟩ serveUnknown) := rfl

/-- R12: the reply placed, in the words of the statements. -/
theorem State.placeReply_eq (s : State) (p : Port) (r : Request) (a : Answer) :
    s.placeReply p r a = s.replied p (a.frame r.tag r.kind (s.ports.get p).stateCode) := rfl

/-- R11: a request that is heard is an arrival. -/
theorem State.request_of_hears (s : State) (p : Port) (h : s.hears p) (r : Request) (serve : State → State × Answer) :
    s.request p r serve =
      (serve (s.qualify p r.session)).1.replied p
        ((serve (s.qualify p r.session)).2.frame r.tag r.kind
          ((serve (s.qualify p r.session)).1.ports.get p).stateCode) := by
  unfold State.request State.dispose
  rw [if_pos h.1, h.2]
  rfl

/-! ## The monitor's part of an arrival (R25) -/

/-- R25: an arrival on an ONLINE port restarts the deadline. -/
theorem State.qualify_online (s : State) (p : Port) (m : Membership) (h : s.ports.get p = .online m) :
    s.qualify p m.number = s.setPort p (.online { m with deadline := monitorDeadline s.clock m.monitorTime }) := by
  unfold State.qualify
  rw [h]
  simp

/-- R25: an arrival on a LATE port takes it back to ONLINE. -/
theorem State.qualify_late (s : State) (p : Port) (m : Membership) (h : s.ports.get p = .late m) :
    s.qualify p m.number =
      ((s.setPort p (.online { m with deadline := monitorDeadline s.clock m.monitorTime })).writeMonitor p).raisePeer p := by
  unfold State.qualify
  rw [h]
  simp

/-- R25: an arrival that does not carry the current session number does nothing to the monitor. -/
theorem State.qualify_other (s : State) (p : Port) (n : Half)
    (h : ∀ m, (s.ports.get p).session = some m → m.number ≠ n) : s.qualify p n = s := by
  unfold State.qualify
  split
  · rename_i m hm
    rw [if_neg (h m (by rw [hm]; rfl))]
  · rename_i m hm
    rw [if_neg (h m (by rw [hm]; rfl))]
  · rfl
  · rfl

/-- R23, R25: the monitor's points written. -/
theorem State.writeMonitor_frame (s : State) (p : Port) :
    s.writeMonitor p =
      { s with
          systemZone := (s.writeMonitor p).systemZone
          bits := (s.writeMonitor p).bits
          words := (s.writeMonitor p).words
          timers := (s.writeMonitor p).timers
          attention := (s.writeMonitor p).attention } := State.writeSystem_frame s _

/-- R25: the monitor's part changes the port's record, and for a LATE port its points, with what follows, and attention
records. -/
theorem State.qualify_frame (s : State) (p : Port) (n : Half) :
    s.qualify p n =
      { s with
          ports := (s.qualify p n).ports
          systemZone := (s.qualify p n).systemZone
          bits := (s.qualify p n).bits
          words := (s.qualify p n).words
          timers := (s.qualify p n).timers
          attention := (s.qualify p n).attention } := by
  unfold State.qualify
  split
  · split <;> rfl
  · split
    · rw [State.raisePeer_frame, State.writeMonitor_frame]
      rfl
    · rfl
  · rfl
  · rfl

@[simp] theorem State.writeMonitor_phase (s : State) (p : Port) : (s.writeMonitor p).phase = s.phase := by rw [State.writeMonitor_frame]
@[simp] theorem State.writeMonitor_clock (s : State) (p : Port) : (s.writeMonitor p).clock = s.clock := by rw [State.writeMonitor_frame]
@[simp] theorem State.writeMonitor_epoch (s : State) (p : Port) : (s.writeMonitor p).epoch = s.epoch := by rw [State.writeMonitor_frame]
@[simp] theorem State.writeMonitor_tickDue (s : State) (p : Port) : (s.writeMonitor p).tickDue = s.tickDue := by rw [State.writeMonitor_frame]
@[simp] theorem State.writeMonitor_freeWordDue (s : State) (p : Port) : (s.writeMonitor p).freeWordDue = s.freeWordDue := by rw [State.writeMonitor_frame]
@[simp] theorem State.writeMonitor_sessionCounter (s : State) (p : Port) : (s.writeMonitor p).sessionCounter = s.sessionCounter := by rw [State.writeMonitor_frame]
@[simp] theorem State.writeMonitor_links (s : State) (p : Port) : (s.writeMonitor p).links = s.links := by rw [State.writeMonitor_frame]
@[simp] theorem State.writeMonitor_ports (s : State) (p : Port) : (s.writeMonitor p).ports = s.ports := by rw [State.writeMonitor_frame]
@[simp] theorem State.writeMonitor_zones (s : State) (p : Port) : (s.writeMonitor p).zones = s.zones := by rw [State.writeMonitor_frame]
@[simp] theorem State.writeMonitor_tokens (s : State) (p : Port) : (s.writeMonitor p).tokens = s.tokens := by rw [State.writeMonitor_frame]
@[simp] theorem State.writeMonitor_exchange (s : State) (p : Port) : (s.writeMonitor p).exchange = s.exchange := by rw [State.writeMonitor_frame]
@[simp] theorem State.writeMonitor_faults (s : State) (p : Port) : (s.writeMonitor p).faults = s.faults := by rw [State.writeMonitor_frame]
@[simp] theorem State.writeMonitor_overflow (s : State) (p : Port) : (s.writeMonitor p).overflow = s.overflow := by rw [State.writeMonitor_frame]
@[simp] theorem State.writeMonitor_freeDraws (s : State) (p : Port) : (s.writeMonitor p).freeDraws = s.freeDraws := by rw [State.writeMonitor_frame]
@[simp] theorem State.writeMonitor_pending (s : State) (p : Port) : (s.writeMonitor p).pending = s.pending := by rw [State.writeMonitor_frame]
@[simp] theorem State.writeMonitor_session (s : State) (p : Port) (q : Port) : (s.writeMonitor p).session q = s.session q := by simp [State.session]
@[simp] theorem State.writeMonitor_zone (s : State) (p : Port) (z : Nat) : (s.writeMonitor p).zone z = s.zone z := by simp [State.zone]
@[simp] theorem State.writeMonitor_token (s : State) (p : Port) (t : Nat) : (s.writeMonitor p).token t = s.token t := by simp [State.token]
@[simp] theorem State.qualify_phase (s : State) (p : Port) (n : Half) : (s.qualify p n).phase = s.phase := by rw [State.qualify_frame]
@[simp] theorem State.qualify_clock (s : State) (p : Port) (n : Half) : (s.qualify p n).clock = s.clock := by rw [State.qualify_frame]
@[simp] theorem State.qualify_epoch (s : State) (p : Port) (n : Half) : (s.qualify p n).epoch = s.epoch := by rw [State.qualify_frame]
@[simp] theorem State.qualify_tickDue (s : State) (p : Port) (n : Half) : (s.qualify p n).tickDue = s.tickDue := by rw [State.qualify_frame]
@[simp] theorem State.qualify_freeWordDue (s : State) (p : Port) (n : Half) : (s.qualify p n).freeWordDue = s.freeWordDue := by rw [State.qualify_frame]
@[simp] theorem State.qualify_sessionCounter (s : State) (p : Port) (n : Half) : (s.qualify p n).sessionCounter = s.sessionCounter := by rw [State.qualify_frame]
@[simp] theorem State.qualify_links (s : State) (p : Port) (n : Half) : (s.qualify p n).links = s.links := by rw [State.qualify_frame]
@[simp] theorem State.qualify_zones (s : State) (p : Port) (n : Half) : (s.qualify p n).zones = s.zones := by rw [State.qualify_frame]
@[simp] theorem State.qualify_tokens (s : State) (p : Port) (n : Half) : (s.qualify p n).tokens = s.tokens := by rw [State.qualify_frame]
@[simp] theorem State.qualify_exchange (s : State) (p : Port) (n : Half) : (s.qualify p n).exchange = s.exchange := by rw [State.qualify_frame]
@[simp] theorem State.qualify_faults (s : State) (p : Port) (n : Half) : (s.qualify p n).faults = s.faults := by rw [State.qualify_frame]
@[simp] theorem State.qualify_overflow (s : State) (p : Port) (n : Half) : (s.qualify p n).overflow = s.overflow := by rw [State.qualify_frame]
@[simp] theorem State.qualify_freeDraws (s : State) (p : Port) (n : Half) : (s.qualify p n).freeDraws = s.freeDraws := by rw [State.qualify_frame]
@[simp] theorem State.qualify_pending (s : State) (p : Port) (n : Half) : (s.qualify p n).pending = s.pending := by rw [State.qualify_frame]
@[simp] theorem State.qualify_zone (s : State) (p : Port) (n : Half) (z : Nat) : (s.qualify p n).zone z = s.zone z := by simp [State.zone]
@[simp] theorem State.qualify_token (s : State) (p : Port) (n : Half) (t : Nat) : (s.qualify p n).token t = s.token t := by simp [State.token]

/-- R25: the other ports' records stand. -/
@[simp] theorem State.qualify_ports_ne (s : State) (p q : Port) (n : Half) (h : q ≠ p) :
    (s.qualify p n).ports.get q = s.ports.get q := by
  unfold State.qualify
  split
  · split <;> simp [h]
  · split
    · simp [h]
    · rfl
  · rfl
  · rfl

/-- R25: the port's record after an arrival of its session. -/
theorem State.qualify_ports (s : State) (p : Port) (m : Membership) (h : (s.ports.get p).session = some m) :
    (s.qualify p m.number).ports.get p =
      .online { m with deadline := monitorDeadline s.clock m.monitorTime } := by
  cases hr : s.ports.get p with
  | offline => rw [hr] at h; exact absurd h (by simp [PortRecord.session])
  | lost => rw [hr] at h; exact absurd h (by simp [PortRecord.session])
  | online m' =>
    rw [hr] at h
    obtain rfl := Option.some.inj h
    rw [State.qualify_online s p m' hr]
    simp
  | late m' =>
    rw [hr] at h
    obtain rfl := Option.some.inj h
    rw [State.qualify_late s p m' hr]
    simp

/-- R25: the current sessions stand. -/
@[simp] theorem State.qualify_session (s : State) (p q : Port) (n : Half) : (s.qualify p n).session q = s.session q := by
  by_cases h : q = p
  · subst h
    unfold State.session State.qualify
    split
    · rename_i m hm
      split
      · simp [hm, PortRecord.session]
      · rfl
    · rename_i m hm
      split
      · simp [hm, PortRecord.session]
      · rfl
    · rfl
    · rfl
  · unfold State.session
    rw [State.qualify_ports_ne s p q n h]

/-- R25: bits from 32 up that are not the port's monitor points stand. -/
theorem State.qualify_bit (s : State) (p : Port) (n : Half) (i : Nat) (h : 32 ≤ i)
    (hp : i ≠ 48 + p.index ∧ i ≠ 52 + p.index ∧ i ≠ 56 + p.index) : (s.qualify p n).bit i = s.bit i := by
  unfold State.qualify
  split
  · split <;> rfl
  · split
    · rw [State.raisePeer_bit, State.writeMonitor, State.writeSystem_bit _ _ _ h, State.bit_store_ne]
      · rfl
      · intro b hb
        simp only [monitorPoints, List.mem_cons, List.not_mem_nil, or_false] at hb
        rcases hb with rfl | rfl | rfl
        · exact Ne.symm hp.1
        · exact Ne.symm hp.2.1
        · exact Ne.symm hp.2.2
    · rfl
  · rfl
  · rfl

/-- R25: words from 32 up that are not the port's monitor word stand. -/
theorem State.qualify_word (s : State) (p : Port) (n : Half) (i : Nat) (h : 32 ≤ i) (hp : i ≠ 48 + p.index) :
    (s.qualify p n).word i = s.word i := by
  unfold State.qualify
  split
  · split <;> rfl
  · split
    · rw [State.raisePeer_word, State.writeMonitor, State.writeSystem_word _ _ _ h, State.word_store_ne]
      · rfl
      · intro b hb
        simp only [monitorPoints, List.mem_cons, List.not_mem_nil, or_false] at hb
        rcases hb with rfl
        exact Ne.symm hp
    · rfl
  · rfl
  · rfl

/-- R25: the monitor's part leaves the settings of every timer. -/
theorem State.qualify_settings (s : State) (p : Port) (n : Half) (t : Nat) :
    ((s.qualify p n).timer t).map Armed.settings = (s.timer t).map Armed.settings := by
  unfold State.qualify
  split
  · split <;> rfl
  · split
    · rw [State.raisePeer_timer, State.writeMonitor, State.writeSystem_settings]
      rfl
    · rfl
  · rfl
  · rfl

/-! ## The fence (R24) -/

/-- R24: the current session of a served port. -/
theorem State.session_of_serves {s : State} {p : Port} {m : Membership} (h : s.serves p m) :
    s.session p = some (m.on p) := by
  simp [State.session, h.2]

/-- R24: a request of the current session passes to its service. -/
theorem fenced_of_serves {s : State} {p : Port} {m : Membership} (h : s.serves p m)
    (serve : SessionRef → State → State × Answer) :
    fenced p m.number serve (s.qualify p m.number) = serve (m.on p) (s.qualify p m.number) := by
  unfold fenced
  rw [State.qualify_session, State.session_of_serves h]
  simp

/-- R24: a request without its session is refused. -/
theorem fenced_of_not (p : Port) (session : Half) (s : State) (serve : SessionRef → State → State × Answer)
    (h : ∀ m, (s.ports.get p).session = some m → m.number ≠ session) :
    fenced p session serve s = (s, .refuse .noSession (if (s.ports.get p).session.isSome then 1 else 0)) := by
  unfold fenced State.session
  cases hr : (s.ports.get p).session with
  | none => rfl
  | some m => simp [h m hr]

/-- R11, R12, R24: a fenced request of the current session: the monitor's part, the service, the reply. -/
theorem exec_of_serves {s : State} {p : Port} {m : Membership} (h : s.serves p m) (k : Kind) (tag : Byte) (body : List Byte)
    (serve : SessionRef → State → State × Answer)
    (hk : serviceOf k p m.number body = fenced p m.number serve) :
    exec (k.command p tag m.number body) s =
      .next ((serve (m.on p) (s.qualify p m.number)).1.replied p
        ((serve (m.on p) (s.qualify p m.number)).2.frame tag k.code
          ((serve (m.on p) (s.qualify p m.number)).1.ports.get p).stateCode)) := by
  rw [exec_command, State.request_of_hears s p h.1]
  dsimp only
  rw [hk, fenced_of_serves h]

/-- R12, R25: a refused request. -/
theorem State.refused_eq {s : State} {p : Port} {m : Membership} (h : s.serves p m) (tag : Byte) (k : Kind)
    (o : ReplyOutcome) (detail : Nat) :
    (s.qualify p m.number).replied p
        ((Answer.refuse o detail).frame tag k.code ((s.qualify p m.number).ports.get p).stateCode) =
      s.refused p m tag k o detail := by
  rw [State.qualify_ports s p m h.2]
  rfl

/-- R11, R12: a request of the current session whose service answers `a` in a state that keeps the port's record. -/
theorem exec_of_answer {s : State} {p : Port} {m : Membership} (h : s.serves p m) (k : Kind) (tag : Byte)
    (body : List Byte) (serve : SessionRef → State → State × Answer)
    (hk : serviceOf k p m.number body = fenced p m.number serve) (t : State) (a : Answer)
    (ha : serve (m.on p) (s.qualify p m.number) = (t, a))
    (ht : t.ports.get p = (s.qualify p m.number).ports.get p) :
    exec (k.command p tag m.number body) s = .next (t.replied p (a.frame tag k.code 1)) := by
  rw [exec_of_serves h k tag body serve hk, ha, ht, State.qualify_ports s p m h.2]
  rfl

/-- R12, R25: a request of the current session that its service refuses. -/
theorem exec_of_refusal {s : State} {p : Port} {m : Membership} (h : s.serves p m) (k : Kind) (tag : Byte)
    (body : List Byte) (serve : SessionRef → State → State × Answer)
    (hk : serviceOf k p m.number body = fenced p m.number serve) (o : ReplyOutcome) (detail : Nat)
    (ha : serve (m.on p) (s.qualify p m.number) = (s.qualify p m.number, .refuse o detail)) :
    exec (k.command p tag m.number body) s = .next (s.refused p m tag k o detail) :=
  exec_of_answer h k tag body serve hk _ _ ha rfl

/-! ## Fields and codes -/

/-- R183: the two bytes of a field are read as the field. -/
@[simp] theorem half_halfBytes (h : Half) : half (h.extractLsb' 8 8) (h.extractLsb' 0 8) = h := by
  apply BitVec.eq_of_getLsbD_eq
  intro i hi
  unfold half
  rw [BitVec.getLsbD_append, BitVec.getLsbD_extractLsb', BitVec.getLsbD_extractLsb']
  by_cases h8 : i < 8
  · simp [h8]
  · rw [if_neg h8]
    have e : 8 + (i - 8) = i := by omega
    rw [e]
    simp
    omega

/-- R186: a kind's code names the kind. -/
@[simp] theorem kind_ofCode_code (k : Kind) : Kind.ofCode k.code = some k := by cases k <;> rfl

/-- A port's code names the port. -/
@[simp] theorem port_ofCode_code (p : Port) : Port.ofCode p.code = some p := by cases p <;> rfl

/-- A 16-bit field is the count it holds. -/
@[simp] theorem natHalf_toNat (h : Half) : natHalf h.toNat = h := by simp [natHalf]

/-- A byte as a 16-bit field. -/
theorem natHalf_toNat_byte (b : Byte) : natHalf b.toNat = b.setWidth 16 := by
  apply BitVec.eq_of_toNat_eq
  simp [natHalf]

/-! ## The state after a reply -/

@[simp] theorem State.replied_phase (s : State) (p : Port) (b : List Byte) : (s.replied p b).phase = s.phase := rfl
@[simp] theorem State.replied_clock (s : State) (p : Port) (b : List Byte) : (s.replied p b).clock = s.clock := rfl
@[simp] theorem State.replied_epoch (s : State) (p : Port) (b : List Byte) : (s.replied p b).epoch = s.epoch := rfl
@[simp] theorem State.replied_tickDue (s : State) (p : Port) (b : List Byte) : (s.replied p b).tickDue = s.tickDue := rfl
@[simp] theorem State.replied_freeWordDue (s : State) (p : Port) (b : List Byte) : (s.replied p b).freeWordDue = s.freeWordDue := rfl
@[simp] theorem State.replied_sessionCounter (s : State) (p : Port) (b : List Byte) : (s.replied p b).sessionCounter = s.sessionCounter := rfl
@[simp] theorem State.replied_ports (s : State) (p : Port) (b : List Byte) : (s.replied p b).ports = s.ports := rfl
@[simp] theorem State.replied_systemZone (s : State) (p : Port) (b : List Byte) : (s.replied p b).systemZone = s.systemZone := rfl
@[simp] theorem State.replied_zones (s : State) (p : Port) (b : List Byte) : (s.replied p b).zones = s.zones := rfl
@[simp] theorem State.replied_bits (s : State) (p : Port) (b : List Byte) : (s.replied p b).bits = s.bits := rfl
@[simp] theorem State.replied_words (s : State) (p : Port) (b : List Byte) : (s.replied p b).words = s.words := rfl
@[simp] theorem State.replied_tokens (s : State) (p : Port) (b : List Byte) : (s.replied p b).tokens = s.tokens := rfl
@[simp] theorem State.replied_timers (s : State) (p : Port) (b : List Byte) : (s.replied p b).timers = s.timers := rfl
@[simp] theorem State.replied_exchange (s : State) (p : Port) (b : List Byte) : (s.replied p b).exchange = s.exchange := rfl
@[simp] theorem State.replied_attention (s : State) (p : Port) (b : List Byte) : (s.replied p b).attention = s.attention := rfl
@[simp] theorem State.replied_faults (s : State) (p : Port) (b : List Byte) : (s.replied p b).faults = s.faults := rfl
@[simp] theorem State.replied_overflow (s : State) (p : Port) (b : List Byte) : (s.replied p b).overflow = s.overflow := rfl
@[simp] theorem State.replied_freeDraws (s : State) (p : Port) (b : List Byte) : (s.replied p b).freeDraws = s.freeDraws := rfl
@[simp] theorem State.replied_pending (s : State) (p : Port) (b : List Byte) : (s.replied p b).pending = s.pending := rfl
@[simp] theorem State.replied_session (s : State) (p : Port) (b : List Byte) (q : Port) : (s.replied p b).session q = s.session q := rfl
@[simp] theorem State.replied_zone (s : State) (p : Port) (b : List Byte) (z : Nat) : (s.replied p b).zone z = s.zone z := rfl
@[simp] theorem State.replied_bit (s : State) (p : Port) (b : List Byte) (i : Nat) : (s.replied p b).bit i = s.bit i := rfl
@[simp] theorem State.replied_word (s : State) (p : Port) (b : List Byte) (i : Nat) : (s.replied p b).word i = s.word i := rfl
@[simp] theorem State.replied_token (s : State) (p : Port) (b : List Byte) (t : Nat) : (s.replied p b).token t = s.token t := rfl
@[simp] theorem State.replied_timer (s : State) (p : Port) (b : List Byte) (t : Nat) : (s.replied p b).timer t = s.timer t := rfl

/-- R12: the port's own link after a reply. -/
@[simp] theorem State.replied_link (s : State) (p : Port) (b : List Byte) :
    (s.replied p b).links.get p = { s.links.get p with reply := some b } := by simp [State.replied]

/-- R12: the other links after a reply. -/
@[simp] theorem State.replied_link_ne (s : State) (p q : Port) (b : List Byte) (h : q ≠ p) :
    (s.replied p b).links.get q = s.links.get q := by simp [State.replied, h]

end Sys2Proof.Machine
end

