-- ==== Sys2Proof/Laws/CellClock.lean ====
section
/-!
SUPPORT. What is due at a clock value, and what an advance takes: every event still due, each once and as its own command.
-/

namespace Sys2Proof.Machine

theorem reached_iff (d c : Clock) : reached d c = true ↔ d = c := beq_iff_eq

/-- The command that takes an event at its own. -/
def Due.command : Due → Instr
  | .first p => .monitorFirstExpiry p
  | .second p => .monitorSecondExpiry p
  | .takeover z => .takeoverDeadlineExpiry z
  | .hold t => .holdDeadlineExpiry t
  | .coalesce p => .coalesceDeadlineExpiry p
  | .tick => .timerTick

theorem Due.command_injective : Function.Injective Due.command := by
  intro a b h
  cases a <;> cases b <;> cases h <;> rfl

/-- An event that an advance takes has the effect of its command. -/
theorem State.takeDue_eq_after (s : State) (d : Due) : s.takeDue d = s.after d.command := by cases d <;> rfl

theorem Due.all_nodup : Due.all.Nodup := by decide +kernel

theorem Due.mem_all (d : Due) :
    d ∈ Due.all ↔ (∀ z, d = .takeover z → 1 ≤ z ∧ z ≤ 31) ∧ ∀ t, d = .hold t → t < 16 := by
  have ports : ∀ p : Port, p ∈ Port.all := fun p => by cases p <;> decide
  cases d <;> simp [Due.all, ports, mem_zoneNumbers, Config.tokenCount]

theorem State.mem_dueNow (s : State) (d : Due) : d ∈ s.dueNow ↔ d ∈ Due.all ∧ s.deadlineOf d = some s.clock := by
  simp [State.dueNow]

theorem State.dueNow_nodup (s : State) : s.dueNow.Nodup := Due.all_nodup.filter _

/-- R17: what an advance takes is what is due, in some order. -/
theorem State.takeAllDue_eq (s : State) :
    ∃ (order : List Due) (draws : Nat), order.Perm s.dueNow ∧
      s.takeAllDue = order.foldl State.takeDue { s with freeDraws := draws } :=
  ⟨_, _, shuffle_perm s.freeDraws s.dueNow, rfl⟩

/-- What each event that is due keeps, taking everything that is due keeps. -/
theorem State.takeAllDue_keeps (P : State → Prop) (s : State) (hs : ∀ draws, P { s with freeDraws := draws })
    (step : ∀ u d, d ∈ Due.all → P u → P (u.takeDue d)) : P s.takeAllDue := by
  obtain ⟨order, draws, perm, e⟩ := s.takeAllDue_eq
  rw [e]
  have mem : ∀ d ∈ order, d ∈ Due.all := fun d hd => ((s.mem_dueNow d).mp (perm.mem_iff.mp hd)).1
  have all : ∀ (ds : List Due) (u : State), (∀ d ∈ ds, d ∈ Due.all) → P u → P (ds.foldl State.takeDue u) := by
    intro ds
    induction ds with
    | nil => exact fun _ _ hu => hu
    | cons d ds ih =>
      exact fun u hm hu => ih _ (fun e he => hm e (.tail _ he)) (step u d (hm d (.head _)) hu)
  exact all order _ mem (hs draws)

end Sys2Proof.Machine
end

