-- ==== Sys2Proof/Laws/Frames.lean ====
section
/-!
SUPPORT. Which blocks each operation and each service can change, in the words of `Block`: one lemma for each, by composition.
-/

namespace Sys2Proof.Machine

/-- Every block outside the list stands the same in two states. -/
def Keeps (bs : List Block) (s t : State) : Prop := ∀ b, b ∉ bs → b.same s t

/-- A state keeps its own blocks. -/
theorem Block.same_refl (s : State) (b : Block) : b.same s s := by cases b <;> simp [Block.same]

/-- Keeping is transitive, block by block. -/
theorem Block.same_trans {s t u : State} {b : Block} (h : b.same s t) (h' : b.same t u) : b.same s u := by
  cases b <;> simp only [Block.same] at *
  case resetPhase => exact ⟨h'.1.trans h.1, h'.2.trans h.2⟩
  case clock => exact h'.trans h
  case sessionCounter => exact h'.trans h
  case port p => exact h'.trans h
  case link p => exact h'.trans h
  case zones => exact fun z => (h' z).trans (h z)
  case definablePoints => exact ⟨fun i hi => (h'.1 i hi).trans (h.1 i hi), fun i hi => (h'.2 i hi).trans (h.2 i hi)⟩
  case tokens => exact fun z => (h' z).trans (h z)
  case timerSettings => exact fun z => (h' z).trans (h z)
  case exchange => exact h'.trans h
  case faults => exact ⟨h'.1.trans h.1, h'.2.trans h.2⟩

/-- A state keeps its own blocks. -/
theorem Keeps.refl (bs : List Block) (s : State) : Keeps bs s s := fun b _ => b.same_refl s

/-- Two changes of the same blocks. -/
theorem Keeps.trans {bs : List Block} {s t u : State} (h : Keeps bs s t) (h' : Keeps bs t u) : Keeps bs s u :=
  fun b hb => Block.same_trans (h b hb) (h' b hb)

/-- More blocks may be named. -/
theorem Keeps.mono {bs cs : List Block} {s t : State} (h : Keeps bs s t) (hs : ∀ b ∈ bs, b ∈ cs) : Keeps cs s t :=
  fun b hb => h b fun hm => hb (hs b hm)

/-! ## Operations that change no block -/

/-- A state that differs in attention records, free choices, zone 0 and points of the system zone alone. -/
theorem keeps_of_frame {s t : State} (h1 : t.phase = s.phase) (h2 : t.epoch = s.epoch) (h3 : t.clock = s.clock)
    (h4 : t.sessionCounter = s.sessionCounter) (h5 : t.ports = s.ports) (h6 : t.links = s.links) (bs : List Block)
    (h7 : .zones ∉ bs → ∀ z, t.zone z = s.zone z)
    (h8 : .definablePoints ∉ bs → (∀ i, 128 ≤ i → t.bit i = s.bit i) ∧ ∀ i, 96 ≤ i → t.word i = s.word i)
    (h9 : .tokens ∉ bs → ∀ n, t.token n = s.token n)
    (h10 : .timerSettings ∉ bs → ∀ n, (t.timer n).map Armed.settings = (s.timer n).map Armed.settings)
    (h11 : .exchange ∉ bs → t.exchange = s.exchange)
    (h12 : .faults ∉ bs → t.faults = s.faults ∧ t.overflow = s.overflow) : Keeps bs s t := by
  intro b hb
  cases b with
  | resetPhase => exact ⟨h1, h2⟩
  | clock => exact h3
  | sessionCounter => exact h4
  | port p => simp only [Block.same, h5]
  | link p => simp only [Block.same, h6]
  | zones => exact h7 hb
  | definablePoints => exact h8 hb
  | tokens => exact h9 hb
  | timerSettings => exact h10 hb
  | exchange => exact h11 hb
  | faults => exact h12 hb

/-- A raise changes no block. -/
theorem keeps_raise (bs : List Block) (s : State) (c : Cause) (d : Detail) (p : Port) : Keeps bs s (s.raise c d p) := by
  refine keeps_of_frame ?_ ?_ ?_ ?_ ?_ ?_ bs ?_ ?_ ?_ ?_ ?_ ?_ <;> simp

/-- Raises for several ports change no block. -/
theorem keeps_raiseFor (bs : List Block) (s : State) (c : Cause) (d : Detail) (ps : List Port) :
    Keeps bs s (s.raiseFor c d ps) := by
  refine keeps_of_frame ?_ ?_ ?_ ?_ ?_ ?_ bs ?_ ?_ ?_ ?_ ?_ ?_ <;> simp

/-- A PEER raise changes no block. -/
theorem keeps_raisePeer (bs : List Block) (s : State) (p : Port) : Keeps bs s (s.raisePeer p) := keeps_raiseFor bs s _ _ _

/-- A FAULT raise changes no block. -/
theorem keeps_raiseFaultAttention (bs : List Block) (s : State) : Keeps bs s s.raiseFaultAttention :=
  keeps_raiseFor bs s _ _ _

/-- A grant's raise changes no block. -/
theorem keeps_raiseGrant (bs : List Block) (s : State) (n : Nat) (k : Token) (b : Bool) : Keeps bs s (s.raiseGrant n k b) := by
  refine keeps_of_frame ?_ ?_ ?_ ?_ ?_ ?_ bs ?_ ?_ ?_ ?_ ?_ ?_ <;> simp

/-- The raises of a session end change no block. -/
theorem keeps_raiseMoves (bs : List Block) (s : State) (ms : List ZoneMove) : Keeps bs s (s.raiseMoves ms) := by
  refine keeps_of_frame ?_ ?_ ?_ ?_ ?_ ?_ bs ?_ ?_ ?_ ?_ ?_ ?_ <;> simp

/-- A change of attention records changes no block. -/
theorem keeps_mapAttention (bs : List Block) (s : State) (f : AttentionRecord → AttentionRecord) :
    Keeps bs s (s.mapAttention f) := by
  refine keeps_of_frame ?_ ?_ ?_ ?_ ?_ ?_ bs ?_ ?_ ?_ ?_ ?_ ?_ <;> simp

/-- An ownership notice changes no block. -/
theorem keeps_fireOwnership (bs : List Block) (s : State) (zs : List Nat) : Keeps bs s (s.fireOwnership zs) :=
  keeps_mapAttention bs s _

/-- A record replaced changes no block. -/
theorem keeps_setRecord (bs : List Block) (s : State) (p : Port) (r : AttentionRecord) : Keeps bs s (s.setRecord p r) := by
  refine keeps_of_frame ?_ ?_ ?_ ?_ ?_ ?_ bs ?_ ?_ ?_ ?_ ?_ ?_ <;> simp

/-- A record dropped changes no block. -/
theorem keeps_dropAttention (bs : List Block) (s : State) (p : Port) : Keeps bs s (s.dropAttention p) := by
  refine keeps_of_frame ?_ ?_ ?_ ?_ ?_ ?_ bs ?_ ?_ ?_ ?_ ?_ ?_ <;> simp

/-- A free choice changes no block. -/
theorem keeps_freeDraws (bs : List Block) (s : State) (n : Nat) : Keeps bs s { s with freeDraws := n } := by
  intro b _
  cases b <;> simp [Block.same, State.zone, State.bit, State.word, State.token, State.timer]

/-! ## Writes -/

/-- A write names points of the system zone alone. -/
def Points.inSystem (w : Points) : Prop := (∀ b ∈ w.bits, b.1 < 128) ∧ ∀ b ∈ w.words, b.1 < 96

/-- A system-zone write changes no block. -/
theorem keeps_writeSystem (bs : List Block) (s : State) (w : Points) (hw : w.inSystem) : Keeps bs s (s.writeSystem w) := by
  refine keeps_of_frame ?_ ?_ ?_ ?_ ?_ ?_ bs ?_ ?_ ?_ ?_ ?_ ?_ <;> try simp
  · intro _
    refine ⟨fun i hi => ?_, fun i hi => ?_⟩
    · rw [State.writeSystem_bit s w i (by omega), State.bit_store_ne]
      intro b hb
      have := hw.1 b hb
      omega
    · rw [State.writeSystem_word s w i (by omega), State.word_store_ne]
      intro b hb
      have := hw.2 b hb
      omega
  · intro _ n
    exact State.writeSystem_settings s w n

/-- A counted write event changes zones and points of the definable area. -/
theorem keeps_writeZones (s : State) (zs : List Nat) (w : Points) :
    Keeps [.zones, .definablePoints] s (s.writeZones zs w) := by
  refine keeps_of_frame ?_ ?_ ?_ ?_ ?_ ?_ _ ?_ ?_ ?_ ?_ ?_ ?_ <;> try simp
  intro n
  unfold State.writeZones
  dsimp only
  rw [State.deliver_settings, State.storeCounted_fst]
  rfl

/-- A clearing changes points of the definable area. -/
theorem keeps_writeClearing (s : State) (w : Points) : Keeps [.definablePoints] s (s.writeClearing w) := by
  refine keeps_of_frame ?_ ?_ ?_ ?_ ?_ ?_ _ ?_ ?_ ?_ ?_ ?_ ?_ <;> try simp
  intro n
  unfold State.writeClearing
  dsimp only
  rw [State.deliver_settings, State.storeClearing_fst]
  rfl

/-- A loss-policy write changes zones and points of the definable area. -/
theorem keeps_writePolicy (s : State) (z : Nat) : Keeps [.zones, .definablePoints] s (s.writePolicy z) := by
  unfold State.writePolicy
  split
  · exact keeps_writeZones s _ _
  · exact Keeps.refl _ s

/-- The fault list's points lie in the system zone. -/
theorem faultPoints_inSystem (s t : State) : (faultPoints s t).inSystem := by
  refine ⟨fun b hb => ?_, fun b hb => ?_⟩
  · have := (List.mem_filter.mp hb).1
    simp only [faultBits, List.mem_cons, List.not_mem_nil, or_false] at this
    rcases this with rfl | rfl | rfl | rfl <;> simp
  · have := (List.mem_filter.mp hb).1
    simp only [faultWords, List.mem_cons, List.not_mem_nil, or_false] at this
    rcases this with rfl | rfl <;> simp

/-- The zone table's points lie in the system zone. -/
theorem zonePoints_inSystem (s t : State) : (zonePoints s t).inSystem := by
  refine ⟨fun b hb => ?_, fun b hb => ?_⟩
  · simp only [zonePoints, List.mem_append, List.mem_filterMap] at hb
    rcases hb with ⟨z, hz, h⟩ | ⟨z, hz, h⟩ <;>
    · have := (mem_zoneNumbers z).mp hz
      split at h
      · exact absurd h (by simp)
      · obtain rfl := Option.some.inj h
        dsimp only
        omega
  · simp only [zonePoints] at hb
    split at hb
    · exact absurd hb (by simp)
    · simp only [List.mem_singleton] at hb
      subst hb
      simp

/-- The token arbiter's points lie in the system zone. -/
theorem tokenPoints_inSystem (s t : State) : (tokenPoints s t).inSystem := by
  refine ⟨fun b hb => ?_, fun b hb => ?_⟩ <;>
  · simp only [tokenPoints, List.mem_map, List.mem_filter, List.mem_range, Config.tokenCount] at hb
    obtain ⟨n, ⟨hn, -⟩, rfl⟩ := hb
    dsimp only
    omega

/-- The exchange's points lie in the system zone. -/
theorem exchangePoints_inSystem (s t : State) : (exchangePoints s t).inSystem := by
  refine ⟨fun b hb => absurd hb (by simp [exchangePoints]), fun b hb => ?_⟩
  have := (List.mem_filter.mp hb).1
  simp only [exchangeWords, List.mem_cons, List.mem_map] at this
  rcases this with rfl | ⟨p, -, rfl⟩
  · simp
  · cases p <;> simp [Port.index]

/-- The timer array's points lie in the system zone. -/
theorem timerPoints_inSystem (s t : State) : (timerPoints s t).inSystem :=
  ⟨fun b hb => by have := timerPoints_bits_lt s t b hb; omega, fun b hb => by have := timerPoints_words_lt s t b hb; omega⟩

/-- The monitor's points lie in the system zone. -/
theorem monitorPoints_inSystem (p : Port) (r : PortRecord) : (monitorPoints p r).inSystem := by
  refine ⟨fun b hb => ?_, fun b hb => ?_⟩ <;>
  · simp only [monitorPoints, List.mem_cons, List.not_mem_nil, or_false] at hb
    cases p <;> rcases hb with rfl | rfl | rfl <;> simp [Port.index]

/-- A raise in the fault list changes the fault list alone. -/
theorem keeps_raiseFault (s : State) (n : Half) (o : Origin) (r : Half) : Keeps [.faults] s (s.raiseFault n o r) := by
  have h1 : Keeps [.faults] s (s.enterFault n o r) := by
    rw [State.enterFault_frame]
    intro b hb
    cases b <;> simp_all [Block.same, State.zone, State.bit, State.word, State.token, State.timer]
  have h2 : Keeps [.faults] s (s.writeFaults (s.enterFault n o r)) :=
    h1.trans (keeps_writeSystem _ _ _ (faultPoints_inSystem _ _))
  unfold State.raiseFault
  dsimp only
  split
  · exact h2
  · exact h2.trans (keeps_raiseFaultAttention _ _)
  · exact h2.trans (keeps_raiseFaultAttention _ _)

/-- The actions of several blocks change what their actions change. -/
theorem keeps_actFreely (bs : List Block) (s : State) (blocks : List (List Action))
    (h : ∀ a ∈ blocks.flatten, ∀ t, Keeps bs t (t.act a)) : Keeps bs s (s.actFreely blocks) :=
  State.actFreely_keeps (fun t => Keeps bs s t) s blocks (fun n => keeps_freeDraws bs s n)
    fun a ha t ht => ht.trans (h a ha t)

/-- A system-zone action changes no block. -/
theorem keeps_act_system (bs : List Block) (s : State) (w : Points) (hw : w.inSystem) : Keeps bs s (s.act (.system w)) :=
  keeps_writeSystem bs s w hw

/-- A raise action changes the fault list alone. -/
theorem keeps_act_raise (s : State) (n : Nat) : Keeps [.faults] s (s.act (.raise n)) := keeps_raiseFault s _ _ _

/-- The moves of a session end change the zones. -/
theorem keeps_act_move (s : State) (ms : List ZoneMove) : Keeps [.zones] s (s.act (.move ms)) := by
  refine keeps_of_frame ?_ ?_ ?_ ?_ ?_ ?_ _ ?_ ?_ ?_ ?_ ?_ ?_ <;> simp [State.act]

/-! ## Records replaced -/

/-- A zone replaced changes the zones. -/
theorem keeps_setZone (s : State) (z : Nat) (r : Option ZoneRecord) : Keeps [.zones] s (s.setZone z r) := by
  refine keeps_of_frame ?_ ?_ ?_ ?_ ?_ ?_ _ ?_ ?_ ?_ ?_ ?_ ?_ <;> simp

/-- A token replaced changes the tokens. -/
theorem keeps_setToken (s : State) (n : Nat) (r : Token) : Keeps [.tokens] s (s.setToken n r) := by
  refine keeps_of_frame ?_ ?_ ?_ ?_ ?_ ?_ _ ?_ ?_ ?_ ?_ ?_ ?_ <;> simp

/-- A timer replaced by one of the same settings changes no block. -/
theorem keeps_setTimer_run (bs : List Block) (s : State) (n : Nat) (r : Option Armed)
    (h : r.map Armed.settings = (s.timer n).map Armed.settings) : Keeps bs s (s.setTimer n r) := by
  refine keeps_of_frame ?_ ?_ ?_ ?_ ?_ ?_ _ ?_ ?_ ?_ ?_ ?_ ?_ <;> try simp
  intro _ k
  rw [State.timer_setTimer]
  split
  · rename_i hk
    rw [hk, h]
  · rfl

/-- A timer replaced changes the timers' settings. -/
theorem keeps_setTimer (s : State) (n : Nat) (r : Option Armed) : Keeps [.timerSettings] s (s.setTimer n r) := by
  refine keeps_of_frame ?_ ?_ ?_ ?_ ?_ ?_ _ ?_ ?_ ?_ ?_ ?_ ?_ <;> simp

/-- A change of timers that leaves their settings changes no block. -/
theorem keeps_mapTimers_run (bs : List Block) (s : State) (f : Armed → Armed) (h : ∀ a, (f a).settings = a.settings) :
    Keeps bs s (s.mapTimers f) := by
  refine keeps_of_frame ?_ ?_ ?_ ?_ ?_ ?_ _ ?_ ?_ ?_ ?_ ?_ ?_ <;> try simp
  intro _ k
  congr 1
  funext a
  exact h a

/-- A change of timers changes the timers' settings. -/
theorem keeps_mapTimers (s : State) (f : Armed → Armed) : Keeps [.timerSettings] s (s.mapTimers f) := by
  refine keeps_of_frame ?_ ?_ ?_ ?_ ?_ ?_ _ ?_ ?_ ?_ ?_ ?_ ?_ <;> simp

/-- A change of a session's exchange state changes the exchange. -/
theorem keeps_mapMessages (s : State) (p : Port) (f : MessageSession → MessageSession) :
    Keeps [.exchange] s (s.mapMessages p f) := by
  refine keeps_of_frame ?_ ?_ ?_ ?_ ?_ ?_ _ ?_ ?_ ?_ ?_ ?_ ?_ <;> simp

/-- An append changes the exchange. -/
theorem keeps_appendEntry (s : State) (p : Port) (u : Bool) (e : Entry) : Keeps [.exchange] s (s.appendEntry p u e) := by
  refine keeps_of_frame ?_ ?_ ?_ ?_ ?_ ?_ _ ?_ ?_ ?_ ?_ ?_ ?_ <;> simp

/-- A drain changes the exchange. -/
theorem keeps_drain (s : State) (p : Port) (u n : Bool) : Keeps [.exchange] s (s.drain p u n).1 := by
  refine keeps_of_frame ?_ ?_ ?_ ?_ ?_ ?_ _ ?_ ?_ ?_ ?_ ?_ ?_ <;> simp

/-- A release changes the exchange. -/
theorem keeps_releaseBuffer (s : State) (b : Nat) : Keeps [.exchange] s (s.releaseBuffer b) := by
  refine keeps_of_frame ?_ ?_ ?_ ?_ ?_ ?_ _ ?_ ?_ ?_ ?_ ?_ ?_ <;> simp

/-- Queues replaced change the exchange. -/
theorem keeps_setQueues (s : State) (p : Port) (u n : List Entry) : Keeps [.exchange] s (s.setQueues p u n) := by
  refine keeps_of_frame ?_ ?_ ?_ ?_ ?_ ?_ _ ?_ ?_ ?_ ?_ ?_ ?_ <;> simp

/-- A port's record replaced. -/
theorem keeps_setPort (s : State) (p : Port) (r : PortRecord) : Keeps [.port p] s (s.setPort p r) := by
  intro b hb
  cases b <;> simp_all [Block.same]

/-- A port's link replaced. -/
theorem keeps_setLink (s : State) (p : Port) (l : Link) : Keeps [.link p] s (s.setLink p l) := by
  intro b hb
  cases b <;> simp_all [Block.same]

/-- A reply placed. -/
theorem keeps_replied (s : State) (p : Port) (f : List Byte) : Keeps [.link p] s (s.replied p f) := keeps_setLink s p _

/-- R25: the monitor's part of an arrival. -/
theorem keeps_qualify (s : State) (p : Port) (n : Half) : Keeps [.port p] s (s.qualify p n) := by
  unfold State.qualify
  split
  · split
    · exact keeps_setPort s p _
    · exact Keeps.refl _ s
  · split
    · exact ((keeps_setPort s p _).trans (keeps_writeSystem _ _ _ (monitorPoints_inSystem _ _))).trans
        (keeps_raisePeer _ _ _)
    · exact Keeps.refl _ s
  · exact Keeps.refl _ s
  · exact Keeps.refl _ s

/-! ## The end and the beginning of a session -/

/-- R34: the blocks that the end of a session changes; without a loss no point of the definable area. -/
theorem keeps_endSession (bs : List Block) (s : State) (ended : SessionRef) (cause : EndCause)
    (monitor : List (List Action)) (hb : ∀ b ∈ endBlocks, b ∈ bs) (hc : cause.isLoss = true → .definablePoints ∈ bs)
    (hm : ∀ a ∈ monitor.flatten, ∀ t, Keeps bs t (t.act a)) : Keeps bs s (s.endSession ended cause monitor) := by
  have ht : ∀ t : State, ∀ b, Keeps bs t (t.tokensAtEnd ended b) := by
    intro t b
    refine Keeps.mono (bs := [.tokens]) ?_ (by simpa using hb .tokens (by simp [endBlocks]))
    refine keeps_of_frame ?_ ?_ ?_ ?_ ?_ ?_ _ ?_ ?_ ?_ ?_ ?_ ?_ <;> simp
  have he : ∀ t : State, Keeps bs t (t.messagesAtEnd ended.port) := by
    intro t
    refine Keeps.mono (bs := [.exchange]) ?_ (by simpa using hb .exchange (by simp [endBlocks]))
    refine keeps_of_frame ?_ ?_ ?_ ?_ ?_ ?_ _ ?_ ?_ ?_ ?_ ?_ ?_ <;> simp
  have hd : Keeps bs s ((s.dropAttention ended.port).mapTimers (Armed.detach ended)) :=
    (keeps_dropAttention bs s ended.port).trans
      ((keeps_mapTimers _ _).mono (by simpa using hb .timerSettings (by simp [endBlocks])))
  unfold State.endSession
  extract_lets s1 ms s2 s3 zone
  have h3 : Keeps bs s s3 := (Keeps.trans (hd : Keeps bs s s1) (ht s1 _)).trans (he s2)
  refine (h3.trans (keeps_freeDraws bs s3 zone.2)).trans ?_
  refine keeps_actFreely bs _ _ fun a ha t => ?_
  simp only [List.flatten_append, List.flatten_cons, List.flatten_nil, List.append_nil, List.mem_append] at ha
  rcases ha with ha | ha | ha | ha
  · exact hm a ha t
  · rcases (State.mem_zoneActions s1 ms _ a).mp ha with ⟨m, hmem, hp, rfl⟩ | ha | ha | ⟨m, -, -, rfl⟩
    · have hloss : cause.isLoss = true := by
        obtain ⟨z, -, hmz⟩ := List.mem_filterMap.mp hmem
        unfold State.zoneAtEnd at hmz
        split at hmz
        · exact absurd hmz (by simp)
        · split at hmz
          · split at hmz
            · obtain rfl := Option.some.inj hmz
              unfold State.ownedAtEnd at hp
              cases cause with
              | leave =>
                exfalso
                split at hp <;> simp [EndCause.isLoss] at hp
              | lost => rfl
              | replaced => rfl
            · exact absurd hmz (by simp)
          · split at hmz
            · obtain rfl := Option.some.inj hmz
              exact absurd hp (by simp [standbyAtEnd])
            · exact absurd hmz (by simp)
          · exact absurd hmz (by simp)
          · exact absurd hmz (by simp)
      refine (keeps_writePolicy t m.zone).mono fun b hb' => ?_
      simp only [List.mem_cons, List.not_mem_nil, or_false] at hb'
      rcases hb' with rfl | rfl
      · exact hb .zones (by simp [endBlocks])
      · exact hc hloss
    · obtain rfl := mem_moveAction _ _ ha
      exact (keeps_act_move t _).mono (by simpa using hb .zones (by simp [endBlocks]))
    · obtain rfl := mem_systemAction _ _ ha
      exact keeps_act_system bs t _ (zonePoints_inSystem _ _)
    · exact (keeps_act_raise t _).mono (by simpa using hb .faults (by simp [endBlocks]))
  · obtain rfl := mem_systemAction _ _ ha
    exact keeps_act_system bs t _ (tokenPoints_inSystem _ _)
  · obtain rfl := mem_systemAction _ _ ha
    exact keeps_act_system bs t _ (exchangePoints_inSystem _ _)

/-- R28: the blocks that the beginning of a session changes. -/
theorem keeps_beginSession (s : State) (p : Port) (time : Byte) :
    Keeps [.sessionCounter, .port p, .exchange] s (s.beginSession p time) := by
  unfold State.beginSession State.writeMonitor
  dsimp only
  refine Keeps.trans (Keeps.trans ?_ (keeps_writeSystem _ _ _ (monitorPoints_inSystem _ _))) (keeps_raisePeer _ _ _)
  intro b hb
  cases b <;> simp_all [Block.same, State.zone, State.bit, State.word, State.token, State.timer]

end Sys2Proof.Machine
end

