-- ==== Sys2Proof/Laws/Services.lean ====
section
/-!
SUPPORT. Which blocks each service can change: one lemma for each service.
-/

namespace Sys2Proof.Machine

/-- A fenced service changes what the service changes. -/
theorem keeps_fenced (bs : List Block) (p : Port) (n : Half) (serve : SessionRef → State → State × Answer) (s : State)
    (h : ∀ who, Keeps bs s (serve who s).1) : Keeps bs s (fenced p n serve s).1 := by
  unfold fenced
  split
  · exact Keeps.refl bs s
  · split
    · exact h _
    · exact Keeps.refl bs s

/-! ## The link and the session monitor -/

/-- IDENTIFY may clear the link's counts. -/
theorem keeps_serveIdentify (p : Port) (body : List Byte) (s : State) : Keeps [.link p] s (serveIdentify p body s).1 := by
  unfold serveIdentify
  split
  · exact Keeps.refl _ s
  · split
    · exact keeps_setLink s p _
    · exact Keeps.refl _ s

/-- JOIN may end a session and begins one. -/
theorem keeps_serveJoin (p : Port) (body : List Byte) (s : State) :
    Keeps (.port p :: requestReaches .join) s (serveJoin p body s).1 := by
  unfold serveJoin
  split
  · split
    · refine Keeps.trans (t := s.replaceSession p) ?_ ((keeps_beginSession _ p _).mono (by simp [requestReaches, endBlocks]))
      unfold State.replaceSession
      split
      · refine ((keeps_setPort s p .offline).mono (by simp)).trans ?_
        refine keeps_endSession _ _ _ _ _ (by simp [requestReaches, endBlocks]) (by simp [requestReaches]) ?_
        intro a ha t
        simp only [List.flatten_cons, List.flatten_nil, List.append_nil, List.mem_singleton] at ha
        subst ha
        exact (keeps_act_raise t _).mono (by simp [requestReaches, endBlocks])
      · exact Keeps.refl _ s
    · exact Keeps.refl _ s
  · exact Keeps.refl _ s

/-- LEAVE ends a session without a loss. -/
theorem keeps_serveLeave (who : SessionRef) (body : List Byte) (s : State) :
    Keeps (.port who.port :: requestReaches .leave) s (serveLeave who body s).1 := by
  unfold serveLeave
  split
  · refine Keeps.trans (Keeps.trans ((keeps_setPort s who.port .offline).mono (by simp)) ?_) (keeps_raisePeer _ _ _)
    refine keeps_endSession _ _ _ _ _ (by simp [requestReaches, endBlocks]) (by simp [EndCause.isLoss]) ?_
    intro a ha t
    simp only [List.flatten_cons, List.flatten_nil, List.append_nil, List.mem_singleton] at ha
    subst ha
    exact keeps_act_system _ t _ (monitorPoints_inSystem _ _)
  · exact Keeps.refl _ s

/-- PING changes nothing. -/
theorem servePing_fst (who : SessionRef) (body : List Byte) (s : State) : (servePing who body s).1 = s := by
  unfold servePing
  split <;> rfl

/-! ## The zone table and the image store -/

/-- DEFINE_ZONE changes zones and the timers' source-undefined flags. -/
theorem keeps_serveDefineZone (who : SessionRef) (body : List Byte) (s : State) :
    Keeps [.zones, .timerSettings] s (serveDefineZone who body s).1 := by
  unfold serveDefineZone
  split
  · extract_lets bitFirst bitCount wordFirst wordCount
    split
    · exact Keeps.refl _ s
    · repeat' split
      all_goals first
        | exact Keeps.refl _ s
        | exact (((keeps_setZone s _ _).mono (by simp)).trans ((keeps_mapTimers _ _).mono (by simp))).trans
            ((keeps_writeSystem _ _ _ (zonePoints_inSystem _ _)).trans (keeps_raise _ _ _ _ _))
  · exact Keeps.refl _ s

/-- RETIRE_ZONE changes zones, points of the definable area and the timers' source-undefined flags. -/
theorem keeps_serveRetireZone (who : SessionRef) (body : List Byte) (s : State) :
    Keeps [.zones, .definablePoints, .timerSettings] s (serveRetireZone who body s).1 := by
  unfold serveRetireZone
  repeat' split
  all_goals first
    | exact Keeps.refl _ s
    | skip
  unfold State.retireZone
  extract_lets t
  have ht : Keeps [.zones, .definablePoints, .timerSettings] s t :=
    (((keeps_setZone s _ _).mono (by simp)).trans ((keeps_mapTimers _ _).mono (by simp))).trans (keeps_mapAttention _ _ _)
  refine ht.trans (keeps_actFreely _ _ _ fun a ha u => ?_)
  simp only [List.flatten_cons, List.flatten_nil, List.append_nil, List.mem_append, List.mem_singleton] at ha
  rcases ha with rfl | ha
  · exact (keeps_writeClearing u _).mono (by simp)
  · obtain rfl := mem_systemAction _ _ ha
    exact keeps_act_system _ u _ (zonePoints_inSystem _ _)

/-- SET_ZONE_POLICY changes zones. -/
theorem keeps_serveSetZonePolicy (who : SessionRef) (body : List Byte) (s : State) :
    Keeps [.zones] s (serveSetZonePolicy who body s).1 := by
  unfold serveSetZonePolicy
  repeat' split
  all_goals first
    | exact Keeps.refl _ s
    | skip
  extract_lets rights enters
  repeat' split
  all_goals first
    | exact Keeps.refl _ s
    | exact keeps_setZone s _ _

/-- LOAD_SAFE_IMAGE changes zones. -/
theorem keeps_serveLoadSafeImage (who : SessionRef) (body : List Byte) (s : State) :
    Keeps [.zones] s (serveLoadSafeImage who body s).1 := by
  unfold serveLoadSafeImage
  repeat' split
  all_goals first
    | exact Keeps.refl _ s
    | exact keeps_setZone s _ _

/-- QUERY_ZONE changes nothing. -/
theorem serveQueryZone_fst (who : SessionRef) (body : List Byte) (s : State) : (serveQueryZone who body s).1 = s := by
  unfold serveQueryZone
  repeat' split
  all_goals rfl

/-- PUBLISH changes zones and points of the definable area. -/
theorem keeps_servePublish (who : SessionRef) (body : List Byte) (s : State) :
    Keeps [.zones, .definablePoints] s (servePublish who body s).1 := by
  unfold servePublish
  repeat' split
  all_goals first
    | exact Keeps.refl _ s
    | exact keeps_writeZones s _ _

/-- SNAPSHOT changes nothing. -/
theorem serveSnapshot_fst (who : SessionRef) (body : List Byte) (s : State) : (serveSnapshot who body s).1 = s := by
  unfold serveSnapshot
  repeat' split
  all_goals first
    | rfl
    | (extract_lets payload; split <;> rfl)

/-- READ_POINTS changes nothing. -/
theorem serveReadPoints_fst (who : SessionRef) (body : List Byte) (s : State) : (serveReadPoints who body s).1 = s := by
  unfold serveReadPoints
  split
  · rfl
  · extract_lets refs
    split <;> rfl

/-! ## Ownership -/

/-- A zone passed to a session changes zones. -/
theorem keeps_giveZone (s : State) (z : Nat) (r : ZoneRecord) (owner : SessionRef) :
    Keeps [.zones] s (s.giveZone z r owner) := by
  unfold State.giveZone State.changeZone
  exact (((keeps_setZone s z _).trans (keeps_fireOwnership _ _ _)).trans
    (keeps_writeSystem _ _ _ (zonePoints_inSystem _ _))).trans (keeps_raise _ _ _ _ _)

/-- CLAIM changes zones. -/
theorem keeps_serveClaim (who : SessionRef) (body : List Byte) (s : State) : Keeps [.zones] s (serveClaim who body s).1 := by
  unfold serveClaim State.decideClaim
  repeat' split
  all_goals first
    | exact Keeps.refl _ s
    | exact keeps_giveZone s _ _ _

/-- RELEASE changes zones. -/
theorem keeps_serveRelease (who : SessionRef) (body : List Byte) (s : State) :
    Keeps [.zones] s (serveRelease who body s).1 := by
  unfold serveRelease
  repeat' split
  all_goals first
    | exact Keeps.refl _ s
    | skip
  unfold State.releaseZone State.changeZone
  exact (((keeps_setZone s _ _).trans (keeps_fireOwnership _ _ _)).trans
    (keeps_writeSystem _ _ _ (zonePoints_inSystem _ _))).trans (keeps_raiseFor _ _ _ _ _)

/-- HAND_OVER changes zones. -/
theorem keeps_serveHandOver (who : SessionRef) (body : List Byte) (s : State) :
    Keeps [.zones] s (serveHandOver who body s).1 := by
  unfold serveHandOver State.decideHandOver
  repeat' split
  all_goals first
    | exact Keeps.refl _ s
    | exact keeps_giveZone s _ _ _

/-- A takeover deadline changes zones and the fault list. -/
theorem keeps_takeover (s : State) (z : Nat) (r : ZoneRecord) : Keeps [.zones, .faults] s (s.takeover z r) := by
  unfold State.takeover
  split
  · exact (keeps_giveZone s z r _).mono (by simp)
  · unfold State.orphanZone
    extract_lets t
    refine ((((keeps_setZone s z _).mono (by simp)).trans (keeps_fireOwnership _ _ _)).trans
      (keeps_raiseFor _ _ _ _ _)).trans (keeps_actFreely _ _ _ fun a ha u => ?_)
    simp only [List.flatten_cons, List.flatten_nil, List.append_nil, List.mem_append, List.mem_singleton] at ha
    rcases ha with ha | rfl
    · obtain rfl := mem_systemAction _ _ ha
      exact keeps_act_system _ u _ (zonePoints_inSystem _ _)
    · exact (keeps_act_raise u _).mono (by simp)

/-! ## Tokens -/

/-- A token's record changed changes tokens. -/
theorem keeps_changeToken (s : State) (t : Nat) (k : Token) : Keeps [.tokens] s (s.changeToken t k) := by
  unfold State.changeToken
  exact (keeps_setToken s t k).trans (keeps_writeSystem _ _ _ (tokenPoints_inSystem _ _))

/-- ACQUIRE changes tokens. -/
theorem keeps_serveAcquire (who : SessionRef) (body : List Byte) (s : State) :
    Keeps [.tokens] s (serveAcquire who body s).1 := by
  unfold serveAcquire
  repeat' split
  all_goals first
    | exact Keeps.refl _ s
    | skip
  unfold State.decideAcquire
  extract_lets k
  repeat' split
  all_goals first
    | exact Keeps.refl _ s
    | exact keeps_changeToken s _ _
    | exact keeps_setToken s _ _

/-- RELEASE_TOKEN changes tokens. -/
theorem keeps_serveReleaseToken (who : SessionRef) (body : List Byte) (s : State) :
    Keeps [.tokens] s (serveReleaseToken who body s).1 := by
  unfold serveReleaseToken
  repeat' split
  all_goals first
    | exact Keeps.refl _ s
    | exact (keeps_changeToken s _ _).trans (keeps_raiseGrant _ _ _ _ _)

/-- CANCEL_WAIT changes tokens. -/
theorem keeps_serveCancelWait (who : SessionRef) (body : List Byte) (s : State) :
    Keeps [.tokens] s (serveCancelWait who body s).1 := by
  unfold serveCancelWait
  repeat' split
  all_goals first
    | exact Keeps.refl _ s
    | exact keeps_setToken s _ _

/-- SET_TOKEN_LIMIT changes tokens. -/
theorem keeps_serveSetTokenLimit (who : SessionRef) (body : List Byte) (s : State) :
    Keeps [.tokens] s (serveSetTokenLimit who body s).1 := by
  unfold serveSetTokenLimit
  repeat' split
  all_goals first
    | exact Keeps.refl _ s
    | exact keeps_setToken s _ _

/-- QUERY_TOKENS changes nothing. -/
theorem serveQueryTokens_fst (who : SessionRef) (body : List Byte) (s : State) : (serveQueryTokens who body s).1 = s := by
  unfold serveQueryTokens
  split <;> rfl

/-- A revocation changes tokens and the fault list. -/
theorem keeps_revoke (s : State) (n : Nat) (k : Token) (holder : SessionRef) :
    Keeps [.tokens, .faults] s (s.revoke n k holder) := by
  unfold State.revoke
  extract_lets u
  refine ((((keeps_setToken s n _).mono (by simp)).trans (keeps_raise _ _ _ _ _)).trans
    (keeps_raiseGrant _ _ _ _ _)).trans (keeps_actFreely _ _ _ fun a ha t => ?_)
  simp only [List.flatten_cons, List.flatten_nil, List.append_nil, List.mem_append, List.mem_singleton] at ha
  rcases ha with ha | rfl
  · obtain rfl := mem_systemAction _ _ ha
    exact keeps_act_system _ t _ (tokenPoints_inSystem _ _)
  · exact (keeps_act_raise t _).mono (by simp)

/-! ## Timers -/

/-- A timer replaced with its points changes the timers' settings. -/
theorem keeps_changeTimer (s : State) (n : Nat) (t : Option Armed) : Keeps [.timerSettings] s (s.changeTimer n t) :=
  (keeps_setTimer s n t).trans (keeps_writeSystem _ _ _ (timerPoints_inSystem _ _))

/-- An evaluation leaves the settings. -/
@[simp] theorem Armed.settings_evaluate (bits : Memory Bool) (c : Clock) (t : Armed) :
    (t.evaluate bits c).settings = t.settings := by
  unfold Armed.evaluate
  split
  · rfl
  · split
    · exact Armed.settings_rise c t
    · rfl

/-- SET_TIMER changes the timers' settings. -/
theorem keeps_serveSetTimer (who : SessionRef) (body : List Byte) (s : State) :
    Keeps [.timerSettings] s (serveSetTimer who body s).1 := by
  unfold serveSetTimer State.decideSetTimer State.startTimer
  repeat' split
  all_goals first
    | exact Keeps.refl _ s
    | exact keeps_changeTimer s _ _

/-- RESET_TIMER changes no block: the timer keeps its settings. -/
theorem keeps_serveResetTimer (bs : List Block) (who : SessionRef) (body : List Byte) (s : State) :
    Keeps bs s (serveResetTimer who body s).1 := by
  unfold serveResetTimer
  split
  · split
    · exact Keeps.refl _ s
    · split
      · exact Keeps.refl _ s
      · rename_i t ht
        split
        · exact Keeps.refl _ s
        · unfold State.startTimer State.changeTimer State.writeTimers
          refine (keeps_setTimer_run bs s _ _ ?_).trans (keeps_writeSystem _ _ _ (timerPoints_inSystem _ _))
          rw [ht, Option.map_some, Armed.settings_evaluate, Armed.settings_held, Option.map_some]
  · exact Keeps.refl _ s

/-- FREE_TIMER changes the timers' settings. -/
theorem keeps_serveFreeTimer (who : SessionRef) (body : List Byte) (s : State) :
    Keeps [.timerSettings] s (serveFreeTimer who body s).1 := by
  unfold serveFreeTimer
  repeat' split
  all_goals first
    | exact Keeps.refl _ s
    | exact keeps_changeTimer s _ _

/-- QUERY_TIMER changes nothing. -/
theorem serveQueryTimer_fst (who : SessionRef) (body : List Byte) (s : State) : (serveQueryTimer who body s).1 = s := by
  unfold serveQueryTimer
  repeat' split
  all_goals rfl

/-! ## Messages -/

/-- Appends to several queues change the exchange. -/
theorem keeps_appends (ps : List Port) (u : Bool) (e : Entry) (s : State) :
    Keeps [.exchange] s (ps.foldl (fun s q => s.appendEntry q u e) s) := by
  induction ps generalizing s with
  | nil => exact Keeps.refl _ s
  | cons p rest ih => exact (keeps_appendEntry s p u e).trans (ih _)

/-- The exchange's words written change no block. -/
theorem keeps_writeExchange (bs : List Block) (s t : State) : Keeps bs t (s.writeExchange t) :=
  keeps_writeSystem bs t _ (exchangePoints_inSystem s t)

/-- SEND changes the exchange. -/
theorem keeps_serveSend (who : SessionRef) (body : List Byte) (s : State) :
    Keeps [.exchange] s (serveSend who body s).1 := by
  unfold serveSend State.decideSend
  repeat' split
  all_goals first
    | exact Keeps.refl _ s
    | skip
  unfold State.post
  extract_lets ports number buffer exchange s1 s2 s3
  have h1 : Keeps [.exchange] s s1 := by
    intro b hb
    cases b <;> simp_all [Block.same, s1, State.setBuffer, State.zone, State.bit, State.word, State.token, State.timer]
  exact ((h1.trans (keeps_appends ports _ _ s1)).trans (keeps_mapMessages s2 _ _)).trans (keeps_writeExchange _ s s3)

/-- RECEIVE changes the exchange. -/
theorem keeps_receiveEntry (s : State) (p : Port) (e : Entry) (u n : List Entry) :
    Keeps [.exchange] s (s.receiveEntry p e u n).1 := by
  unfold State.receiveEntry
  extract_lets s1 s2
  have h1 : Keeps [.exchange] s s1 := (keeps_setQueues s p u n).trans (keeps_releaseBuffer _ _)
  have h2 : Keeps [.exchange] s s2 := by
    simp only [s2]
    split
    · exact h1.trans (keeps_mapMessages s1 _ _)
    · exact h1
  exact h2.trans (keeps_writeExchange _ s s2)

/-- RECEIVE changes the exchange. -/
theorem keeps_serveReceive (who : SessionRef) (body : List Byte) (s : State) :
    Keeps [.exchange] s (serveReceive who body s).1 := by
  unfold serveReceive
  repeat' split
  all_goals first
    | exact Keeps.refl _ s
    | exact keeps_receiveEntry s _ _ _ _

/-- FLUSH_QUEUE changes the exchange. -/
theorem keeps_serveFlushQueue (who : SessionRef) (body : List Byte) (s : State) :
    Keeps [.exchange] s (serveFlushQueue who body s).1 := by
  unfold serveFlushQueue
  repeat' split
  all_goals first
    | exact Keeps.refl _ s
    | skip
  unfold State.flush
  extract_lets r t
  have ht : Keeps [.exchange] s t := by
    simp only [t]
    split
    · exact (keeps_drain s _ _ _).trans (keeps_mapMessages _ _ _)
    · exact keeps_drain s _ _ _
  exact ht.trans (keeps_writeExchange _ s t)

/-- SET_COALESCE changes the exchange. -/
theorem keeps_serveSetCoalesce (who : SessionRef) (body : List Byte) (s : State) :
    Keeps [.exchange] s (serveSetCoalesce who body s).1 := by
  unfold serveSetCoalesce
  repeat' split
  all_goals first
    | exact Keeps.refl _ s
    | skip
  unfold State.recoalesce
  extract_lets t
  have ht : Keeps [.exchange] s t := keeps_mapMessages s _ _
  split
  · exact ht.trans (keeps_raise _ _ _ _ _)
  · split
    · exact ht.trans (keeps_mapMessages t _ _)
    · exact ht

/-- A coalesce deadline changes the exchange. -/
theorem keeps_coalesceExpires (s : State) (p : Port) : Keeps [.exchange] s (s.coalesceExpires p) := by
  unfold State.coalesceExpires
  split
  · exact keeps_mapMessages s _ _
  · exact (keeps_mapMessages s _ _).trans (keeps_raise _ _ _ _ _)

/-! ## Attention -/

/-- SET_WATCH changes no block. -/
theorem keeps_serveSetWatch (bs : List Block) (who : SessionRef) (body : List Byte) (s : State) :
    Keeps bs s (serveSetWatch who body s).1 := by
  unfold serveSetWatch
  repeat' split
  all_goals exact Keeps.refl _ s

/-- CLEAR_WATCH changes no block. -/
theorem keeps_serveClearWatch (bs : List Block) (who : SessionRef) (body : List Byte) (s : State) :
    Keeps bs s (serveClearWatch who body s).1 := by
  unfold serveClearWatch
  repeat' split
  all_goals exact Keeps.refl _ s

/-- READ_ATTENTION may move the coalesce timer. -/
theorem keeps_serveReadAttention (who : SessionRef) (body : List Byte) (s : State) :
    Keeps [.exchange] s (serveReadAttention who body s).1 := by
  unfold serveReadAttention
  split
  · extract_lets r
    unfold State.readAttention
    split
    · refine Keeps.trans ?_ (keeps_setRecord _ _ _ _)
      cases s.messageRead who.port
      · exact Keeps.refl _ s
      · exact keeps_mapMessages s _ _
      · exact keeps_mapMessages s _ _
    · exact keeps_setRecord _ s _ _
  · exact Keeps.refl _ s

/-- SET_ATTENTION_MASK changes no block. -/
theorem keeps_serveSetAttentionMask (bs : List Block) (who : SessionRef) (body : List Byte) (s : State) :
    Keeps bs s (serveSetAttentionMask who body s).1 := by
  unfold serveSetAttentionMask
  split
  · split
    · exact Keeps.refl _ s
    · exact keeps_setRecord _ s _ _
  · exact Keeps.refl _ s

/-! ## Faults -/

/-- RAISE_FAULT changes the fault list. -/
theorem keeps_serveRaiseFault (who : SessionRef) (body : List Byte) (s : State) :
    Keeps [.faults] s (serveRaiseFault who body s).1 := by
  unfold serveRaiseFault
  split
  · extract_lets n
    split
    · exact Keeps.refl _ s
    · unfold State.decideRaise
      extract_lets t
      split <;> exact keeps_raiseFault s _ _ _
  · exact Keeps.refl _ s

/-- The entries replaced, with their points, change the fault list. -/
theorem keeps_writeFaults (s : State) (fs : List FaultEntry) : Keeps [.faults] s (s.writeFaults { s with faults := fs }) := by
  refine Keeps.trans ?_ (keeps_writeSystem _ _ _ (faultPoints_inSystem _ _))
  intro b hb
  cases b <;> simp_all [Block.same, State.zone, State.bit, State.word, State.token, State.timer]

/-- CLEAR_FAULT changes the fault list. -/
theorem keeps_serveClearFault (who : SessionRef) (body : List Byte) (s : State) :
    Keeps [.faults] s (serveClearFault who body s).1 := by
  unfold serveClearFault
  split
  · extract_lets n
    repeat' split
    all_goals first
      | exact Keeps.refl _ s
      | exact (keeps_writeFaults s _).trans (keeps_raiseFaultAttention _ _)
  · exact Keeps.refl _ s

/-- ACK_FAULT changes the fault list. -/
theorem keeps_serveAckFault (who : SessionRef) (body : List Byte) (s : State) :
    Keeps [.faults] s (serveAckFault who body s).1 := by
  unfold serveAckFault
  split
  · extract_lets n
    repeat' split
    all_goals first
      | exact Keeps.refl _ s
      | exact keeps_writeFaults s _
  · exact Keeps.refl _ s

/-- READ_FAULTS changes nothing. -/
theorem serveReadFaults_fst (who : SessionRef) (body : List Byte) (s : State) : (serveReadFaults who body s).1 = s := by
  unfold serveReadFaults
  split <;> rfl

/-- Every service changes only the blocks that its kind reaches, the port's own record and link. -/
theorem keeps_serviceOf (k : Kind) (p : Port) (n : Half) (body : List Byte) (s : State) :
    Keeps (requestBlocks p ++ requestReaches k) s (serviceOf k p n body s).1 := by
  have hf : ∀ (serve : SessionRef → State → State × Answer) (bs : List Block),
      (∀ who s, who.port = p → Keeps bs s (serve who s).1) → Keeps bs s (fenced p n serve s).1 := by
    intro serve bs h
    unfold fenced
    split
    · exact Keeps.refl bs s
    · rename_i who hw
      split
      · refine h who s ?_
        unfold State.session at hw
        obtain ⟨m, -, rfl⟩ := Option.map_eq_some_iff.mp hw
        rfl
      · exact Keeps.refl bs s
  cases k
  case identify => exact (keeps_serveIdentify p body s).mono (by simp [requestBlocks])
  case join => exact (keeps_serveJoin p body s).mono (by simp [requestBlocks, requestReaches, endBlocks])
  all_goals refine hf _ _ fun who s hw => ?_
  case leave =>
    subst hw
    exact (keeps_serveLeave who body s).mono (by simp [requestBlocks, requestReaches, endBlocks])
  case ping => rw [servePing_fst]; exact Keeps.refl _ s
  case defineZone => exact (keeps_serveDefineZone who body s).mono (by simp [requestReaches])
  case retireZone => exact (keeps_serveRetireZone who body s).mono (by simp [requestReaches])
  case setZonePolicy => exact (keeps_serveSetZonePolicy who body s).mono (by simp [requestReaches])
  case loadSafeImage => exact (keeps_serveLoadSafeImage who body s).mono (by simp [requestReaches])
  case queryZone => rw [serveQueryZone_fst]; exact Keeps.refl _ s
  case publish => exact (keeps_servePublish who body s).mono (by simp [requestReaches])
  case snapshot => rw [serveSnapshot_fst]; exact Keeps.refl _ s
  case readPoints => rw [serveReadPoints_fst]; exact Keeps.refl _ s
  case claim => exact (keeps_serveClaim who body s).mono (by simp [requestReaches])
  case release => exact (keeps_serveRelease who body s).mono (by simp [requestReaches])
  case handOver => exact (keeps_serveHandOver who body s).mono (by simp [requestReaches])
  case acquire => exact (keeps_serveAcquire who body s).mono (by simp [requestReaches])
  case releaseToken => exact (keeps_serveReleaseToken who body s).mono (by simp [requestReaches])
  case cancelWait => exact (keeps_serveCancelWait who body s).mono (by simp [requestReaches])
  case setTokenLimit => exact (keeps_serveSetTokenLimit who body s).mono (by simp [requestReaches])
  case queryTokens => rw [serveQueryTokens_fst]; exact Keeps.refl _ s
  case setTimer => exact (keeps_serveSetTimer who body s).mono (by simp [requestReaches])
  case resetTimer => exact keeps_serveResetTimer _ who body s
  case freeTimer => exact (keeps_serveFreeTimer who body s).mono (by simp [requestReaches])
  case queryTimer => rw [serveQueryTimer_fst]; exact Keeps.refl _ s
  case send => exact (keeps_serveSend who body s).mono (by simp [requestReaches])
  case receive => exact (keeps_serveReceive who body s).mono (by simp [requestReaches])
  case flushQueue => exact (keeps_serveFlushQueue who body s).mono (by simp [requestReaches])
  case setCoalesce => exact (keeps_serveSetCoalesce who body s).mono (by simp [requestReaches])
  case setWatch => exact keeps_serveSetWatch _ who body s
  case clearWatch => exact keeps_serveClearWatch _ who body s
  case readAttention => exact (keeps_serveReadAttention who body s).mono (by simp [requestReaches])
  case setAttentionMask => exact keeps_serveSetAttentionMask _ who body s
  case raiseFault => exact (keeps_serveRaiseFault who body s).mono (by simp [requestReaches])
  case clearFault => exact (keeps_serveClearFault who body s).mono (by simp [requestReaches])
  case ackFault => exact (keeps_serveAckFault who body s).mono (by simp [requestReaches])
  case readFaults => rw [serveReadFaults_fst]; exact Keeps.refl _ s

end Sys2Proof.Machine
end

