-- ==== Sys2Proof/Laws/Shown.lean ====
section
/-!
SUPPORT. The points that a block writes after a change of its own state show that state again (R140, R173).
-/

namespace Sys2Proof.Machine

/-- R184: the place of a port. -/
theorem Port.index_lt (p : Port) : p.index < 4 := by cases p <;> decide

/-- A table that a list of pairs describes, overlaid with the pairs of a newer list that the old one does not hold, is
described by the newer list. -/
theorem shown_after {β : Type} [BEq β] [LawfulBEq β] (before after : List (Nat × β)) (f : Nat → β)
    (hn : (after.map Prod.fst).Nodup) (hb : ∀ e ∈ before, f e.1 = e.2) (e : Nat × β) (he : e ∈ after) :
    (((after.filter fun w => !before.contains w).reverse.find? fun b => b.1 == e.1).map Prod.snd).getD (f e.1) = e.2 := by
  cases hf : (after.filter fun w => !before.contains w).reverse.find? fun b => b.1 == e.1 with
  | none =>
    rw [Option.map_none, Option.getD_none]
    refine hb e (by_contra fun hne => ?_)
    have := List.find?_eq_none.mp hf e (by simpa using ⟨he, hne⟩)
    simp at this
  | some x =>
    have hx := List.mem_of_find?_eq_some hf
    simp only [List.mem_reverse, List.mem_filter] at hx
    have h1 : x.1 = e.1 := by simpa using List.find?_some hf
    rw [Option.map_some, Option.getD_some, List.inj_on_of_nodup_map hn hx.1 he h1]

/-- R140: the exchange's write of a change shows the exchange. -/
theorem State.showsExchange_writeExchange {s t : State} (h : s.showsExchange) (hw : ∀ i, 54 ≤ i → i ≤ 58 → t.word i = s.word i) :
    (t.writeSystem (exchangePoints s t)).showsExchange := by
  have hb : ∀ e ∈ exchangeWords s.exchange, t.word e.1 = e.2 := by
    intro e he
    simp only [exchangeWords, List.mem_cons, List.mem_map] at he
    obtain rfl | ⟨p, _, rfl⟩ := he
    · rw [hw 54 (by omega) (by omega)]
      exact h.1
    · rw [hw _ (by omega) (by have := Port.index_lt p; dsimp only; omega)]
      exact h.2 p
  have hn : ((exchangeWords t.exchange).map Prod.fst).Nodup := by
    simp [exchangeWords, Port.all, Port.index]
  have key : ∀ e ∈ exchangeWords t.exchange, 32 ≤ e.1 → (t.writeSystem (exchangePoints s t)).word e.1 = e.2 := by
    intro e he h32
    rw [State.writeSystem_word _ _ _ h32, State.word_store]
    exact shown_after (exchangeWords s.exchange) (exchangeWords t.exchange) t.word hn hb e he
  refine ⟨?_, fun p => ?_⟩
  · rw [State.writeSystem_exchange]
    exact key (54, natHalf t.exchange.free.length) List.mem_cons_self (by dsimp only; omega)
  · rw [State.writeSystem_exchange]
    refine key (55 + p.index, _) ?_ (by dsimp only; omega)
    simp only [exchangeWords, List.mem_cons, List.mem_map]
    exact Or.inr ⟨p, by cases p <;> simp [Port.all], rfl⟩

/-- R173: the fault list's write of a change shows the list. -/
theorem State.showsFaults_writeFaults {s t : State} (h : s.showsFaults)
    (hb : ∀ i, 60 ≤ i → i ≤ 63 → t.bit i = s.bit i) (hw : ∀ i, 52 ≤ i → i ≤ 53 → t.word i = s.word i) :
    (s.writeFaults t).showsFaults := by
  have hbs : ∀ e ∈ faultBits s.faults, t.bit e.1 = e.2 := by
    intro e he
    simp only [faultBits, List.mem_cons, List.not_mem_nil, or_false] at he
    obtain rfl | rfl | rfl | rfl := he <;> rw [hb _ (by omega) (by omega)]
    · exact h.1.1
    · exact h.1.2.1
    · exact h.1.2.2.1
    · exact h.1.2.2.2
  have hws : ∀ e ∈ faultWords s, t.word e.1 = e.2 := by
    intro e he
    simp only [faultWords, List.mem_cons, List.not_mem_nil, or_false] at he
    obtain rfl | rfl := he <;> rw [hw _ (by omega) (by omega)]
    · exact h.2.1
    · exact h.2.2
  have kb : ∀ e ∈ faultBits t.faults, 32 ≤ e.1 → (s.writeFaults t).bit e.1 = e.2 := by
    intro e he h32
    unfold State.writeFaults
    rw [State.writeSystem_bit _ _ _ h32, State.bit_store]
    exact shown_after (faultBits s.faults) (faultBits t.faults) t.bit (by simp [faultBits]) hbs e he
  have kw : ∀ e ∈ faultWords t, 32 ≤ e.1 → (s.writeFaults t).word e.1 = e.2 := by
    intro e he h32
    unfold State.writeFaults
    rw [State.writeSystem_word _ _ _ h32, State.word_store]
    exact shown_after (faultWords s) (faultWords t) t.word (by simp [faultWords]) hws e he
  have hf : (s.writeFaults t).faults = t.faults := State.writeSystem_faults _ _
  have ho : (s.writeFaults t).overflow = t.overflow := State.writeSystem_overflow _ _
  unfold State.showsFaults
  rw [hf, ho]
  refine ⟨⟨?_, ?_, ?_, ?_⟩, ?_, ?_⟩
  · exact kb (60, !t.faults.isEmpty) (by simp [faultBits]) (by dsimp only; omega)
  · exact kb (61, t.faults.any fun e => e.acknowledged == 0) (by simp [faultBits]) (by dsimp only; omega)
  · exact kb (62, decide (Config.faultEntries ≤ t.faults.length)) (by simp [faultBits]) (by dsimp only; omega)
  · exact kb (63, t.faults.any FaultEntry.firstOut) (by simp [faultBits]) (by dsimp only; omega)
  · exact kw (52, natHalf t.faults.length) (by simp [faultWords]) (by dsimp only; omega)
  · exact kw (53, t.overflow) (by simp [faultWords]) (by dsimp only; omega)

/-- The law speaks of four bits, two words and the list alone. -/
theorem State.showsFaults_congr {s t : State} (h : s.showsFaults) (hb : ∀ i, 60 ≤ i → i ≤ 63 → t.bit i = s.bit i)
    (hw : ∀ i, 52 ≤ i → i ≤ 53 → t.word i = s.word i) (hf : t.faults = s.faults) (ho : t.overflow = s.overflow) :
    t.showsFaults := by
  unfold State.showsFaults at h ⊢
  rw [hb 60 (by omega) (by omega), hb 61 (by omega) (by omega), hb 62 (by omega) (by omega), hb 63 (by omega) (by omega),
    hw 52 (by omega) (by omega), hw 53 (by omega) (by omega), hf, ho]
  exact h

/-- The law speaks of five words and the exchange alone. -/
theorem State.showsExchange_congr {s t : State} (h : s.showsExchange) (hw : ∀ i, 54 ≤ i → i ≤ 58 → t.word i = s.word i)
    (he : t.exchange = s.exchange) : t.showsExchange := by
  unfold State.showsExchange at h ⊢
  rw [he, hw 54 (by omega) (by omega)]
  exact ⟨h.1, fun p => by rw [hw _ (by omega) (by have := Port.index_lt p; omega)]; exact h.2 p⟩

/-- R173: a raise keeps the law, whatever it does. -/
theorem State.showsFaults_raiseFault {s : State} (h : s.showsFaults) (n : Half) (o : Origin) (r : Half) :
    (s.raiseFault n o r).showsFaults := by
  have hb : ∀ i, (s.enterFault n o r).bit i = s.bit i := fun i => by rw [State.enterFault_frame]; rfl
  have hw : ∀ i, (s.enterFault n o r).word i = s.word i := fun i => by rw [State.enterFault_frame]; rfl
  have key := State.showsFaults_writeFaults (t := s.enterFault n o r) h (fun i _ _ => hb i) fun i _ _ => hw i
  unfold State.raiseFault
  dsimp only
  split
  · exact key
  all_goals exact State.showsFaults_congr key (by simp) (by simp) (by simp) (by simp)

end Sys2Proof.Machine
end

