-- ==== Sys2Proof/Laws/Ends.lean ====
section
/-!
SUPPORT. The zone records after a session end, whatever order its write events are taken in (R88 to R92; entry 5).
-/

namespace Sys2Proof.Machine

/-- R88: a policy writes points exactly where it is not HOLD. -/
theorem ZoneRecord.policyPoints_isSome (r : ZoneRecord) : r.policyPoints.isSome = (r.policy != .hold) := by
  unfold ZoneRecord.policyPoints
  cases r.policy with
  | hold => rfl
  | clear => rfl
  | substitute g => dsimp only; split <;> rfl

/-- R88: the record of a policy applied, by whether it writes. -/
theorem ZoneRecord.policyApplied_eq (c : Clock) (e : Byte) (r : ZoneRecord) :
    r.policyApplied c e = if r.policyPoints.isSome then r.counted c e else r := by
  rw [ZoneRecord.policyPoints_isSome]
  unfold ZoneRecord.policyApplied
  obtain ⟨st, bf, bc, wf, wc, sb, dl, pol, rt, gen, ten, lt, le⟩ := r
  cases pol <;> rfl

/-- R71, R88: the zones after a loss-policy write. -/
theorem State.writePolicy_record (s : State) (z i : Nat) :
    (s.writePolicy z).zone i = if i = z then (s.zone i).map (ZoneRecord.policyApplied s.clock s.epoch) else s.zone i := by
  rw [State.writePolicy_zone]
  by_cases hi : i = z
  · subst hi
    cases h : s.zone i with
    | none => simp
    | some r =>
      simp only [Option.bind_some, Option.map_some, true_and, if_true, ZoneRecord.policyApplied_eq]
      split <;> rfl
  · simp [hi]

/-- R88 to R91: what an action does to the record of zone `z`. -/
def Action.onZone (z : Nat) (c : Clock) (e : Byte) (o : Option ZoneRecord) : Action → Option ZoneRecord
  | .policy k => if z = k then o.map (ZoneRecord.policyApplied c e) else o
  | .move ms => ms.foldl (fun o m => if z = m.zone then o.map m.apply else o) o
  | _ => o

/-- The records of moves put in place, zone by zone. -/
theorem State.zone_putMoves_fold (s : State) (ms : List ZoneMove) (z : Nat) :
    (s.putMoves ms).zone z = ms.foldl (fun o m => if z = m.zone then o.map m.apply else o) (s.zone z) := by
  unfold State.putMoves
  induction ms generalizing s with
  | nil => rfl
  | cons m rest ih =>
    rw [List.foldl_cons, List.foldl_cons, ih, State.zone_setZone]
    split <;> simp_all

/-- R88 to R91: one action, zone by zone. -/
theorem State.act_record (s : State) (a : Action) (z : Nat) :
    (s.act a).zone z = a.onZone z s.clock s.epoch (s.zone z) := by
  cases a with
  | system w => exact State.writeSystem_zone s w z
  | policy k => exact State.writePolicy_record s k z
  | clearing w => exact State.writeClearing_zone s w z
  | raise n => exact State.raiseFault_zone s _ _ _ z
  | move ms => exact (State.takeMoves_zone s ms z).trans (State.zone_putMoves_fold s ms z)

/-- Several actions, zone by zone. -/
theorem State.actAll_record (s : State) (as : List Action) (z : Nat) :
    (s.actAll as).zone z = as.foldl (fun o a => a.onZone z s.clock s.epoch o) (s.zone z) := by
  unfold State.actAll
  induction as generalizing s with
  | nil => rfl
  | cons a rest ih =>
    rw [List.foldl_cons, List.foldl_cons, ih, State.act_record, State.act_clock, State.act_epoch]

/-- R88: a policy applied keeps what a move puts in place, and the other way round. -/
theorem ZoneMove.apply_policyApplied (m : ZoneMove) (c : Clock) (e : Byte) (r : ZoneRecord) :
    m.apply (r.policyApplied c e) = (m.apply r).policyApplied c e := by
  obtain ⟨st, bf, bc, wf, wc, sb, dl, pol, rt, gen, ten, lt, le⟩ := r
  cases pol <;> rfl

/-- R88: a policy and the moves of an event act on one record in either order. -/
theorem Action.onZone_comm (z : Nat) (c : Clock) (e : Byte) (ms : List ZoneMove) (o : Option ZoneRecord) :
    (ms.foldl (fun o m => if z = m.zone then o.map m.apply else o) (o.map (ZoneRecord.policyApplied c e))) =
      (ms.foldl (fun o m => if z = m.zone then o.map m.apply else o) o).map (ZoneRecord.policyApplied c e) := by
  induction ms generalizing o with
  | nil => rfl
  | cons m rest ih =>
    rw [List.foldl_cons, List.foldl_cons, ← ih]
    congr 1
    split
    · rw [Option.map_map, Option.map_map]
      congr 1
      funext r
      exact m.apply_policyApplied c e r
    · rfl

/-- The actions of one event, in whatever order they are taken, zone by zone: all its moves are one action. -/
theorem State.actFreely_record (s : State) (blocks : List (List Action)) (ms : List ZoneMove)
    (hms : ∀ ns, Action.move ns ∈ blocks.flatten → ns = ms) (z : Nat) :
    (s.actFreely blocks).zone z = blocks.flatten.foldl (fun o a => a.onZone z s.clock s.epoch o) (s.zone z) := by
  unfold State.actFreely
  dsimp only
  rw [State.actAll_record]
  refine List.Perm.foldl_eq' (riffleAll_perm s.freeDraws blocks) (fun a ha b hb o => ?_) _
  have ha' := (riffleAll_perm s.freeDraws blocks).mem_iff.mp ha
  have hb' := (riffleAll_perm s.freeDraws blocks).mem_iff.mp hb
  have hp : ∀ (k l : Nat), Action.onZone z s.clock s.epoch (Action.onZone z s.clock s.epoch o (.policy k)) (.policy l) =
      Action.onZone z s.clock s.epoch (Action.onZone z s.clock s.epoch o (.policy l)) (.policy k) := by
    intro k l
    simp only [Action.onZone]
    split <;> split <;> rfl
  have hm : ∀ (k : Nat) (ns : List ZoneMove),
      Action.onZone z s.clock s.epoch (Action.onZone z s.clock s.epoch o (.policy k)) (.move ns) =
        Action.onZone z s.clock s.epoch (Action.onZone z s.clock s.epoch o (.move ns)) (.policy k) := by
    intro k ns
    simp only [Action.onZone]
    split
    · exact Action.onZone_comm z s.clock s.epoch ns o
    · rfl
  cases a <;> cases b <;> first
    | rfl
    | exact hp _ _
    | exact hm _ _
    | exact (hm _ _).symm
    | (rw [hms _ ha', hms _ hb'])

/-- A session end's moves, folded on the record of one zone: its own move alone. -/
theorem foldl_moves (ms : List ZoneMove) (hms : (ms.map ZoneMove.zone).Nodup) (z : Nat) (o : Option ZoneRecord) :
    ms.foldl (fun o m => if z = m.zone then o.map m.apply else o) o =
      match ms.find? fun m => m.zone == z with
      | some m => o.map m.apply
      | none => o := by
  induction ms generalizing o with
  | nil => rfl
  | cons m rest ih =>
    obtain ⟨hm, hrest⟩ := List.nodup_cons.mp hms
    rw [List.foldl_cons, ih hrest, List.find?_cons]
    by_cases hz : m.zone = z
    · subst hz
      have hn : rest.find? (fun n => n.zone == m.zone) = none :=
        List.find?_eq_none.mpr fun n hn heq => hm (List.mem_map.mpr ⟨n, hn, by simpa using heq⟩)
      simp [hn]
    · have : (m.zone == z) = false := by simpa using hz
      rw [this]
      simp [Ne.symm hz]

/-- The policies of a session end, folded on the record of one zone: its own policy alone. -/
theorem foldl_policies (ms : List ZoneMove) (hms : (ms.map ZoneMove.zone).Nodup) (z : Nat) (c : Clock) (e : Byte)
    (o : Option ZoneRecord) :
    ((ms.filter ZoneMove.policy).map fun m : ZoneMove => Action.policy m.zone).foldl (fun o a => a.onZone z c e o) o =
      match ms.find? fun m => m.zone == z with
      | some m => if m.policy then o.map (ZoneRecord.policyApplied c e) else o
      | none => o := by
  induction ms generalizing o with
  | nil => rfl
  | cons m rest ih =>
    obtain ⟨hm, hrest⟩ := List.nodup_cons.mp hms
    rw [List.filter_cons, List.find?_cons]
    by_cases hz : m.zone = z
    · subst hz
      have hn : rest.find? (fun n => n.zone == m.zone) = none :=
        List.find?_eq_none.mpr fun n hn heq => hm (List.mem_map.mpr ⟨n, hn, by simpa using heq⟩)
      simp only [beq_self_eq_true]
      split
      · rw [List.map_cons, List.foldl_cons, ih hrest, hn]
        simp [Action.onZone]
      · rw [ih hrest, hn]
    · have hf : (m.zone == z) = false := by simpa using hz
      rw [hf]
      dsimp only
      rw [← ih hrest]
      split
      · rw [List.map_cons, List.foldl_cons]
        simp [Action.onZone, Ne.symm hz]
      · rfl

/-- Actions that touch no record. -/
theorem foldl_onZone_id (as : List Action) (z : Nat) (c : Clock) (e : Byte) (o : Option ZoneRecord)
    (h : ∀ a ∈ as, (∀ k, a ≠ .policy k) ∧ ∀ ms, a ≠ .move ms) : as.foldl (fun o a => a.onZone z c e o) o = o := by
  induction as with
  | nil => rfl
  | cons a rest ih =>
    rw [List.foldl_cons]
    have ha : a.onZone z c e o = o := by
      have := h a List.mem_cons_self
      cases a with
      | policy k => exact absurd rfl (this.1 k)
      | move ms => exact absurd rfl (this.2 ms)
      | _ => rfl
    rw [ha]
    exact ih fun b hb => h b (List.mem_cons_of_mem _ hb)

/-- R88 to R92: the zones after a session end, whatever order its write events are taken in. -/
theorem State.endSession_record (s : State) (ended : SessionRef) (cause : EndCause) (monitor : List (List Action))
    (hmon : ∀ a ∈ monitor.flatten, (∀ k, a ≠ .policy k) ∧ ∀ ms, a ≠ .move ms) (z : Nat) (h1 : 1 ≤ z) (h31 : z ≤ 31) :
    (s.endSession ended cause monitor).zone z =
      match s.zoneAtEnd ended cause z with
      | some m => (s.zone z).map fun r => m.apply (if m.policy then r.policyApplied s.clock s.epoch else r)
      | none => s.zone z := by
  unfold State.endSession
  extract_lets s1 ms s2 s3 zone
  have hz1 : s1.zone z = s.zone z := rfl
  have hms : ms = s.zoneMoves ended cause := rfl
  have hn : (ms.map ZoneMove.zone).Nodup := s1.zoneMoves_nodup ended cause
  have hfind : ms.find? (fun m => m.zone == z) = s.zoneAtEnd ended cause z := by
    rw [hms, State.find_zoneMoves, if_pos ((mem_zoneNumbers z).mpr ⟨h1, h31⟩)]
  have h3 : s3.zone z = s.zone z ∧ s3.clock = s.clock ∧ s3.epoch = s.epoch := by
    simp [s3, s2, s1]
  have hsys : ∀ w, ∀ a ∈ systemAction w, (∀ k, a ≠ .policy k) ∧ ∀ ns, a ≠ .move ns := by
    intro w a ha
    unfold systemAction at ha
    split at ha
    · cases ha
    · rw [List.mem_singleton] at ha
      subst ha
      exact ⟨fun _ => (nomatch ·), fun _ => (nomatch ·)⟩
  have hmove : ∀ ns, Action.move ns ∈ (monitor ++ [zone.1, systemAction (tokenPoints s1 s2),
      systemAction (exchangePoints s2 s3)]).flatten → ns = ms := by
    intro ns hmem
    simp only [List.flatten_append, List.flatten_cons, List.flatten_nil, List.append_nil, List.mem_append] at hmem
    rcases hmem with h | h | h | h
    · exact absurd rfl ((hmon _ h).2 ns)
    · rw [State.mem_zoneActions] at h
      rcases h with ⟨_, _, _, h⟩ | h | h | ⟨_, _, _, h⟩
      · cases h
      · unfold moveAction at h
        split at h
        · cases h
        · rw [List.mem_singleton] at h
          cases h
          rfl
      · exact absurd rfl ((hsys _ _ h).2 ns)
      · cases h
    · exact absurd rfl ((hsys _ _ h).2 ns)
    · exact absurd rfl ((hsys _ _ h).2 ns)
  rw [State.actFreely_record _ _ ms hmove z]
  simp only [List.flatten_append, List.flatten_cons, List.flatten_nil, List.append_nil, List.foldl_append]
  rw [foldl_onZone_id _ z _ _ _ (hsys (exchangePoints s2 s3)), foldl_onZone_id _ z _ _ _ (hsys (tokenPoints s1 s2)),
    foldl_onZone_id monitor.flatten z _ _ _ hmon]
  show zone.1.foldl (fun o a => a.onZone z s3.clock s3.epoch o) (s3.zone z) = _
  rw [h3.1, h3.2.1, h3.2.2]
  have hzone : zone.1.foldl (fun o a => a.onZone z s.clock s.epoch o) (s.zone z) =
      (moveAction ms).foldl (fun o a => a.onZone z s.clock s.epoch o)
        (((ms.filter ZoneMove.policy).map fun m : ZoneMove => Action.policy m.zone).foldl
          (fun o a => a.onZone z s.clock s.epoch o) (s.zone z)) := by
    show ((shuffle s3.freeDraws _).1 ++ moveAction ms ++ (riffle _ _ _).1).foldl _ _ = _
    rw [List.foldl_append, List.foldl_append]
    rw [foldl_onZone_id (riffle _ _ _).1]
    · congr 1
      refine List.Perm.foldl_eq' (shuffle_perm _ _) (fun a ha b hb o => ?_) _
      rw [(shuffle_perm _ _).mem_iff, List.mem_map] at ha hb
      obtain ⟨m, _, rfl⟩ := ha
      obtain ⟨n, _, rfl⟩ := hb
      simp only [Action.onZone]
      split <;> split <;> rfl
    · intro a ha
      rw [(riffle_perm _ _ _).mem_iff, List.mem_append] at ha
      rcases ha with ha | ha
      · exact hsys _ a ha
      · obtain ⟨m, _, rfl⟩ := List.mem_map.mp ha
        exact ⟨fun _ => (nomatch ·), fun _ => (nomatch ·)⟩
  rw [hzone, foldl_policies ms hn, hfind]
  have hmv : ∀ o : Option ZoneRecord, (moveAction ms).foldl (fun o a => a.onZone z s.clock s.epoch o) o =
      match s.zoneAtEnd ended cause z with
      | some m => o.map m.apply
      | none => o := by
    intro o
    rw [← hfind, ← foldl_moves ms hn z o]
    unfold moveAction
    split
    · rename_i h
      rw [List.isEmpty_iff] at h
      rw [h]
      rfl
    · rfl
  rw [hmv]
  cases s.zoneAtEnd ended cause z with
  | none => rfl
  | some m =>
    dsimp only
    split
    · rw [Option.map_map]
      rfl
    · rfl

end Sys2Proof.Machine
end

