-- ==== Sys2Proof/Laws/Exchange.lean ====
section
/-!
SUPPORT. What an append, a release and the undelivered handling of a list of entries do to the exchange (R137, R138, R144,
R146).
-/

namespace Sys2Proof.Machine

/-- R138, R150: an append changes one queue, and beside the queues the coalesce deadline of its port alone. -/
theorem State.appendEntry_exchange (s : State) (p : Port) (u : Bool) (e : Entry) :
    (s.appendEntry p u e).exchange =
      { s.exchange with
          urgent := if u then s.exchange.urgent.set p (s.exchange.urgent.get p ++ [e]) else s.exchange.urgent
          normal := if u then s.exchange.normal else s.exchange.normal.set p (s.exchange.normal.get p ++ [e])
          sessions := (s.appendEntry p u e).exchange.sessions } := by
  unfold State.appendEntry State.pushEntry
  cases u
  · simp only [Bool.false_eq_true, if_false]
    split
    · rfl
    · split
      · rw [State.raise_exchange]
        rfl
      · split <;> rfl
  · simp only [if_true, State.raise_exchange]

/-- R138: the URGENT queues after an append. -/
theorem State.appendEntry_urgent (s : State) (p : Port) (u : Bool) (e : Entry) (q : Port) :
    (s.appendEntry p u e).exchange.urgent.get q = s.exchange.urgent.get q ++ if u = true ∧ q = p then [e] else [] := by
  rw [State.appendEntry_exchange]
  cases u <;> simp [PerPort.get_set]
  split <;> simp_all

/-- R138: the NORMAL queues after an append. -/
theorem State.appendEntry_normal (s : State) (p : Port) (u : Bool) (e : Entry) (q : Port) :
    (s.appendEntry p u e).exchange.normal.get q = s.exchange.normal.get q ++ if u = false ∧ q = p then [e] else [] := by
  rw [State.appendEntry_exchange]
  cases u <;> simp [PerPort.get_set]
  split <;> simp_all

/-- R138: an append leaves the buffers. -/
@[simp] theorem State.appendEntry_buffer (s : State) (p : Port) (u : Bool) (e : Entry) (b : Nat) :
    (s.appendEntry p u e).buffer b = s.buffer b := by
  unfold State.buffer
  rw [State.appendEntry_exchange]

/-- R138: an append leaves the free list. -/
@[simp] theorem State.appendEntry_free (s : State) (p : Port) (u : Bool) (e : Entry) :
    (s.appendEntry p u e).exchange.free = s.exchange.free := by
  rw [State.appendEntry_exchange]

/-- R146: an append leaves the discard count. -/
@[simp] theorem State.appendEntry_discards (s : State) (p : Port) (u : Bool) (e : Entry) :
    (s.appendEntry p u e).exchange.discards = s.exchange.discards := by
  rw [State.appendEntry_exchange]

/-- R137, R144: a release leaves the queues and the discard count. -/
theorem State.releaseBuffer_queues (s : State) (b : Nat) :
    (s.releaseBuffer b).exchange.urgent = s.exchange.urgent ∧ (s.releaseBuffer b).exchange.normal = s.exchange.normal ∧
      (s.releaseBuffer b).exchange.discards = s.exchange.discards := by
  unfold State.releaseBuffer State.freeBuffer
  dsimp only
  split
  · exact ⟨rfl, rfl, rfl⟩
  · split
    · split <;> exact ⟨rfl, rfl, rfl⟩
    · exact ⟨rfl, rfl, rfl⟩

/-- R137, R144: a release leaves the attention records. -/
@[simp] theorem State.releaseBuffer_attention (s : State) (b : Nat) : (s.releaseBuffer b).attention = s.attention := by
  unfold State.releaseBuffer State.freeBuffer
  dsimp only
  split
  · rfl
  · split
    · split <;> rfl
    · rfl

/-- R144: a release that is not the last lowers the count of its buffer alone. -/
theorem State.releaseBuffer_shared (s : State) (b : Nat) (k : Buffer) (hk : s.buffer b = some k) (hr : 2 ≤ k.references) :
    s.releaseBuffer b = s.setBuffer b (some { k with references := k.references - 1 }) := by
  unfold State.releaseBuffer
  rw [hk]
  exact if_neg (by omega)

/-- R137: the last release frees the buffer to the tail of the free list. -/
theorem State.releaseBuffer_last (s : State) (b : Nat) (k : Buffer) (hk : s.buffer b = some k) (hr : k.references ≤ 1) :
    (∀ c, (s.releaseBuffer b).buffer c = if c = b then none else s.buffer c) ∧
      (s.releaseBuffer b).exchange.free = s.exchange.free ++ [b] := by
  have h : s.releaseBuffer b = s.freeBuffer b k := by
    unfold State.releaseBuffer
    rw [hk]
    exact if_pos hr
  rw [h]
  unfold State.freeBuffer
  dsimp only
  split
  · exact ⟨fun c => State.buffer_setBuffer s b c none, rfl⟩
  · exact ⟨fun c => State.buffer_setBuffer s b c none, rfl⟩

/-! ## Undelivered handling of a list of entries -/

/-- R146: the four conditions under which an entry that leaves port `p`'s queue is returned. -/
def State.comesBack (s : State) (p : Port) (e : Entry) : Bool :=
  decide (e.delivery = .direct) && (s.buffer e.buffer).any fun k =>
    k.returnFlag && decide (s.session k.sender.port = some k.sender) && decide (k.sender.port ≠ p)

/-- R146: the entry's buffer has its sender on port `q` and the priority `u`. -/
def State.goesTo (s : State) (q : Port) (u : Bool) (e : Entry) : Bool :=
  (s.buffer e.buffer).any fun k => decide (k.sender.port = q) && k.urgent == u

/-- R136: every entry's buffer is in use, with a reference for each of the entries that name it. -/
def State.referenced (s : State) (es : List Entry) : Prop :=
  ∀ e ∈ es, ∃ k, s.buffer e.buffer = some k ∧ (es.filter fun f => f.buffer == e.buffer).length ≤ k.references

/-- R146: an entry that is not returned is discarded. -/
theorem State.undelivered_of_not (s : State) (p : Port) (e : Entry) (h : s.comesBack p e = false) :
    s.undelivered p e = (s.discardEntry e, false) := by
  unfold State.undelivered
  unfold State.comesBack at h
  split
  · rename_i k hk
    rw [hk] at h
    rw [if_neg]
    intro hr
    simp only [State.returns, State.isCurrent, Bool.and_eq_true, beq_iff_eq, bne_iff_ne] at hr
    simp [hr] at h
  · rfl

/-- R146: an entry that is returned joins its sender's queue. -/
theorem State.undelivered_of_back (s : State) (p : Port) (e : Entry) (k : Buffer) (hk : s.buffer e.buffer = some k)
    (h : s.comesBack p e = true) :
    s.undelivered p e = (s.appendEntry k.sender.port k.urgent ⟨e.buffer, .returned⟩, true) := by
  unfold State.undelivered
  unfold State.comesBack at h
  rw [hk] at h ⊢
  dsimp only
  rw [if_pos]
  simp only [Option.any_some, Bool.and_eq_true, decide_eq_true_eq] at h
  simp [State.returns, State.isCurrent, h]

/-- R144, R146: a discard of an entry whose buffer is in use. -/
theorem State.discardEntry_buffer (s : State) (e : Entry) (k : Buffer) (hk : s.buffer e.buffer = some k) (c : Nat) :
    (s.discardEntry e).buffer c =
      if c = e.buffer then (if k.references ≤ 1 then none else some { k with references := k.references - 1 })
      else s.buffer c := by
  show (s.releaseBuffer e.buffer).buffer c = _
  by_cases hr : k.references ≤ 1
  · rw [(State.releaseBuffer_last s e.buffer k hk hr).1]
    simp [hr]
  · rw [State.releaseBuffer_shared s e.buffer k hk (by omega), State.buffer_setBuffer]
    rw [if_neg hr]

/-- R137, R146: the free list after a discard of an entry whose buffer is in use. -/
theorem State.discardEntry_free (s : State) (e : Entry) (k : Buffer) (hk : s.buffer e.buffer = some k) :
    (s.discardEntry e).exchange.free = s.exchange.free ++ if k.references ≤ 1 then [e.buffer] else [] := by
  show (s.releaseBuffer e.buffer).exchange.free = _
  by_cases hr : k.references ≤ 1
  · rw [(State.releaseBuffer_last s e.buffer k hk hr).2, if_pos hr]
  · rw [State.releaseBuffer_shared s e.buffer k hk (by omega), if_neg hr, List.append_nil]
    rfl

/-- What two states tell of an entry agrees where its buffer differs in the reference count alone. -/
theorem State.judged_congr {s t : State} (e : Entry) (hs : ∀ r : SessionRef, t.session r.port = s.session r.port)
    (hb : (t.buffer e.buffer).map (fun k => (k.sender, k.urgent, k.returnFlag)) =
      (s.buffer e.buffer).map fun k => (k.sender, k.urgent, k.returnFlag)) :
    (∀ p, t.comesBack p e = s.comesBack p e) ∧ ∀ q u, t.goesTo q u e = s.goesTo q u e := by
  unfold State.comesBack State.goesTo
  cases h : t.buffer e.buffer <;> cases h' : s.buffer e.buffer <;> rw [h, h'] at hb <;> simp_all

/-- R136, R144, R146: the undelivered handling of entries whose buffers are in use with a reference for each of them. -/
theorem State.undeliverAll_referenced (s : State) (p : Port) (es : List Entry) (h : s.referenced es) :
    let r := s.undeliverAll p es
    let back := es.filter (s.comesBack p)
    let released (b : Nat) : Nat := (es.filter fun e => !s.comesBack p e && e.buffer == b).length
    r.2.1 = back.length ∧
      (∀ q, r.1.exchange.urgent.get q =
        s.exchange.urgent.get q ++ (back.filter (s.goesTo q true)).map fun e => ⟨e.buffer, .returned⟩) ∧
      (∀ q, r.1.exchange.normal.get q =
        s.exchange.normal.get q ++ (back.filter (s.goesTo q false)).map fun e => ⟨e.buffer, .returned⟩) ∧
      (∀ b, released b = 0 → r.1.buffer b = s.buffer b) ∧
      (∀ b k, released b ≠ 0 → s.buffer b = some k →
        r.1.buffer b = if released b < k.references then some { k with references := k.references - released b } else none) ∧
      ∃ freed, r.1.exchange.free = s.exchange.free ++ freed ∧
        ∀ b, b ∈ freed ↔ s.buffer b ≠ none ∧ r.1.buffer b = none := by
  induction es generalizing s with
  | nil =>
    refine ⟨rfl, fun q => (List.append_nil _).symm, fun q => (List.append_nil _).symm, fun b _ => rfl,
      fun b k hb => absurd rfl hb, [], (List.append_nil _).symm, fun b => ?_⟩
    simp only [List.not_mem_nil, false_iff, not_and]
    exact fun hn => hn
  | cons e rest ih =>
    obtain ⟨k, hk, hr⟩ := h e List.mem_cons_self
    rw [List.filter_cons_of_pos (by simp), List.length_cons] at hr
    cases hc : s.comesBack p e with
    | true =>
      have hu := State.undelivered_of_back s p e k hk hc
      set t := s.appendEntry k.sender.port k.urgent ⟨e.buffer, .returned⟩ with ht
      have hj : ∀ f : Entry, (∀ p, t.comesBack p f = s.comesBack p f) ∧ ∀ q u, t.goesTo q u f = s.goesTo q u f :=
        fun f => State.judged_congr f (fun r => by rw [ht, State.appendEntry_session]) (by rw [ht, State.appendEntry_buffer])
      have hb : ∀ b, t.buffer b = s.buffer b := fun b => by rw [ht, State.appendEntry_buffer]
      have hp : t.referenced rest := by
        intro f hf
        obtain ⟨j, hj1, hj2⟩ := h f (List.mem_cons_of_mem _ hf)
        refine ⟨j, (hb _).trans hj1, le_trans (List.Sublist.length_le ?_) hj2⟩
        exact (List.sublist_cons_self _ _).filter _
      obtain ⟨i1, i2, i3, i4, i5, freed, i6, i7⟩ := ih t hp
      have hcb : t.comesBack p = s.comesBack p := funext fun f => (hj f).1 p
      have hgo : ∀ q u, t.goesTo q u = s.goesTo q u := fun q u => funext fun f => (hj f).2 q u
      simp only [hcb, hgo, hb] at i1 i2 i3 i4 i5 i7
      intro r back released
      have hr1 : r.1 = (t.undeliverAll p rest).1 := by simp only [r, State.undeliverAll, hu]
      have hr2 : r.2.1 = (t.undeliverAll p rest).2.1 + 1 := by simp only [r, State.undeliverAll, hu]; rfl
      have hbk : back = e :: rest.filter (s.comesBack p) := List.filter_cons_of_pos hc
      have hrel : ∀ b, released b = (rest.filter fun e => !s.comesBack p e && e.buffer == b).length := fun b => by
        simp only [released]
        rw [List.filter_cons_of_neg (by simp [hc])]
      have hg : ∀ q u, s.goesTo q u e = true ↔ k.urgent = u ∧ q = k.sender.port := fun q u => by
        unfold State.goesTo
        rw [hk]
        simp only [Option.any_some, Bool.and_eq_true, decide_eq_true_eq, beq_iff_eq]
        exact ⟨fun h => ⟨h.2, h.1.symm⟩, fun h => ⟨h.2.symm, h.1⟩⟩
      refine ⟨?_, fun q => ?_, fun q => ?_, fun b hb0 => ?_, fun b j hb0 hj => ?_, freed, ?_, fun b => ?_⟩
      · rw [hr2, i1, hbk, List.length_cons]
      · rw [hr1, i2, hbk, ht, State.appendEntry_urgent, List.append_assoc]
        congr 1
        by_cases hq : k.urgent = true ∧ q = k.sender.port
        · rw [if_pos hq, List.filter_cons_of_pos ((hg q true).mpr hq), List.map_cons]; rfl
        · rw [if_neg hq, List.filter_cons_of_neg (fun hh => hq ((hg q true).mp hh))]; rfl
      · rw [hr1, i3, hbk, ht, State.appendEntry_normal, List.append_assoc]
        congr 1
        by_cases hq : k.urgent = false ∧ q = k.sender.port
        · rw [if_pos hq, List.filter_cons_of_pos ((hg q false).mpr hq), List.map_cons]; rfl
        · rw [if_neg hq, List.filter_cons_of_neg (fun hh => hq ((hg q false).mp hh))]; rfl
      · rw [hr1]
        exact i4 b (by rw [← hrel]; exact hb0)
      · rw [hr1, hrel]
        exact i5 b j (by rw [← hrel]; exact hb0) hj
      · rw [hr1, i6, ht, State.appendEntry_free]
      · rw [hr1]
        exact i7 b
    | false =>
      have hu := State.undelivered_of_not s p e hc
      set t := s.discardEntry e with ht
      have hb : ∀ c, t.buffer c =
          if c = e.buffer then (if k.references ≤ 1 then none else some { k with references := k.references - 1 })
          else s.buffer c := State.discardEntry_buffer s e k hk
      have hin : ∀ f ∈ rest, f.buffer = e.buffer → 2 ≤ k.references := by
        intro f hf hfe
        have : 0 < (rest.filter fun f => f.buffer == e.buffer).length :=
          List.length_pos_of_mem (List.mem_filter.mpr ⟨hf, by simpa using hfe⟩)
        omega
      have hj : ∀ f ∈ rest, (∀ p, t.comesBack p f = s.comesBack p f) ∧ ∀ q u, t.goesTo q u f = s.goesTo q u f := by
        intro f hf
        refine State.judged_congr f (fun r => by rw [ht, State.discardEntry_session]) ?_
        rw [hb]
        split
        · rename_i hfe
          have := hin f hf hfe
          rw [if_neg (by omega), hfe, hk]
          rfl
        · rfl
      have hp : t.referenced rest := by
        intro f hf
        obtain ⟨j, hj1, hj2⟩ := h f (List.mem_cons_of_mem _ hf)
        by_cases hfe : f.buffer = e.buffer
        · have := hin f hf hfe
          refine ⟨{ k with references := k.references - 1 }, ?_, ?_⟩
          · rw [hb, if_pos hfe, if_neg (by omega)]
          · rw [hfe]
            dsimp only
            omega
        · refine ⟨j, by rw [hb, if_neg hfe]; exact hj1, le_trans (List.Sublist.length_le ?_) hj2⟩
          exact (List.sublist_cons_self _ _).filter _
      obtain ⟨i1, i2, i3, i4, i5, freed, i6, i7⟩ := ih t hp
      have hfil : rest.filter (t.comesBack p) = rest.filter (s.comesBack p) :=
        List.filter_congr fun f hf => (hj f hf).1 p
      have hfg : ∀ q u, (rest.filter (s.comesBack p)).filter (t.goesTo q u) =
          (rest.filter (s.comesBack p)).filter (s.goesTo q u) := fun q u =>
        List.filter_congr fun f hf => (hj f (List.mem_of_mem_filter hf)).2 q u
      have hfr : ∀ b, (rest.filter fun e => !t.comesBack p e && e.buffer == b) =
          rest.filter fun e => !s.comesBack p e && e.buffer == b := fun b =>
        List.filter_congr fun f hf => by rw [(hj f hf).1 p]
      simp only [hfil, hfg, hfr] at i1 i2 i3 i4 i5
      intro r back released
      have hr1 : r.1 = (t.undeliverAll p rest).1 := by simp only [r, State.undeliverAll, hu]
      have hr2 : r.2.1 = (t.undeliverAll p rest).2.1 := by simp only [r, State.undeliverAll, hu]; rfl
      have hbk : back = rest.filter (s.comesBack p) := List.filter_cons_of_neg (by simp [hc])
      have hrel : ∀ b, released b = (rest.filter fun e => !s.comesBack p e && e.buffer == b).length +
          if b = e.buffer then 1 else 0 := fun b => by
        simp only [released]
        by_cases hbe : b = e.buffer
        · rw [List.filter_cons_of_pos (by simp [hc, hbe]), List.length_cons, if_pos hbe]
        · rw [List.filter_cons_of_neg (by simp [hc, Ne.symm hbe]), if_neg hbe, Nat.add_zero]
      have hle : (rest.filter fun f => !s.comesBack p f && f.buffer == e.buffer).length ≤
          (rest.filter fun f => f.buffer == e.buffer).length := by
        rw [← List.countP_eq_length_filter, ← List.countP_eq_length_filter]
        exact List.countP_mono_left fun f _ hf => by simp only [Bool.and_eq_true] at hf; exact hf.2
      have hq : t.exchange.urgent = s.exchange.urgent ∧ t.exchange.normal = s.exchange.normal :=
        ⟨(State.releaseBuffer_queues s e.buffer).1, (State.releaseBuffer_queues s e.buffer).2.1⟩
      refine ⟨?_, fun q => ?_, fun q => ?_, fun b hb0 => ?_, fun b j hb0 hjb => ?_, ?_⟩
      · rw [hr2, i1, hbk]
      · rw [hr1, i2, hbk, hq.1]
      · rw [hr1, i3, hbk, hq.2]
      · rw [hrel] at hb0
        have hne : b ≠ e.buffer := fun hbe => by simp [hbe] at hb0
        rw [hr1, i4 b (by omega), hb, if_neg hne]
      · rw [hr1, hrel]
        by_cases hbe : b = e.buffer
        · subst hbe
          obtain rfl : k = j := by rw [hk] at hjb; injection hjb
          rw [if_pos rfl]
          by_cases h0 : (rest.filter fun f => !s.comesBack p f && f.buffer == e.buffer).length = 0
          · rw [i4 _ h0, hb, if_pos rfl, h0]
            split <;> split <;> first | rfl | omega
          · by_cases h1 : k.references ≤ 1
            · omega
            · rw [i5 e.buffer { k with references := k.references - 1 } h0 (by rw [hb, if_pos rfl, if_neg h1])]
              dsimp only
              split <;> split <;> first | omega | rfl | skip
              congr 2
              omega
        · rw [if_neg hbe, Nat.add_zero]
          rw [hrel, if_neg hbe] at hb0
          exact i5 b j (by omega) (by rw [hb, if_neg hbe]; exact hjb)
      · refine ⟨(if k.references ≤ 1 then [e.buffer] else []) ++ freed, ?_, fun b => ?_⟩
        · rw [hr1, i6, ht, State.discardEntry_free s e k hk, List.append_assoc]
        · rw [hr1, List.mem_append, i7, hb]
          by_cases hbe : b = e.buffer
          · subst hbe
            rw [if_pos rfl, hk]
            by_cases h1 : k.references ≤ 1
            · simp only [h1, if_true, List.mem_singleton, true_or, true_iff, ne_eq, reduceCtorEq, not_false_eq_true, true_and]
              have h0 : (rest.filter fun f => !s.comesBack p f && f.buffer == e.buffer).length = 0 := by omega
              rw [i4 _ h0, hb, if_pos rfl, if_pos h1]
            · simp [h1]
          · rw [if_neg hbe]
            split <;> simp [hbe]

end Sys2Proof.Machine
end

