-- ==== Sys2Proof/Laws/Points.lean ====
section
/-!
SUPPORT. What the points of a block come to when one record of the block is replaced (R44, R102, R118).
-/

namespace Sys2Proof.Machine

/-- A list without repetition in which one number alone answers. -/
theorem filterMap_single {α : Type} (f : Nat → Option α) (l : List Nat) (z : Nat) (v : α) (hn : l.Nodup) (hz : z ∈ l)
    (hv : f z = some v) (ho : ∀ i ∈ l, i ≠ z → f i = none) : l.filterMap f = [v] := by
  induction l with
  | nil => cases hz
  | cons a l ih =>
    obtain ⟨ha, hn⟩ := List.nodup_cons.1 hn
    by_cases h : a = z
    · subst h
      rw [List.filterMap_cons_some hv]
      congr 1
      rw [List.filterMap_eq_nil_iff]
      intro i hi
      exact ho i (List.mem_cons_of_mem _ hi) (fun e => ha (e ▸ hi))
    · rw [List.filterMap_cons_none (ho a List.mem_cons_self h)]
      exact ih hn ((List.mem_cons.1 hz).resolve_left (Ne.symm h)) fun i hi => ho i (List.mem_cons_of_mem _ hi)

/-- A list without repetition of which one number alone passes. -/
theorem filter_single (f : Nat → Bool) (l : List Nat) (z : Nat) (hn : l.Nodup) (hz : z ∈ l) (hv : f z = true)
    (ho : ∀ i ∈ l, i ≠ z → f i = false) : l.filter f = [z] := by
  induction l with
  | nil => cases hz
  | cons a l ih =>
    obtain ⟨ha, hn⟩ := List.nodup_cons.1 hn
    by_cases h : a = z
    · subst h
      rw [List.filter_cons_of_pos hv]
      congr 1
      rw [List.filter_eq_nil_iff]
      intro i hi
      simp [ho i (List.mem_cons_of_mem _ hi) fun e => ha (e ▸ hi)]
    · rw [List.filter_cons_of_neg (by simp [ho a List.mem_cons_self h])]
      exact ih hn ((List.mem_cons.1 hz).resolve_left (Ne.symm h)) fun i hi => ho i (List.mem_cons_of_mem _ hi)

/-- The defined zones stand when a defined zone's record is replaced by another. -/
theorem State.definedZones_setZone (s : State) (z : Nat) (r r' : ZoneRecord) (hr : s.zone z = some r) :
    (s.setZone z (some r')).definedZones = s.definedZones := by
  unfold State.definedZones
  apply List.filter_congr
  intro i _
  by_cases h : i = z
  · subst h
    simp [hr]
  · simp [State.zone_setZone, h]

/-- R44: the zone table's points when a defined zone's record is replaced by another. -/
theorem zonePoints_setZone (s : State) (z : Nat) (r r' : ZoneRecord) (h1 : 1 ≤ z) (h31 : z ≤ 31)
    (hr : s.zone z = some r) :
    zonePoints s (s.setZone z (some r')) =
      ⟨(if r.isOrphaned = r'.isOrphaned then [] else [(64 + z, r'.isOrphaned)]) ++
        (if r.isHandover = r'.isHandover then [] else [(96 + z, r'.isHandover)]), []⟩ := by
  have hz := (mem_zoneNumbers z).2 ⟨h1, h31⟩
  unfold zonePoints State.definedCount
  rw [State.definedZones_setZone s z r r' hr]
  simp only [if_true]
  congr 2
  · split
    · rename_i h
      rw [List.filterMap_eq_nil_iff]
      intro i _
      by_cases e : i = z
      · subst e
        simp [hr, orphanBit, h]
      · simp [State.zone_setZone, e]
    · rename_i h
      apply filterMap_single _ _ z _ nodup_zoneNumbers hz
      · simp [hr, orphanBit, h]
      · intro i _ e
        simp [State.zone_setZone, e]
  · split
    · rename_i h
      rw [List.filterMap_eq_nil_iff]
      intro i _
      by_cases e : i = z
      · subst e
        simp [hr, handoverBit, h]
      · simp [State.zone_setZone, e]
    · rename_i h
      apply filterMap_single _ _ z _ nodup_zoneNumbers hz
      · simp [hr, handoverBit, h]
      · intro i _ e
        simp [State.zone_setZone, e]

/-- R102: the token arbiter's points when one token's record is replaced. -/
theorem tokenPoints_setToken (s : State) (n : Nat) (k : Token) (hn : n < 16) :
    tokenPoints s (s.setToken n k) =
      if (s.token n).hold.map Hold.holder = k.hold.map Hold.holder then ⟨[], []⟩
      else ⟨[(32 + n, k.hold.isSome)], [(32 + n, k.holderCode)]⟩ := by
  unfold tokenPoints
  dsimp only
  split
  · rename_i h
    have e : (List.range Config.tokenCount).filter (fun t =>
        (s.token t).hold.map Hold.holder != ((s.setToken n k).token t).hold.map Hold.holder) = [] := by
      rw [List.filter_eq_nil_iff]
      intro i _
      by_cases e : i = n
      · subst e
        simp [h]
      · simp [State.token_setToken, e]
    rw [e]
    rfl
  · rename_i h
    have e : (List.range Config.tokenCount).filter (fun t =>
        (s.token t).hold.map Hold.holder != ((s.setToken n k).token t).hold.map Hold.holder) = [n] := by
      apply filter_single _ _ _ List.nodup_range (List.mem_range.2 hn)
      · simpa using h
      · intro i _ e
        simp [State.token_setToken, e]
    rw [e]
    simp

/-- R118: the timer array's points when one timer's record is replaced. -/
theorem timerPoints_setTimer (s : State) (n : Nat) (t : Option Armed) (hn : n < 32) :
    timerPoints s (s.setTimer n t) =
      if timerCount (s.timer n) = timerCount t ∧ timerDone (s.timer n) = timerDone t then ⟨[], []⟩
      else ⟨[(n, timerDone t)], [(n, timerCount t)]⟩ := by
  unfold timerPoints
  dsimp only
  split
  · rename_i h
    have e : (List.range Config.timerCount).filter (fun i =>
        timerCount (s.timer i) != timerCount ((s.setTimer n t).timer i) ||
          timerDone (s.timer i) != timerDone ((s.setTimer n t).timer i)) = [] := by
      rw [List.filter_eq_nil_iff]
      intro i _
      by_cases e : i = n
      · subst e
        simp [h.1, h.2]
      · simp [State.timer_setTimer, e]
    rw [e]
    rfl
  · rename_i h
    have e : (List.range Config.timerCount).filter (fun i =>
        timerCount (s.timer i) != timerCount ((s.setTimer n t).timer i) ||
          timerDone (s.timer i) != timerDone ((s.setTimer n t).timer i)) = [n] := by
      apply filter_single _ _ _ List.nodup_range (List.mem_range.2 hn)
      · simp only [State.timer_setTimer_same, Bool.or_eq_true, bne_iff_ne, ne_eq]
        by_cases hc : timerCount (s.timer n) = timerCount t
        · exact Or.inr fun hd => h ⟨hc, hd⟩
        · exact Or.inl hc
      · intro i _ e
        simp [State.timer_setTimer, e]
    rw [e]
    simp

end Sys2Proof.Machine
end

