-- ==== Sys2Proof/Laws/Timers.lean ====
section
/-!
SUPPORT. What a notice does to the timers, and the law of R118: the done bits and count words show the timers after every
write event.
-/

namespace Sys2Proof.Machine

/-! ## A notice and one timer -/

/-- R124: a timer whose bits have no edge in a notice stands. -/
theorem Armed.take_unseen (n : Notice) (bits : Memory Bool) (c : Clock) (t : Armed) (hs : n.edgeOf t.source = none)
    (hr : t.resetBit.bind n.edgeOf = none) : t.take n bits c = t := by
  unfold Armed.take
  rw [hr, hs]
  dsimp only
  split <;> rfl

/-- R118: the timer array writes nothing where no timer's done or count differs. -/
theorem timerPoints_same (s t : State) (h : ∀ k, t.timer k = s.timer k) : timerPoints s t = ⟨[], []⟩ := by
  have e : (List.range Config.timerCount).filter (fun i =>
      timerCount (s.timer i) != timerCount (t.timer i) || timerDone (s.timer i) != timerDone (t.timer i)) = [] := by
    rw [List.filter_eq_nil_iff]
    intro i _
    simp [h i]
  unfold timerPoints
  dsimp only
  rw [e]
  rfl

/-- R124: a notice that no timer answers changes no record, and starts no write. -/
theorem State.timersTake_unseen (s : State) (n : Notice)
    (h : ∀ k a, s.timer k = some a → a.take n s.bits s.clock = a) :
    s.timersTake n = (s.mapTimers (Armed.take n s.bits s.clock), ⟨[], []⟩) := by
  have hk : ∀ k, (s.mapTimers (Armed.take n s.bits s.clock)).timer k = s.timer k := by
    intro k
    rw [State.timer_mapTimers]
    cases ha : s.timer k with
    | none => rfl
    | some a => simp [h k a ha]
  unfold State.timersTake
  dsimp only
  rw [timerPoints_same s _ hk]
  unfold State.storeSystem
  simp

/-- R163: an empty notice fires nothing. -/
theorem State.fireChange_empty (s : State) (n : Notice) (h : n.isEmpty = true) : s.fireChange n = s := by
  obtain ⟨g, e⟩ := n
  simp only [Notice.isEmpty, Bool.and_eq_true, List.isEmpty_iff] at h
  obtain ⟨rfl, rfl⟩ := h
  have hw : ∀ w : Watch, w.seesChange ⟨[], []⟩ = false := by
    intro w
    unfold Watch.seesChange
    split <;> simp
  have hf : AttentionRecord.fireWhere (Watch.seesChange ⟨[], []⟩) = id := by
    funext r
    unfold AttentionRecord.fireWhere
    rw [if_neg]
    · rfl
    · simp only [List.any_eq_true, not_exists, not_and]
      intro e _
      cases e.2 <;> simp [hw]
  unfold State.fireChange State.mapAttention
  rw [hf]
  simp

/-- R69: a notice that no timer answers reaches the watches alone. -/
theorem State.deliver_unseen (k : Nat) (s : State) (n : Notice)
    (h : ∀ i a, s.timer i = some a → a.take n s.bits s.clock = a) :
    s.deliver k n = { s.fireChange n with timers := (s.deliver k n).timers } ∧
      ∀ i, (s.deliver k n).timer i = s.timer i := by
  cases k with
  | zero =>
    unfold State.deliver
    split
    · rename_i he
      rw [State.fireChange_empty s n he]
      exact ⟨rfl, fun _ => rfl⟩
    · exact ⟨rfl, fun i => by simp⟩
  | succ k =>
    unfold State.deliver
    split
    · rename_i he
      rw [State.fireChange_empty s n he]
      exact ⟨rfl, fun _ => rfl⟩
    · have ht := State.timersTake_unseen (s.fireChange n) n (by simpa using h)
      rw [ht]
      dsimp only
      rw [State.deliver_empty _ _ _ (by rfl)]
      refine ⟨rfl, fun i => ?_⟩
      rw [State.timer_mapTimers, State.fireChange_timer]
      cases ha : s.timer i with
      | none => rfl
      | some a => simpa using h i a ha

/-! ## A timer that names no done bit -/

/-- R124: a timer that names no bit below 32 stands at a notice whose edges all lie below. -/
theorem Armed.take_low (n : Notice) (bits : Memory Bool) (c : Clock) (t : Armed) (hn : ∀ e ∈ n.edges, e.1 < 32)
    (hs : 32 ≤ t.source) (hr : ∀ b, t.resetBit = some b → 32 ≤ b) : t.take n bits c = t := by
  have hnone : ∀ b, 32 ≤ b → n.edgeOf b = none := by
    intro b hb
    unfold Notice.edgeOf
    rw [List.find?_eq_none.mpr]
    · rfl
    · intro e he
      have := hn e he
      simp only [beq_iff_eq]
      omega
  refine Armed.take_unseen n bits c t (hnone _ hs) ?_
  cases h : t.resetBit with
  | none => rfl
  | some b => simpa using hnone b (hr b h)

/-- R118: the notice of the timer array's own write holds done bits alone. -/
theorem State.timersTake_edges (s : State) (n : Notice) : ∀ e ∈ (s.timersTake n).2.edges, e.1 < 32 := by
  rintro ⟨i, v⟩ he
  unfold State.timersTake at he
  dsimp only at he
  rw [State.storeSystem_edges] at he
  obtain ⟨rfl, hne⟩ := (mem_bitEdges _ _ _ _).mp he
  by_contra hi
  refine hne ?_
  refine (State.bit_store_ne (s.mapTimers _) _ i ?_).symm
  intro b hb
  have := timerPoints_bits_lt _ _ b hb
  dsimp only at hi
  omega

/-- R69: a chain whose notices hold done bits alone leaves a timer that names none of them. -/
theorem State.deliver_timer_low (k : Nat) (s : State) (n : Notice) (hn : ∀ e ∈ n.edges, e.1 < 32) (i : Nat) (a : Armed)
    (ha : s.timer i = some a) (hs : 32 ≤ a.source) (hr : ∀ b, a.resetBit = some b → 32 ≤ b) :
    (s.deliver k n).timer i = some a := by
  induction k generalizing s n with
  | zero =>
    unfold State.deliver
    split
    · exact ha
    · simpa using ha
  | succ k ih =>
    unfold State.deliver
    split
    · exact ha
    · refine ih _ _ (State.timersTake_edges _ _) ?_
      rw [State.timersTake_timer, State.fireChange_timer, ha, Option.map_some, Armed.take_low n _ _ a hn hs hr]

/-- R69, R124: a timer that names no done bit answers a notice once, whatever chain follows. -/
theorem State.deliver_timer (k : Nat) (s : State) (n : Notice) (i : Nat) (a : Armed) (ha : s.timer i = some a)
    (hs : 32 ≤ a.source) (hr : ∀ b, a.resetBit = some b → 32 ≤ b) :
    (s.deliver (k + 1) n).timer i = some (a.take n s.bits s.clock) := by
  unfold State.deliver
  split
  · rename_i he
    rw [ha, Armed.take_low n _ _ a _ hs hr]
    intro e h
    simp only [Notice.isEmpty, Bool.and_eq_true, List.isEmpty_iff] at he
    rw [he.2] at h
    exact absurd h (by simp)
  · have h2 := a.settings_take n s.bits s.clock
    simp only [Armed.settings, Prod.mk.injEq] at h2
    refine State.deliver_timer_low k _ _ (State.timersTake_edges _ _) i _ ?_ ?_ ?_
    · rw [State.timersTake_timer, State.fireChange_timer, ha]
      rfl
    · rw [h2.2.1]
      exact hs
    · rw [h2.2.2.1]
      exact hr

/-! ## The done bits and the count words show the timers (R118) -/

/-- R118: a write that names no point of the timer array leaves the law. -/
theorem State.showsTimers_store {s : State} (h : s.showsTimers) (w : Points) (hb : ∀ b ∈ w.bits, 32 ≤ b.1)
    (hw : ∀ x ∈ w.words, 32 ≤ x.1) : (s.store w).showsTimers := by
  intro n hn
  simp only [Config.timerCount] at hn
  refine ⟨?_, ?_⟩
  · rw [State.bit_store_ne _ _ _ fun b hm => by have := hb b hm; omega]
    exact (h n hn).1
  · rw [State.word_store_ne _ _ _ fun x hm => by have := hw x hm; omega]
    exact (h n hn).2

/-- The law speaks of bits, words and timers alone. -/
theorem State.showsTimers_congr {s t : State} (h : s.showsTimers) (hb : t.bits = s.bits) (hw : t.words = s.words)
    (ht : t.timers = s.timers) : t.showsTimers := by
  intro n hn
  have := h n hn
  simp only [State.bit, State.word, State.timer, hb, hw, ht] at this ⊢
  exact this

/-- A value laid under its own number in a list of numbers is found there. -/
theorem find_map_self {β : Type} (f : Nat → β) (l : List Nat) (n : Nat) :
    ((l.map fun t => (t, f t)).reverse.find? fun b => b.1 == n) = if n ∈ l then some (n, f n) else none := by
  split
  · rename_i hn
    cases hf : ((l.map fun t => (t, f t)).reverse.find? fun b => b.1 == n) with
    | none =>
      have := List.find?_eq_none.mp hf (n, f n) (by simpa using hn)
      simp at this
    | some e =>
      have h1 := List.find?_some hf
      have h2 := List.mem_of_find?_eq_some hf
      simp only [List.mem_reverse, List.mem_map] at h2
      obtain ⟨t, _, rfl⟩ := h2
      obtain rfl : t = n := by simpa using h1
      rfl
  · rename_i hn
    refine List.find?_eq_none.mpr fun e he => ?_
    simp only [List.mem_reverse, List.mem_map] at he
    obtain ⟨t, ht, rfl⟩ := he
    simp only [beq_iff_eq]
    rintro rfl
    exact hn ht

/-- R118: the timer array's write of a change brings the points up to the timers. -/
theorem State.showsTimers_storeTimers {s t : State} (h : s.showsTimers) (hb : ∀ i, t.bit i = s.bit i)
    (hw : ∀ i, t.word i = s.word i) : (t.store (timerPoints s t)).showsTimers := by
  intro n hn
  simp only [Config.timerCount] at hn
  obtain ⟨h1, h2⟩ := h n hn
  have hm : n ∈ (List.range Config.timerCount).filter (fun t' =>
      timerCount (s.timer t') != timerCount (t.timer t') || timerDone (s.timer t') != timerDone (t.timer t')) ↔
      ¬ (timerCount (s.timer n) = timerCount (t.timer n) ∧ timerDone (s.timer n) = timerDone (t.timer n)) := by
    simp only [List.mem_filter, List.mem_range, Config.timerCount, hn, true_and, Bool.or_eq_true, bne_iff_ne, ne_eq]
    tauto
  refine ⟨?_, ?_⟩
  · rw [State.bit_store]
    unfold timerPoints
    dsimp only
    rw [find_map_self (fun t' => timerDone (t.timer t'))]
    split
    · rfl
    · rename_i hnm
      have := not_not.mp (fun hc => hnm (hm.mpr hc))
      rw [Option.map_none, Option.getD_none, hb, h1, this.2]
      rfl
  · rw [State.word_store]
    unfold timerPoints
    dsimp only
    rw [find_map_self (fun t' => timerCount (t.timer t'))]
    split
    · rfl
    · rename_i hnm
      have := not_not.mp (fun hc => hnm (hm.mpr hc))
      rw [Option.map_none, Option.getD_none, hw, h2, this.1]
      rfl

/-- R118: the timer array's answer to a notice keeps the law. -/
theorem State.showsTimers_timersTake {s : State} (h : s.showsTimers) (n : Notice) : (s.timersTake n).1.showsTimers := by
  unfold State.timersTake
  dsimp only
  rw [State.storeSystem_fst]
  exact State.showsTimers_congr (State.showsTimers_storeTimers (t := s.mapTimers _) h (fun _ => rfl) fun _ => rfl) rfl rfl rfl

/-- R69: a chain keeps the law. -/
theorem State.showsTimers_deliver {s : State} (h : s.showsTimers) (k : Nat) (n : Notice) : (s.deliver k n).showsTimers :=
  State.deliver_keeps State.showsTimers
    (fun t m ht => State.showsTimers_congr ht (State.fireChange_bits t m) (State.fireChange_words t m)
      (State.fireChange_timers t m))
    (fun _ m ht => State.showsTimers_timersTake ht m) k s n h

/-- R70: a system-zone write of another block keeps the law. -/
theorem State.showsTimers_writeSystem {s : State} (h : s.showsTimers) (w : Points) (hb : ∀ b ∈ w.bits, 32 ≤ b.1)
    (hw : ∀ x ∈ w.words, 32 ≤ x.1) : (s.writeSystem w).showsTimers := by
  rw [State.writeSystem_eq]
  refine State.showsTimers_deliver ?_ _ _
  rw [State.storeSystem_fst]
  exact State.showsTimers_congr (State.showsTimers_store h w hb hw) rfl rfl rfl

/-- R118: the timer array's write of a change of its records keeps the law. -/
theorem State.showsTimers_writeTimers {s t : State} (h : s.showsTimers) (hb : ∀ i, t.bit i = s.bit i)
    (hw : ∀ i, t.word i = s.word i) : (s.writeTimers t).showsTimers := by
  unfold State.writeTimers
  rw [State.writeSystem_eq]
  refine State.showsTimers_deliver ?_ _ _
  rw [State.storeSystem_fst]
  exact State.showsTimers_congr (State.showsTimers_storeTimers h hb hw) rfl rfl rfl

/-- R118: one timer replaced, with its write, keeps the law. -/
theorem State.showsTimers_changeTimer {s : State} (h : s.showsTimers) (n : Nat) (t : Option Armed) :
    (s.changeTimer n t).showsTimers := State.showsTimers_writeTimers h (fun _ => rfl) fun _ => rfl

/-- R66: a counted write event in the definable area keeps the law. -/
theorem State.showsTimers_writeZones {s : State} (h : s.showsTimers) (zs : List Nat) (w : Points)
    (hb : ∀ b ∈ w.bits, 32 ≤ b.1) (hw : ∀ x ∈ w.words, 32 ≤ x.1) : (s.writeZones zs w).showsTimers := by
  unfold State.writeZones
  dsimp only
  refine State.showsTimers_deliver ?_ _ _
  rw [State.storeCounted_fst]
  exact State.showsTimers_congr (State.showsTimers_store h w hb hw) rfl rfl rfl

/-- R56: a clearing in the definable area keeps the law. -/
theorem State.showsTimers_writeClearing {s : State} (h : s.showsTimers) (w : Points)
    (hb : ∀ b ∈ w.bits, 32 ≤ b.1) (hw : ∀ x ∈ w.words, 32 ≤ x.1) : (s.writeClearing w).showsTimers := by
  unfold State.writeClearing
  dsimp only
  refine State.showsTimers_deliver ?_ _ _
  rw [State.storeClearing_fst]
  exact State.showsTimers_store h w hb hw

/-! ## One timer replaced (R118, R127 to R129) -/

/-- R118: one timer replaced: its write follows where its count or done changed. -/
theorem State.changeTimer_eq (s : State) (n : Nat) (t : Option Armed) (hn : n < 32) :
    s.changeTimer n t =
      if timerCount (s.timer n) = timerCount t ∧ timerDone (s.timer n) = timerDone t then s.setTimer n t
      else (s.setTimer n t).writeSystem ⟨[(n, timerDone t)], [(n, timerCount t)]⟩ := by
  unfold State.changeTimer State.writeTimers
  rw [timerPoints_setTimer s n t hn]
  split
  · exact State.writeSystem_nothing _
  · rfl

/-- R118: one timer replaced changes no port. -/
@[simp] theorem State.changeTimer_ports (s : State) (n : Nat) (t : Option Armed) : (s.changeTimer n t).ports = s.ports := by
  unfold State.changeTimer State.writeTimers
  rw [State.writeSystem_ports]
  rfl

/-- R118: the settings after one timer is replaced. -/
theorem State.changeTimer_settings (s : State) (n : Nat) (t : Option Armed) (k : Nat) :
    ((s.changeTimer n t).timer k).map Armed.settings =
      if k = n then t.map Armed.settings else (s.timer k).map Armed.settings := by
  unfold State.changeTimer State.writeTimers
  rw [State.writeSystem_settings, State.timer_setTimer]
  split <;> rfl

/-- R129: a timer freed is FREE after the writes that follow. -/
theorem State.changeTimer_none (s : State) (n : Nat) : (s.changeTimer n none).timer n = none := by
  have h := State.changeTimer_settings s n none n
  rw [if_pos rfl] at h
  exact Option.map_eq_none_iff.mp h

/-- R118: the timer array's write leaves a timer that names no done bit. -/
theorem State.writeTimers_timer (s t : State) (n : Nat) (a : Armed) (ha : t.timer n = some a)
    (hs : 32 ≤ a.source) (hr : ∀ b, a.resetBit = some b → 32 ≤ b) : (s.writeTimers t).timer n = some a := by
  unfold State.writeTimers
  rw [State.writeSystem_eq]
  refine State.deliver_timer_low _ _ _ ?_ n a ?_ hs hr
  · rintro ⟨i, v⟩ he
    rw [State.storeSystem_edges] at he
    obtain ⟨rfl, hne⟩ := (mem_bitEdges _ _ _ _).mp he
    by_contra hi
    refine hne (State.bit_store_ne t _ i ?_).symm
    intro b hm
    have := timerPoints_bits_lt _ _ b hm
    dsimp only at hi
    omega
  · rw [State.storeSystem_fst]
    exact ha

/-- R127: a timer replaced by one that names no done bit stands as it was put. -/
theorem State.changeTimer_timer (s : State) (n : Nat) (a : Armed) (hs : 32 ≤ a.source)
    (hr : ∀ b, a.resetBit = some b → 32 ≤ b) : (s.changeTimer n (some a)).timer n = some a :=
  State.writeTimers_timer s _ n a (by simp) hs hr

/-! ## A counted write event and the timers (R66, R69, R124) -/

/-- R69: a counted write event leaves the settings of every timer. -/
theorem State.writeZones_settings (s : State) (zs : List Nat) (w : Points) (n : Nat) :
    ((s.writeZones zs w).timer n).map Armed.settings = (s.timer n).map Armed.settings := by
  unfold State.writeZones
  dsimp only
  rw [State.deliver_settings, State.storeCounted_fst]
  rfl

/-- R69, R124: a timer that names no done bit takes the notice of a counted write event once. -/
theorem State.writeZones_timer (s : State) (zs : List Nat) (w : Points) (n : Nat) (a : Armed) (ha : s.timer n = some a)
    (hs : 32 ≤ a.source) (hr : ∀ b, a.resetBit = some b → 32 ≤ b) :
    (s.writeZones zs w).timer n =
      some (a.take ⟨zs, bitEdges s.bits (s.store w).bits⟩ (s.store w).bits s.clock) := by
  have hd := State.deliver_timer (Config.chainLimit - 1) (s.storeCounted zs w).1 (s.storeCounted zs w).2 n a
    (by rw [State.storeCounted_fst]; exact ha) hs hr
  unfold State.writeZones
  dsimp only
  rw [show Config.chainLimit = Config.chainLimit - 1 + 1 from rfl, hd, State.storeCounted_bits]
  have hn : (s.storeCounted zs w).2 = ⟨zs, bitEdges s.bits (s.store w).bits⟩ := by
    show Notice.mk zs (bitEdges s.bits (s.storeCounted zs w).1.bits) = _
    rw [State.storeCounted_bits]
  have hc : (s.storeCounted zs w).1.clock = s.clock := by
    rw [State.storeCounted_fst]
    rfl
  rw [hn, hc]

end Sys2Proof.Machine
end

