-- ==== Sys2Proof/Laws/Watches.lean ====
section
/-!
SUPPORT. What a notice does to the watches of an attention record (R163, R164), slot by slot.
-/

namespace Sys2Proof.Machine

/-- A value read from a table is held by an entry. -/
theorem Memory.mem_of_read {β : Type} (m : Memory (Option β)) (k : Nat) (v : β) (h : m.read none k = some v) :
    (k, some v) ∈ m := by
  induction m with
  | nil => cases h
  | cons e rest ih =>
    obtain ⟨j, x⟩ := e
    unfold Memory.read at h
    split at h
    · rename_i hj
      rw [hj, h]
      exact List.mem_cons_self
    · exact List.mem_cons_of_mem _ (ih h)

/-- An entry of a rising table is read under its number. -/
theorem Memory.read_of_mem {β : Type} (d : β) (m : Memory β) (h : m.Pairwise fun e f => e.1 < f.1) (e : Nat × β)
    (he : e ∈ m) : m.read d e.1 = e.2 := by
  induction m with
  | nil => cases he
  | cons x rest ih =>
    obtain ⟨j, v⟩ := x
    rw [List.pairwise_cons] at h
    unfold Memory.read
    rcases List.mem_cons.mp he with rfl | he
    · simp
    · have := h.1 e he
      rw [if_neg (by simp only at this; omega)]
      exact ih h.2 he

/-- R163: each slot after a firing: its watch fired where it sees the event. -/
theorem AttentionRecord.slot_fireWhere (f : Watch → Bool) (r : AttentionRecord) (k : Nat) :
    (r.fireWhere f).slot k = (r.slot k).map fun w => if f w then w.fire else w := by
  unfold AttentionRecord.fireWhere AttentionRecord.slot
  split
  · exact Memory.read_mapValues none (Option.map fun w => if f w then w.fire else w) rfl r.slots k
  · rename_i h
    cases hk : r.slots.read none k with
    | none => rfl
    | some w =>
      rw [Option.map_some, if_neg]
      intro hf
      exact h (List.any_eq_true.mpr ⟨_, Memory.mem_of_read _ _ _ hk, by simpa using hf⟩)

/-- R163: a firing of some slot sets WATCH and the level. -/
theorem AttentionRecord.fireWhere_of_slot (f : Watch → Bool) (r : AttentionRecord) (k : Nat) (w : Watch)
    (hk : r.slot k = some w) (hf : f w = true) :
    (r.fireWhere f).pending = r.pending ||| Cause.watch.bit ∧
      (r.fireWhere f).atn = atnLevel (r.pending ||| Cause.watch.bit) r.mask := by
  unfold AttentionRecord.fireWhere
  rw [if_pos]
  · exact ⟨rfl, rfl⟩
  · exact List.any_eq_true.mpr ⟨_, Memory.mem_of_read _ _ _ hk, by simpa using hf⟩

/-- R163: where no slot sees the event, the record stands. -/
theorem AttentionRecord.fireWhere_of_unseen (f : Watch → Bool) (r : AttentionRecord) (hr : Memory.wf none r.slots)
    (h : ∀ k w, r.slot k = some w → f w = false) : r.fireWhere f = r := by
  unfold AttentionRecord.fireWhere
  rw [if_neg]
  rw [List.any_eq_true]
  rintro ⟨e, he, hv⟩
  cases hw : e.2 with
  | none =>
    rw [hw] at hv
    cases hv
  | some w =>
    rw [hw] at hv
    have := h e.1 w (by unfold AttentionRecord.slot; rw [Memory.read_of_mem none _ hr.1 e he, hw])
    simp [this] at hv

/-- A raise leaves every slot. -/
@[simp] theorem AttentionRecord.slot_raise (r : AttentionRecord) (c : Cause) (d : Detail) (k : Nat) :
    (r.raise c d).slot k = r.slot k := by
  unfold AttentionRecord.slot
  rw [AttentionRecord.slots_raise]

/-- A slot of a port's record holds a watch of the kind and the zone given. -/
def State.watches (s : State) (q : Port) (k : Nat) (kind : WatchKind) (zone : Nat) : Prop :=
  ∃ a w, s.attention.get q = some a ∧ a.slot k = some w ∧ w.kind = kind ∧ w.zone = zone

/-- The watch of a slot has fired, and WATCH is pending. -/
def State.firedAt (s : State) (q : Port) (k : Nat) : Prop :=
  ∃ a w, s.attention.get q = some a ∧ a.slot k = some w ∧ w.fired = true ∧ a.pending.getLsbD 1 = true

/-- A raise leaves the watches. -/
theorem State.watches_raise {s : State} {q : Port} {k : Nat} {kind : WatchKind} {zone : Nat}
    (h : s.watches q k kind zone) (c : Cause) (d : Detail) (p : Port) : (s.raise c d p).watches q k kind zone := by
  obtain ⟨a, w, ha, hw, h1, h2⟩ := h
  unfold State.watches
  rw [State.attention_raise]
  split
  · exact ⟨a.raise c d, w, by rw [ha]; rfl, by rw [AttentionRecord.slot_raise, hw], h1, h2⟩
  · exact ⟨a, w, ha, hw, h1, h2⟩

/-- Raises for several ports leave the watches. -/
theorem State.watches_raiseFor {s : State} {q : Port} {k : Nat} {kind : WatchKind} {zone : Nat}
    (h : s.watches q k kind zone) (c : Cause) (d : Detail) (ps : List Port) : (s.raiseFor c d ps).watches q k kind zone := by
  unfold State.raiseFor
  induction ps generalizing s with
  | nil => exact h
  | cons p rest ih => exact ih (State.watches_raise h c d p)

/-- A firing leaves the kind and the zone of a watch. -/
theorem Watch.fire_names (w : Watch) : w.fire.kind = w.kind ∧ w.fire.zone = w.zone := by
  unfold Watch.fire
  split <;> exact ⟨rfl, rfl⟩

/-- A firing leaves the kinds and the zones of the watches. -/
theorem State.watches_mapAttention {s : State} {q : Port} {k : Nat} {kind : WatchKind} {zone : Nat}
    (h : s.watches q k kind zone) (f : Watch → Bool) :
    (s.mapAttention (AttentionRecord.fireWhere f)).watches q k kind zone := by
  obtain ⟨a, w, ha, hw, h1, h2⟩ := h
  refine ⟨a.fireWhere f, if f w then w.fire else w, by rw [State.attention_mapAttention, ha]; rfl, ?_, ?_, ?_⟩
  · rw [AttentionRecord.slot_fireWhere, hw]
    rfl
  · split
    · exact (w.fire_names).1.trans h1
    · exact h1
  · split
    · exact (w.fire_names).2.trans h2
    · exact h2

/-- A chain leaves the kinds and the zones of the watches. -/
theorem State.watches_deliver {s : State} {q : Port} {k : Nat} {kind : WatchKind} {zone : Nat}
    (h : s.watches q k kind zone) (i : Nat) (n : Notice) : (s.deliver i n).watches q k kind zone :=
  State.deliver_keeps (fun t => t.watches q k kind zone) (fun _ _ ht => State.watches_mapAttention ht _)
    (fun t m ht => by rw [State.timersTake_fst]; exact ht) i s n h

/-- A system-zone write leaves the kinds and the zones of the watches. -/
theorem State.watches_writeSystem {s : State} {q : Port} {k : Nat} {kind : WatchKind} {zone : Nat}
    (h : s.watches q k kind zone) (w : Points) : (s.writeSystem w).watches q k kind zone := by
  rw [State.writeSystem_eq]
  refine State.watches_deliver ?_ _ _
  rw [State.storeSystem_fst]
  exact h

/-- R25: the monitor's part of an arrival leaves the kinds and the zones of the watches. -/
theorem State.watches_qualify {s : State} {q : Port} {k : Nat} {kind : WatchKind} {zone : Nat}
    (h : s.watches q k kind zone) (p : Port) (n : Half) : (s.qualify p n).watches q k kind zone := by
  unfold State.qualify
  split
  · split <;> exact h
  · split
    · exact State.watches_raiseFor (State.watches_writeSystem (s := s.setPort p _) h _) _ _ _
    · exact h
  · exact h
  · exact h

/-- A watch that a change notice names has fired after it. -/
theorem State.firedAt_fireChange {s : State} {q : Port} {k : Nat} {kind : WatchKind} {zone : Nat}
    (h : s.watches q k kind zone) (n : Notice)
    (hn : ∀ w : Watch, w.kind = kind → w.zone = zone → w.seesChange n = true) : (s.fireChange n).firedAt q k := by
  obtain ⟨a, w, ha, hw, h1, h2⟩ := h
  have hs := hn w h1 h2
  refine ⟨a.fireWhere (Watch.seesChange n), w.fire, by rw [State.attention_fireChange, ha]; rfl, ?_, ?_, ?_⟩
  · rw [AttentionRecord.slot_fireWhere, hw]
    simp [hs]
  · unfold Watch.fire
    split
    · assumption
    · rfl
  · rw [(AttentionRecord.fireWhere_of_slot _ a k w hw hs).1]
    simp [Cause.bit]

/-- A fired watch stays fired through a chain. -/
theorem State.firedAt_deliver {s : State} {q : Port} {k : Nat} (h : s.firedAt q k) (i : Nat) (n : Notice) :
    (s.deliver i n).firedAt q k := by
  refine State.deliver_keeps (fun t => t.firedAt q k) ?_ (fun t m ht => by rw [State.timersTake_fst]; exact ht) i s n h
  rintro t m ⟨a, w, ha, hw, hf, hp⟩
  refine ⟨a.fireWhere (Watch.seesChange m), if w.seesChange m then w.fire else w,
    by rw [State.attention_fireChange, ha]; rfl, by rw [AttentionRecord.slot_fireWhere, hw]; rfl, ?_, ?_⟩
  · split
    · unfold Watch.fire
      rw [if_pos hf]
      exact hf
    · exact hf
  · rcases AttentionRecord.pending_fireWhere (Watch.seesChange m) a with h | h <;> rw [h]
    · exact hp
    · simp [hp]

end Sys2Proof.Machine
end

