-- ==== Sys2Proof/Tests/Slice0.lean ====
section
/-!
SUPPORT. The tests: ill-formed commands, small steps of each family, and for each statement of Certificates/Slice0/Obligations.lean
that has hypotheses a state and operands that meet them, clause by clause.
-/

namespace Sys2Proof.Tests

open Sys2Proof.Machine

-- Each test asks the kernel; one at a time keeps the number of threads small.
set_option Elab.async false

/-! ## Well-formed commands -/

theorem test_body_of_256_is_wellFormed : (Instr.ping .A 0 1 (List.replicate 256 0)).wellFormed = true := by decide +kernel

theorem test_body_of_257_is_refused : (Instr.ping .A 0 1 (List.replicate 257 0)).wellFormed = false := by decide +kernel

theorem test_unknown_kind_05_is_wellFormed : (Instr.unknownKind .A 0 0x05 0 []).wellFormed = true := by decide

theorem test_unknown_kind_of_a_request_is_refused : (Instr.unknownKind .A 0 0x04 0 []).wellFormed = false := by decide

theorem test_unknown_kind_body_of_257_is_refused :
    (Instr.unknownKind .A 0 0x05 0 (List.replicate 257 0)).wellFormed = false := by decide +kernel

theorem test_zone_expiry_numbers :
    (Instr.takeoverDeadlineExpiry 0).wellFormed = false ∧ (Instr.takeoverDeadlineExpiry 1).wellFormed = true ∧
      (Instr.takeoverDeadlineExpiry 31).wellFormed = true ∧ (Instr.takeoverDeadlineExpiry 32).wellFormed = false := by decide

theorem test_token_expiry_numbers :
    (Instr.holdDeadlineExpiry 15).wellFormed = true ∧ (Instr.holdDeadlineExpiry 16).wellFormed = false := by decide

/-! ## States of the tests -/

/-- A session that began with monitor time 10 and is due at 50 ms. -/
def member (n : Half) : Membership := ⟨n, 10, 50, 3⟩

/-- Clock 50: sessions 1 and 2 ONLINE on A and B, session 3 LATE on C, port D without a session. -/
def joined : State :=
  { State.reset with
      clock := 50
      sessionCounter := 3
      ports := ⟨.online (member 1), .online (member 2), .late (member 3), .lost⟩
      attention := ⟨some .start, some .start, some .start, none⟩
      exchange := { Exchange.reset with sessions := ⟨some .start, some .start, some .start, none⟩ } }

/-- A zone of the bits 128 to 135 and the word 96, with the standby B, the rights A, B and C, in a state. -/
def zoneIn (status : ZoneStatus) (policy : LossPolicy) : ZoneRecord :=
  { status := status, bitFirst := 128, bitCount := 8, wordFirst := 96, wordCount := 1, standby := some .B, delay := 0,
    policy := policy, rights := 0b0111, generation := 0, tenure := 255, lastTime := 0, lastEpoch := 0 }

/-- The joined state with zone 31 in a state. -/
def withZone (status : ZoneStatus) : State := joined.setZone 31 (some (zoneIn status .hold))

/-- The joined state with token 15 held and waited for. -/
def withToken (holder : SessionRef) (waiters : List SessionRef) : State :=
  joined.setToken 15 ⟨some ⟨holder, 0, some 50⟩, 2, waiters, false⟩

/-- A DELAY timer in TIMING. -/
def delayTimer : Armed :=
  { kind := .delay, source := 100, resetBit := none, base := .ms10, preset := 2, count := 0, done := false, phase := .timing,
    timingSince := 0, session := some ⟨.A, 1⟩, sourceUndefined := false }

/-- The joined state with timer 31, its source at 1, and the tick of 50 ms due. -/
def withTimer (t : Armed) : State :=
  { joined with tickDue := true, bits := [(100, true)], timers := [(31, some t)] }

/-- A NORMAL message from A to B. -/
def message : Buffer :=
  { sender := ⟨.A, 1⟩, number := 1, urgent := false, returnFlag := true, broadcast := false, payload := [7], references := 1,
    sendTime := 40 }

/-- The joined state with the message in B's NORMAL queue. -/
def withMessage : State :=
  { joined with
      exchange :=
        { joined.exchange with
            buffers := [(0, some message)], free := (List.range 63).map (· + 1), normal := ⟨[], [⟨0, .direct⟩], [], []⟩,
            counter := 1, sessions := ⟨some ⟨1, 1, 0, none⟩, some ⟨0, 16, 255, some 50⟩, some .start, none⟩ } }

/-- The joined state with a watch in A's slot 7. -/
def withWatch : State :=
  { joined with attention := joined.attention.set .A (some { AttentionRecord.start with slots := [(7, some (.set 0 .change))] }) }

/-- A fault entry of port A. -/
def faultEntry (n : Half) (firstOut : Bool) : FaultEntry := .new n (.port .A) 1 0 0 firstOut

/-- The joined state with faults of the numbers given. -/
def withFaults (ns : List Half) : State := { joined with faults := ns.map fun n => faultEntry n false }

/-- A link in a selection, after a status byte of port A and the bytes given. -/
def selectedLink (status : Byte) (received : List Byte) (reply : Option (List Byte)) (position : Nat) : Link :=
  { Link.afterReset .selected with captured := some status, received := received, reply := reply, position := position }

/-- The joined state with port A's link in a selection. -/
def selecting (status : Byte) (received : List Byte) (reply : Option (List Byte)) (position : Nat) : State :=
  joined.setLink .A (selectedLink status received reply position)

/-- The joined state with a reply in port A's slot. -/
def occupied : State := joined.setLink .A { Link.afterReset .idle with reply := some [0, 10, 0, 0, 0, 0, 0, 0, 0, 0] }

/-- The next state of a step. -/
def after (o : Host.Outcome State Fault Refusal) : Option State :=
  match o with
  | .next s => some s
  | .fault _ => none
  | .refused _ => none

/-- What stands in a port's reply slot after a command. -/
def answer (c : Instr) (s : State) (p : Port) : Option (List Byte) := (after (exec c s)).bind fun t => (t.links.get p).reply

/-- Outcome, port state, detail and body of the reply after a command. -/
def replyOf (c : Instr) (s : State) (p : Port) : Option (Byte × Byte × List Byte) :=
  (answer c s p).map fun f => (f.getD 4 0, f.getD 5 0, (f.drop 6).take (f.length - 8))

/-- Outcome and detail or body of the replies that several commands get in one state. -/
def outcomes (s : State) (p : Port) (cs : List Instr) : List (Option (Byte × List Byte)) :=
  cs.map fun c => (replyOf c s p).map fun r => (r.1, r.2.2)

/-! ## The link -/

/-- R183: the check value of the nine ASCII digits, which the polynomial and start are known by. -/
theorem test_check_value : checkValue [0x31, 0x32, 0x33, 0x34, 0x35, 0x36, 0x37, 0x38, 0x39] = 0x29B1 := by decide +kernel

/-- R185: its example of a PING frame, with the check value. -/
theorem test_ping_frame : (Request.mk 2 0x04 7 []).frame = [0x00, 0x08, 0x02, 0x04, 0x00, 0x07, 0x4D, 0x72] := by
  decide +kernel

theorem test_frame_is_read :
    classify ([0x00, 0x08, 0x02, 0x04, 0x00, 0x07, 0x4D, 0x72] ++ [0, 0]) false = some ⟨2, 0x04, 7, []⟩ := by decide +kernel

theorem test_bad_check_is_discarded : classify [0x00, 0x08, 0x02, 0x04, 0x00, 0x07, 0x4D, 0x73] false = none := by
  decide +kernel

theorem test_short_frame_is_discarded : classify [0x08] false = none := by decide

theorem test_status_byte : joined.statusByte .C = 0b00110010 ∧ occupied.statusByte .A = 0b10100000 := by decide +kernel

/-- The whole way of a PING from its bytes: the reply stands in the slot. -/
theorem test_ping_by_its_bytes :
    answer (.selectionEnd .A) (selecting 0x20 (Request.mk 2 0x04 1 []).frame none 0) .A =
      some (withCheck [0x00, 0x0A, 0x02, 0x04, 0x00, 0x01, 0x00, 0x03]) := by decide +kernel

theorem test_shifted_reply_leaves_the_slot :
    answer (.selectionEnd .A) (selecting 0xA0 [0, 0, 0] (some [1, 2]) 2) .A = none ∧
      answer (.selectionEnd .A) (selecting 0xA0 [0, 0] (some [1, 2]) 1) .A = some [1, 2] := by decide +kernel

theorem test_byte_moves_the_position :
    ((after (exec (.byteShifted .A 5) (selecting 0xA0 [0] (some [1, 2]) 0))).map fun t => (t.links.get .A).position) =
      some 1 := by decide +kernel

theorem test_status_byte_clears_what_it_reported :
    ((after (exec (.statusByteComplete .A) (joined.setLink .A { selectedLink 0x28 [] none 0 with
        discarded := true, refused := true }))).map fun t =>
      ((t.links.get .A).discarded, (t.links.get .A).refused)) = some (false, true) := by decide +kernel

/-- R4: the captured status, the reply's bytes, 00 after them and without a reply; nothing in IDLE and IGNORED. -/
theorem test_data_out :
    ((selecting 0xA0 [] (some [1, 2]) 0).links.get .A).dataOut = some 0xA0 ∧
      ((selecting 0xA0 [0] (some [1, 2]) 0).links.get .A).dataOut = some 1 ∧
      ((selecting 0xA0 [0] (some [1, 2]) 1).links.get .A).dataOut = some 2 ∧
      ((selecting 0xA0 [0] (some [1, 2]) 2).links.get .A).dataOut = some 0 ∧
      ((selecting 0x20 [0] (some [1, 2]) 0).links.get .A).dataOut = some 0 ∧
      ((selecting 0xA0 [0] none 0).links.get .A).dataOut = some 0 ∧
      (Link.afterReset .idle).dataOut = none ∧ (Link.afterReset .ignored).dataOut = none := by decide +kernel

theorem test_selection_in_reset_is_ignored :
    (after (exec (.selectionStart .B) { joined with phase := .held })).map (fun t => (t.links.get .B).selection) =
      some .ignored := by decide +kernel

theorem test_ignored_selection_ends :
    (after (exec (.ignoredSelectionEnd .A) (joined.setLink .A (Link.afterReset .ignored)))).map
      (fun t => (t.links.get .A).selection) = some .idle := by decide +kernel

theorem test_unknown_kind : replyOf (.unknownKind .D 9 0x05 0 []) joined .D = some (0x11, 3, [0, 0]) := by decide +kernel

theorem test_identify_has_39_bytes :
    (answer (.identify .A 0 0 []) joined .A).map List.length = some 49 := by decide +kernel

/-! ## Sessions -/

theorem test_join : replyOf (.join .D 0 0 [0, 20]) joined .D = some (0x00, 1, [0, 4, 0, 0]) := by decide +kernel

theorem test_join_after_65535 :
    ((after (exec (.join .D 0 0 [0, 20]) { joined with sessionCounter := 0xFFFF })).map State.sessionCounter) = some 1 := by
  decide +kernel

theorem test_leave : replyOf (.leave .A 0 1 []) joined .A = some (0x00, 0, [0, 0]) := by decide +kernel

theorem test_ping_of_a_late_port : replyOf (.ping .C 0 3 []) joined .C = some (0x00, 1, [0, 3]) := by decide +kernel

theorem test_fence : replyOf (.ping .A 0 2 []) joined .A = some (0x10, 1, [0, 1]) ∧
    replyOf (.ping .D 0 0 []) joined .D = some (0x10, 3, [0, 0]) := by decide +kernel

theorem test_first_expiry :
    (after (exec (.monitorFirstExpiry .A) joined)).map (fun t => (t.ports.get .A, t.bit 52)) =
      some (.late ⟨1, 10, 100, 4⟩, true) := by decide +kernel

theorem test_second_expiry_not_due :
    exec (.monitorSecondExpiry .C) { joined with clock := 49 } = .next { joined with clock := 49 } := rfl

theorem test_clock_wraps :
    (after (exec .cellClockAdvance { joined with clock := 0xFFFFFFFF })).map (fun t => (t.clock, t.tickDue)) =
      some (0, true) := by decide +kernel

/-- An advance takes what is due at the value it leaves, and nothing before that value. -/
theorem test_advance_takes_a_due_expiry :
    let s := { joined with ports := ⟨.online (member 1), .offline, .offline, .offline⟩ }
    (after (exec .cellClockAdvance s)).map (fun t => (t.clock, t.ports.get .A, t.bit 52)) =
        some (51, .late ⟨1, 10, 100, 4⟩, true) ∧
      exec .cellClockAdvance { s with clock := 49 } = .next { s with clock := 50, tickDue := true } := by
  refine ⟨by decide +kernel, rfl⟩

/-- An advance takes the tick event that the queue has not taken. -/
theorem test_advance_takes_the_tick :
    (after (exec .cellClockAdvance { withTimer delayTimer with ports := .fill .offline })).map
      (fun t => (t.clock, t.tickDue, (t.timer 31).map Armed.count, t.word 31)) = some (51, true, some 1, 1) := by
  decide +kernel

/-! ## Zones -/

theorem test_define_zone :
    replyOf (.defineZone .A 0 1 [0, 0x0F, 0xF8, 0, 8, 0x03, 0xFF, 0, 1, 0]) joined .A = some (0x00, 1, [0, 1]) := by
  decide +kernel

theorem test_define_zone_overlap :
    replyOf (.defineZone .A 0 1 [0, 0, 128, 0, 8, 0, 0, 0, 0, 0]) (withZone .vacant) .A = some (0x15, 1, [0, 31]) := by
  decide +kernel

/-- R48: its refusals in order. -/
theorem test_define_zone_refusals :
    outcomes (withZone .vacant) .A [.defineZone .A 0 1 [0], .defineZone .A 0 1 [0, 0, 128, 0, 8, 0, 0, 0, 0, 16],
      .defineZone .A 0 1 [0, 0, 128, 0, 0, 0, 96, 0, 0, 15], .defineZone .A 0 1 [32, 0, 128, 0, 4, 0, 0, 0, 0, 15],
      .defineZone .A 0 1 [31, 0x0F, 0xF8, 0, 16, 0, 95, 0, 1, 15], .defineZone .A 0 1 [31, 0, 128, 0, 8, 3, 0xFF, 0, 2, 15],
      .defineZone .A 0 1 [31, 0, 128, 0, 8, 0, 0, 0, 0, 15], .defineZone .A 0 1 [30, 0, 200, 0, 8, 0, 96, 0, 1, 15]] =
      [some (0x11, [0, 0]), some (0x11, [0, 1]), some (0x11, [0, 2]), some (0x12, [0, 1]), some (0x12, [0, 2]),
        some (0x12, [0, 3]), some (0x16, [0, 31]), some (0x15, [0, 31])] := by decide +kernel

/-- R48 check 7: no number is UNDEFINED. -/
theorem test_define_zone_in_a_full_table :
    outcomes { joined with zones := (List.range 31).map fun k => (k + 1, some (zoneIn .vacant .hold)) } .A
      [.defineZone .A 0 1 [0, 0x0F, 0xF8, 0, 8, 0, 0, 0, 0, 15]] = [some (0x16, [0, 0])] := by decide +kernel

/-- R131: the flag is cleared of the timer whose bits are covered again, and of no other. -/
theorem test_define_zone_clears_source_undefined :
    (after (exec (.defineZone .A 0 1 [0, 0x0F, 0xF8, 0, 8, 0, 0, 0, 0, 0])
        { joined with timers := [(0, some { delayTimer with source := 4088, resetBit := some 4095, sourceUndefined := true }),
          (31, some { delayTimer with source := 4087, sourceUndefined := true })] })).map
      (fun t => ((t.timer 0).map Armed.sourceUndefined, (t.timer 31).map Armed.sourceUndefined)) =
      some (some false, some true) := by decide +kernel

/-- R55: its refusals in order. -/
theorem test_retire_zone_refusals :
    outcomes (withZone (.owned ⟨.B, 2⟩)) .A [.retireZone .A 0 1 [], .retireZone .A 0 1 [0], .retireZone .A 0 1 [32],
        .retireZone .A 0 1 [1], .retireZone .A 0 1 [31]] =
        [some (0x11, [0, 0]), some (0x12, [0, 1]), some (0x12, [0, 1]), some (0x1C, [0, 0]), some (0x13, [0, 0])] ∧
      outcomes (joined.setZone 31 (some { zoneIn .orphaned .hold with rights := 0b0110 })) .A [.retireZone .A 0 1 [31]] =
        [some (0x1A, [0, 0])] ∧
      outcomes (withZone (.handover 60)) .A [.retireZone .A 0 1 [31]] = [some (0x14, [0, 0])] := by decide +kernel

theorem test_set_zone_policy :
    replyOf (.setZonePolicy .A 0 1 [31, 2, 2, 5, 2]) (withZone (.owned ⟨.A, 1⟩)) .A = some (0x00, 1, [0, 0]) := by
  decide +kernel

/-- R51, R54: their refusals in order. -/
theorem test_policy_refusals :
    let r := zoneIn (.owned ⟨.A, 1⟩) .hold
    outcomes (withZone (.owned ⟨.A, 1⟩)) .A [.setZonePolicy .A 0 1 [31], .setZonePolicy .A 0 1 [31, 3, 0, 0, 0],
        .setZonePolicy .A 0 1 [31, 0, 5, 0, 0], .setZonePolicy .A 0 1 [31, 0, 0, 0, 16], .setZonePolicy .A 0 1 [0, 0, 0, 0, 0],
        .setZonePolicy .A 0 1 [1, 0, 0, 0, 0], .setZonePolicy .A 0 1 [31, 0, 4, 0, 7], .setZonePolicy .A 0 1 [31, 0, 1, 0, 15],
        .loadSafeImage .A 0 1 [], .loadSafeImage .A 0 1 [32], .loadSafeImage .A 0 1 [1]] =
        [some (0x11, [0, 0]), some (0x11, [0, 1]), some (0x11, [0, 1]), some (0x11, [0, 1]), some (0x12, [0, 1]),
          some (0x1C, [0, 0]), some (0x1A, [0, 0]), some (0x1A, [0, 0]), some (0x11, [0, 0]), some (0x12, [0, 1]),
          some (0x1C, [0, 0])] ∧
      outcomes (withZone .vacant) .A [.setZonePolicy .A 0 1 [31, 0, 0, 0, 0], .loadSafeImage .A 0 1 [31]] =
        [some (0x13, [0, 0]), some (0x13, [0, 0])] ∧
      outcomes (joined.setZone 31 (some { r with wordCount := 128 })) .A [.setZonePolicy .A 0 1 [31, 2, 0, 0, 0]] =
        [some (0x1D, [1, 1])] ∧
      outcomes ((joined.setZone 31 (some { r with bitCount := 1032, wordCount := 60 })).setZone 1
          (some { zoneIn .vacant (.substitute ⟨false, [], []⟩) with bitCount := 0, wordCount := 197 })) .A
        [.setZonePolicy .A 0 1 [31, 2, 0, 0, 0]] = [some (0x19, [0, 3])] ∧
      outcomes (withZone (.owned ⟨.A, 1⟩) |>.setZone 31 (some { r with policy := .substitute ⟨false, [], []⟩ })) .A
        [.loadSafeImage .A 0 1 [31, 1, 2]] = [some (0x11, [0, 2])] := by decide +kernel

theorem test_load_safe_image_needs_substitute :
    replyOf (.loadSafeImage .A 0 1 [31, 1, 2, 3]) (withZone (.owned ⟨.A, 1⟩)) .A = some (0x14, 1, [0, 0]) := by
  decide +kernel

theorem test_query_zone_has_34_bytes :
    (answer (.queryZone .A 0 1 [31]) (withZone .vacant) .A).map List.length = some 44 := by decide +kernel

theorem test_publish :
    (after (exec (.publish .A 0 1 [1, 0, 135, 1, 3, 0, 96, 0x12, 0x34]) (withZone (.owned ⟨.A, 1⟩)))).map
      (fun t => (t.bit 135, t.word 96, (t.zone 31).map ZoneRecord.generation)) = some (true, 0x1234, some 1) := by
  decide +kernel

/-- R68, R163: CHANGE on a touched zone and RISE on a bit that rose fire; FALL on a bit that stands and OWNERSHIP do not. -/
theorem test_publish_fires_watches :
    (after (exec (.publish .A 0 1 [1, 0, 135, 1])
        { withZone (.owned ⟨.A, 1⟩) with
            attention := joined.attention.set .B (some { AttentionRecord.start with
              slots := [(0, some (.set 31 .change)), (1, some ⟨31, .rise 135, true, 255⟩), (2, some (.set 31 (.fall 128))),
                (7, some (.set 31 .ownership))] }) })).map
      (fun t => (t.attention.get .B).map fun a => (a.pending, a.slots)) =
      some (some (0b000010, [(0, some ⟨31, .change, true, 0⟩), (1, some ⟨31, .rise 135, true, 255⟩),
        (2, some (.set 31 (.fall 128))), (7, some (.set 31 .ownership))])) := by decide +kernel

/-- R58, R73, R75, R110, R130, R180: the refusals of the requests that read. -/
theorem test_reading_refusals :
    outcomes (withZone .vacant) .A [.queryZone .A 0 1 [], .queryZone .A 0 1 [32], .queryTimer .A 0 1 [], .queryTimer .A 0 1 [32],
      .queryTokens .A 0 1 [0], .readFaults .A 0 1 [0], .snapshot .A 0 1 [], .snapshot .A 0 1 (List.replicate 9 0),
      .snapshot .A 0 1 [0, 1, 32], .snapshot .A 0 1 [0, 31, 1], .snapshot .A 0 1 [0, 0, 0], .readPoints .A 0 1 [],
      .readPoints .A 0 1 [0, 0, 0], .readPoints .A 0 1 (List.replicate 66 0), .readPoints .A 0 1 [0x0F, 0xFF, 0x10, 0],
      .readPoints .A 0 1 [0x83, 0xFF, 0x84, 0]] =
      [some (0x11, [0, 0]), some (0x12, [0, 1]), some (0x11, [0, 0]), some (0x12, [0, 1]), some (0x11, [0, 0]),
        some (0x11, [0, 0]), some (0x11, [0, 0]), some (0x11, [0, 0]), some (0x12, [0, 3]), some (0x1C, [0, 3]),
        some (0x1D, [2, 0x8E]), some (0x11, [0, 0]), some (0x11, [0, 0]), some (0x11, [0, 0]), some (0x12, [0, 2]),
        some (0x12, [0, 2])] := by decide +kernel

/-- R82: the refusals of a CLAIM in order. -/
theorem test_claim_refusals :
    outcomes (joined.setZone 31 (some { zoneIn .vacant .hold with rights := 0b0110 })) .A [.claim .A 0 1 [], .claim .A 0 1 [0],
      .claim .A 0 1 [32], .claim .A 0 1 [1], .claim .A 0 1 [31]] =
      [some (0x11, [0, 0]), some (0x12, [0, 1]), some (0x12, [0, 1]), some (0x1C, [0, 0]), some (0x1A, [0, 0])] := by
  decide +kernel

/-- R85: the refusals of a HAND_OVER in order. -/
theorem test_hand_over_refusals :
    outcomes (withZone (.owned ⟨.A, 1⟩)) .A [.handOver .A 0 1 [31], .handOver .A 0 1 [32, 0], .handOver .A 0 1 [32, 5],
        .handOver .A 0 1 [32, 2], .handOver .A 0 1 [1, 2], .handOver .A 0 1 [31, 4], .handOver .A 0 1 [31, 1],
        .handOver .A 0 1 [31, 3]] =
        [some (0x11, [0, 0]), some (0x11, [0, 1]), some (0x11, [0, 1]), some (0x12, [0, 1]), some (0x1C, [0, 0]),
          some (0x1A, [0, 1]), some (0x1A, [0, 2]), some (0x1A, [0, 3])] ∧
      outcomes (withZone .vacant) .A [.handOver .A 0 1 [31, 4]] = [some (0x13, [0, 0])] := by decide +kernel

theorem test_snapshot :
    replyOf (.snapshot .A 0 1 [31]) (withZone .vacant) .A =
      some (0x00, 1, [0, 1, 1, 0, 31, 2, 0, 255, 0, 0, 0, 8, 0, 1, 0, 0, 0]) := by decide +kernel

theorem test_read_points :
    replyOf (.readPoints .A 0 1 [0, 130, 0x80, 97]) (withZone .vacant) .A =
      some (0x00, 1, [0, 2, 31, 0, 0, 255, 0, 0]) := by decide +kernel

theorem test_claim_of_a_vacant_zone :
    replyOf (.claim .A 0 1 [31]) (withZone .vacant) .A = some (0x00, 1, [0, 0, 0, 0, 0]) := by decide +kernel

theorem test_claim_of_anothers_zone :
    replyOf (.claim .A 0 1 [31]) (withZone (.owned ⟨.B, 2⟩)) .A = some (0x14, 1, [0, 2]) := by decide +kernel

theorem test_release :
    (after (exec (.release .A 0 1 [31]) (withZone (.owned ⟨.A, 1⟩)))).map
      (fun t => ((t.zone 31).map ZoneRecord.status, (t.zone 31).map ZoneRecord.tenure)) = some (some .vacant, some 0) := by
  decide +kernel

theorem test_hand_over_to_a_late_port :
    replyOf (.handOver .A 0 1 [31, 3]) (withZone (.owned ⟨.A, 1⟩)) .A = some (0x1A, 1, [0, 3]) := by decide +kernel

theorem test_takeover :
    (after (exec (.takeoverDeadlineExpiry 31) (withZone (.handover 50)))).map
      (fun t => ((t.zone 31).map ZoneRecord.status, (t.zone 31).map ZoneRecord.standby)) =
      some (some (.owned ⟨.B, 2⟩), some none) := by decide +kernel

/-! ## Tokens -/

theorem test_acquire :
    (after (exec (.acquire .A 0 1 [15, 1]) joined)).map (fun t => (t.bit 47, t.word 47)) = some (true, 1) := by
  decide +kernel

/-- Token 13 held by A and waited for by C, 14 held by C and waited for by B, 15 held by B. -/
def chained : State :=
  ((joined.setToken 13 ⟨some ⟨⟨.A, 1⟩, 0, none⟩, 0, [⟨.C, 3⟩], false⟩).setToken 14
    ⟨some ⟨⟨.C, 3⟩, 0, none⟩, 0, [⟨.B, 2⟩], false⟩).setToken 15 ⟨some ⟨⟨.B, 2⟩, 0, none⟩, 0, [], false⟩

theorem test_acquire_deadlock :
    replyOf (.acquire .A 0 1 [15, 0]) chained .A = some (0x23, 1, [0, 13]) ∧
      replyOf (.acquire .A 0 1 [15, 0]) (chained.setToken 13 .powerOn) .A = some (0x01, 1, [0, 1]) ∧
      replyOf (.acquire .B 0 2 [13, 0]) chained .B = some (0x22, 1, [0, 14]) := by decide +kernel

theorem test_release_token :
    replyOf (.releaseToken .A 0 1 [15]) (withToken ⟨.A, 1⟩ [⟨.C, 3⟩]) .A = some (0x00, 1, [0, 3]) := by decide +kernel

theorem test_cancel_wait :
    replyOf (.cancelWait .C 0 3 []) (withToken ⟨.A, 1⟩ [⟨.B, 2⟩, ⟨.C, 3⟩]) .C = some (0x00, 1, [0, 15]) := by decide +kernel

theorem test_set_token_limit :
    replyOf (.setTokenLimit .A 0 1 [15, 9]) (withToken ⟨.A, 1⟩ []) .A = some (0x00, 1, [0, 2]) := by decide +kernel

theorem test_query_tokens_has_388_bytes :
    (answer (.queryTokens .A 0 1 []) joined .A).map List.length = some 398 := by decide +kernel

theorem test_hold_deadline_not_due :
    exec (.holdDeadlineExpiry 15) { withToken ⟨.A, 1⟩ [] with clock := 49 } =
      .next { withToken ⟨.A, 1⟩ [] with clock := 49 } := by rfl

/-! ## Timers -/

theorem test_set_timer :
    (after (exec (.setTimer .A 0 1 [31, 1, 0, 0, 1, 0, 100, 0xFF, 0xFF]) { joined with bits := [(100, true)] })).map
      (fun t => (t.bit 31, (t.timer 31).map Armed.phase)) = some (true, some .on) := by decide +kernel

/-- R126: its ten checks in order. -/
theorem test_set_timer_refusals :
    let s := { joined with timers := [(0, some { delayTimer with kind := .offDelay, resetBit := some 31 }),
      (30, some { delayTimer with session := some ⟨.B, 2⟩ })] }
    outcomes s .A [.setTimer .A 0 1 [31], .setTimer .A 0 1 [31, 3, 0, 0, 1, 0, 100, 0, 101],
      .setTimer .A 0 1 [31, 0, 3, 0, 1, 0, 100, 0, 101], .setTimer .A 0 1 [32, 0, 0, 0, 0, 0, 100, 0, 100],
      .setTimer .A 0 1 [32, 0, 0, 0, 0, 0, 100, 0, 101], .setTimer .A 0 1 [31, 0, 0, 0, 0, 0, 128, 0, 101],
      .setTimer .A 0 1 [31, 0, 0, 0x75, 0x31, 0, 128, 0, 101], .setTimer .A 0 1 [31, 0, 0, 0x75, 0x30, 0, 128, 0, 129],
      .setTimer .A 0 1 [31, 0, 0, 0, 1, 0, 127, 0, 129], .setTimer .A 0 1 [30, 0, 0, 0, 1, 0, 100, 0, 0],
      .setTimer .A 0 1 [31, 1, 0, 0, 1, 0, 100, 0, 0], .setTimer .A 0 1 [31, 1, 0, 0, 1, 0, 100, 0, 31],
      .setTimer .A 0 1 [31, 1, 0, 0, 1, 0, 100, 0, 101], .setTimer .A 0 1 [31, 2, 0, 0, 1, 0, 100, 0, 31]] =
      [some (0x11, [0, 0]), some (0x11, [0, 1]), some (0x11, [0, 1]), some (0x11, [0, 2]), some (0x12, [0, 1]),
        some (0x12, [0, 2]), some (0x12, [0, 2]), some (0x12, [0, 3]), some (0x12, [0, 4]), some (0x25, [0, 2]),
        some (0x1A, [0, 1]), some (0x1A, [0, 1]), some (0x1A, [0, 2]), some (0x00, [0, 0])] := by decide +kernel

theorem test_reset_timer :
    (after (exec (.resetTimer .A 0 1 [31]) (withTimer { delayTimer with count := 1 }))).map
      (fun t => (t.timer 31).map fun a => (a.count, a.phase, a.timingSince)) = some (some (0, .timing, 50)) := by
  decide +kernel

theorem test_free_timer : replyOf (.freeTimer .B 0 2 [31]) (withTimer delayTimer) .B = some (0x25, 1, [0, 1]) := by
  decide +kernel

theorem test_query_timer_has_17_bytes :
    (answer (.queryTimer .A 0 1 [31]) (withTimer delayTimer) .A).map List.length = some 27 := by decide +kernel

theorem test_tick_reaches_the_preset :
    (after (exec .timerTick (withTimer { delayTimer with count := 1 }))).map
      (fun t => (t.bit 31, t.word 31, (t.timer 31).map Armed.phase, t.systemZone.generation)) =
      some (true, 2, some .done, 1) := by decide +kernel

/-! ## Messages -/

theorem test_send_to_all :
    replyOf (.send .A 0 1 [0xFF, 1, 9, 9]) joined .A = some (0x00, 1, [0, 1, 6]) := by decide +kernel

/-- R142: its six checks in order. -/
theorem test_send_refusals :
    let quota24 := { joined.exchange with sessions := ⟨some ⟨24, 1, 0, none⟩, some .start, some .start, none⟩, free := [] }
    outcomes { joined with exchange := quota24 } .A [.send .A 0 1 [1], .send .A 0 1 [0, 0], .send .A 0 1 [5, 0],
        .send .A 0 1 [0xFE, 0], .send .A 0 1 [4, 4], .send .A 0 1 (4 :: 0 :: List.replicate 61 0), .send .A 0 1 [4, 0],
        .send .A 0 1 [2, 0]] =
        [some (0x11, [0, 0]), some (0x11, [0, 1]), some (0x11, [0, 1]), some (0x11, [0, 1]), some (0x11, [0, 1]),
          some (0x11, [0, 2]), some (0x28, [0, 4]), some (0x27, [0, 24])] ∧
      outcomes { joined with ports := ⟨.online (member 1), .offline, .lost, .offline⟩ } .A [.send .A 0 1 [0xFF, 0]] =
        [some (0x28, [0, 0])] ∧
      outcomes { joined with exchange := { joined.exchange with free := [] } } .A [.send .A 0 1 [2, 0]] =
        [some (0x26, [0, 0])] := by decide +kernel

/-- R150: a NORMAL append to an empty queue, at the threshold 1 (B, whose timer stops) and below the threshold 2 (C, whose
timer starts). -/
theorem test_send_coalesces :
    (after (exec (.send .A 0 1 [0xFF, 0])
        { joined with exchange := { joined.exchange with
            sessions := ⟨some .start, some ⟨0, 1, 9, some 60⟩, some ⟨0, 2, 9, none⟩, none⟩ } })).map
      (fun t => ((t.exchange.sessions.get .B, t.exchange.sessions.get .C),
        (t.attention.get .B).map AttentionRecord.pending, (t.attention.get .C).map AttentionRecord.pending)) =
      some ((some ⟨0, 1, 9, none⟩, some ⟨0, 2, 9, some 59⟩), some 1, some 0) := by decide +kernel

theorem test_receive :
    replyOf (.receive .B 0 2 []) withMessage .B =
      some (0x00, 1, [0, 0, 1, 0, 1, 0, 1, 4, 0, 0, 0, 10, 1, 7]) := by decide +kernel

/-- R145: its refusals. R139, R150: the freed buffer leaves the sender's quota, and the emptied queue's timer stops. -/
theorem test_receive_frees_the_buffer :
    outcomes joined .B [.receive .B 0 2 [0], .receive .B 0 2 []] = [some (0x11, [0, 0]), some (0x29, [0, 0])] ∧
      (after (exec (.receive .B 0 2 []) withMessage)).map
        (fun t => (t.exchange.sessions.get .A, t.exchange.sessions.get .B, t.buffer 0, t.exchange.free.length)) =
        some (some ⟨0, 1, 0, none⟩, some ⟨0, 16, 255, none⟩, none, 64) := by decide +kernel

/-- R148: its refusals. R150: a NORMAL return at the threshold raises MESSAGE at the sender. -/
theorem test_flush_raises_message :
    outcomes withMessage .B [.flushQueue .B 0 2 [], .flushQueue .B 0 2 [0], .flushQueue .B 0 2 [4], .flushQueue .B 0 2 [1]] =
        [some (0x11, [0, 0]), some (0x11, [0, 1]), some (0x11, [0, 1]), some (0x00, [0, 0, 0, 0])] ∧
      (after (exec (.flushQueue .B 0 2 [2]) withMessage)).map
        (fun t => ((t.attention.get .A).map AttentionRecord.pending, t.exchange.sessions.get .A, t.exchange.sessions.get .B)) =
        some (some 1, some ⟨1, 1, 0, none⟩, some ⟨0, 16, 255, none⟩) := by decide +kernel

theorem test_flush_returns_the_message :
    (after (exec (.flushQueue .B 0 2 [2]) withMessage)).map
      (fun t => (t.exchange.normal.get .A, t.exchange.normal.get .B)) = some ([⟨0, .returned⟩], []) := by decide +kernel

theorem test_set_coalesce :
    (after (exec (.setCoalesce .B 0 2 [16, 200]) withMessage)).map
      (fun t => (t.exchange.sessions.get .B).bind MessageSession.deadline) = some (some 250) := by decide +kernel

theorem test_set_coalesce_refusals :
    outcomes withMessage .B [.setCoalesce .B 0 2 [1], .setCoalesce .B 0 2 [0, 5], .setCoalesce .B 0 2 [17, 5]] =
      [some (0x11, [0, 0]), some (0x12, [0, 1]), some (0x12, [0, 1])] := by decide +kernel

theorem test_coalesce_deadline :
    (after (exec (.coalesceDeadlineExpiry .B) withMessage)).map (fun t => t.atn .B) = some true := by decide +kernel

/-! ## Attention -/

theorem test_set_watch :
    replyOf (.setWatch .A 0 1 [7, 0, 1, 0, 127]) withWatch .A = some (0x00, 1, [0, 1]) := by decide +kernel

theorem test_clear_watch : replyOf (.clearWatch .A 0 1 [7]) withWatch .A = some (0x00, 1, [0, 0]) := by decide +kernel

theorem test_watch_fires_on_zone_0 :
    (after (exec (.monitorFirstExpiry .B) withWatch)).map
      (fun t => ((t.attention.get .A).map fun a => (a.pending, a.slots))) =
      some (some (0b010010, [(7, some ⟨0, .change, true, 0⟩)])) := by decide +kernel

theorem test_read_attention_has_30_bytes :
    (answer (.readAttention .A 0 1 []) withWatch .A).map List.length = some 40 := by decide +kernel

theorem test_read_attention_refuses_a_body : outcomes withWatch .A [.readAttention .A 0 1 [0]] = [some (0x11, [0, 0])] := by
  decide +kernel

theorem test_mask : replyOf (.setAttentionMask .A 0 1 [0x1F]) joined .A = some (0x00, 1, [0, 0x3F]) := by decide +kernel

/-! ## Faults and resets -/

theorem test_raise_fault : replyOf (.raiseFault .A 0 1 [0x0F, 0xBF]) joined .A = some (0x00, 1, [0, 1, 1]) := by
  decide +kernel

theorem test_clear_fault_of_a_lost_port :
    replyOf (.clearFault .A 0 1 [0x0F, 0xF3]) (withFaults [4083]) .A = some (0x2B, 1, [0, 2]) := by decide +kernel

/-- R178, R179: their refusals in order. -/
theorem test_fault_refusals :
    outcomes (withFaults [1]) .A [.clearFault .A 0 1 [1], .clearFault .A 0 1 [0, 0], .clearFault .A 0 1 [0x10, 0],
      .clearFault .A 0 1 [0, 2], .ackFault .A 0 1 [], .ackFault .A 0 1 [0x10, 0], .ackFault .A 0 1 [0, 2]] =
      [some (0x11, [0, 0]), some (0x12, [0, 1]), some (0x12, [0, 1]), some (0x1C, [0, 0]), some (0x11, [0, 0]),
        some (0x12, [0, 1]), some (0x1C, [0, 0])] := by decide +kernel

theorem test_ack_fault :
    replyOf (.ackFault .A 0 1 [0, 0]) (withFaults [1, 2]) .A = some (0x00, 1, [0, 2]) := by decide +kernel

theorem test_read_faults :
    (answer (.readFaults .A 0 1 []) (withFaults [1, 2]) .A).map List.length = some 52 := by decide +kernel

theorem test_warm_reset :
    (after (exec .warmReset (withZone (.owned ⟨.A, 1⟩)))).map
      (fun t => (t.phase, t.epoch, t.bit 95, t.word 54, t.faults.map FaultEntry.number)) =
      some (.held, 1, true, 64, [4088]) := by decide +kernel

theorem test_rstn_rise : (after (exec .rstnRise { joined with phase := .held })).map State.phase = some .running := by
  decide +kernel

theorem test_power_on_reset :
    (after (exec (.powerOnReset 0b1000) joined)).map
      (fun t => (t.phase, (t.links.get .D).selection, (t.links.get .A).selection)) = some (.powerOn, .ignored, .idle) := by
  decide +kernel

theorem test_power_on_reset_end :
    (after (exec (.powerOnResetEnd true) { joined with phase := .powerOn })).map State.phase = some .held := by
  decide +kernel

theorem test_free_buffer_word :
    (after (exec .freeBufferWordWrite State.reset)).map (fun t => (t.word 54, t.systemZone.generation)) = some (64, 0) := by
  decide +kernel

/-! ## The hypotheses of the statements are met: one theorem for each statement, one conjunct for each of its clauses -/

/-- The zones of a state that defines one zone. -/
theorem zone_of_one {s : State} {n : Nat} {q r : ZoneRecord} {z : Nat} (hs : s.zones = [(n, some q)]) (h : s.zone z = some r) :
    z = n ∧ r = q := by
  rw [State.zone, hs] at h
  unfold Memory.read at h
  split at h
  · exact ⟨by omega, (Option.some.inj h).symm⟩
  · cases h

/-- The laws of the zone table (R41, R48) in a state that defines one zone. -/
theorem laws_of_one {s : State} {n : Nat} {q : ZoneRecord} (hs : s.zones = [(n, some q)]) (h1 : 1 ≤ n) (h31 : n ≤ 31)
    (hq : q.inArea = true) : s.zonesInArea ∧ s.zonesApart := by
  refine ⟨fun z r h => ?_, fun z r z' r' h h' ne => ?_⟩
  · obtain ⟨rfl, rfl⟩ := zone_of_one hs h
    exact ⟨h1, h31, hq⟩
  · exact absurd ((zone_of_one hs h).1.trans (zone_of_one hs h').1.symm) ne

/-- The laws in the state of zone 31 alone. -/
theorem laws_withZone (status : ZoneStatus) : (withZone status).zonesInArea ∧ (withZone status).zonesApart :=
  laws_of_one rfl (by decide) (by decide) rfl

/-- The laws of the zone table in a state without zones. -/
theorem laws_of_none {s : State} (hs : s.zones = []) : s.zonesLawful := by
  have none : ∀ z, s.zone z = none := fun z => by rw [State.zone, hs]; rfl
  refine ⟨fun z r h => ?_, fun z r _ _ h => ?_, fun z r h => ?_⟩ <;> rw [none z] at h <;> cases h

/-- R118 in a state with one timer. -/
theorem showsTimers_of {s : State} (h : ∀ n < 32, s.bit n = timerDone (s.timer n) ∧ s.word n = timerCount (s.timer n)) :
    s.showsTimers := h

theorem test_meets_SelectionStartTakesOrIgnores :
    ((joined.links.get .A).selection = .idle ∧ joined.phase = .running) ∧
      (({ joined with phase := .powerOn }).links.get .A).selection = .idle ∧ ResetPhase.powerOn ≠ .running := by decide

theorem test_meets_StatusByteReportsSevenFields :
    (occupied.links.get .D).selection = .idle ∧ occupied.phase = .running := by decide

theorem test_meets_BytesShiftThroughASelection :
    (((selecting 0xA8 [] (some [1]) 0).links.get .A).selection = .selected ∧
        ((selecting 0xA8 [] (some [1]) 0).links.get .A).captured = some 0xA8 ∧
        ((selecting 0xA8 [] (some [1]) 0).links.get .A).received = []) ∧
      ((selecting 0xA8 (List.replicate 263 0) (some [1]) 1).links.get .A).received.length < 264 ∧
      264 ≤ ((selecting 0xA8 (List.replicate 264 0) (some [1]) 1).links.get .A).received.length ∧
      (((selecting 0xA8 [0] (some [1]) 0).links.get .A).received ≠ [] ∧ (0xA8 : Byte).getLsbD 7 = true ∧
        ((selecting 0xA8 [0] (some [1]) 0).links.get .A).reply = some [1]) ∧
      (([1] : List Byte)[0]? = some 1 ∧ ([1] : List Byte).length ≤ 1) ∧
      ((0x28 : Byte).getLsbD 7 = false ∧ ((selecting 0xA8 [0] none 0).links.get .A).reply = none) ∧
      (joined.links.get .A).selection = .idle ∧
      ((joined.setLink .A (Link.afterReset .ignored)).links.get .A).selection = .ignored := by decide +kernel

theorem test_meets_SelectionEndsWithoutAnArrival :
    let l := (selecting 0x20 [0, 0] none 0).links.get .A
    let d := (selecting 0x20 [8] none 0).links.get .A
    let o := (selecting 0xA0 (Request.mk 0 4 1 []).frame (some [1, 2]) 1).links.get .A
    (l.selection = .selected ∧ fetchOnly l.received l.excess = true) ∧
      (d.selection = .selected ∧ fetchOnly d.received d.excess = false ∧ classify d.received d.excess = none) ∧
      (o.selection = .selected ∧ fetchOnly o.received o.excess = false ∧
        classify o.received o.excess = some ⟨0, 4, 1, []⟩ ∧
        (if o.captured.any statusReply ∧ o.position = (o.reply.getD []).length then none else o.reply).isSome) ∧
      (Link.afterReset .ignored).selection = .ignored := by decide +kernel

theorem test_meets_SelectionEndIsTheRequest :
    let s := selecting 0x20 ((Request.mk 9 (Kind.code .send) 1 (List.replicate 256 7)).frame ++ List.replicate 0 0) none 0
    let u := selecting 0x20 ((Request.mk 9 0x05 1 []).frame ++ List.replicate 3 0) none 0
    (s.phase = .running ∧ (s.links.get .A).selection = .selected ∧ (s.links.get .A).excess = false ∧
        (List.replicate 256 (7 : Byte)).length ≤ 256 ∧
        (s.links.get .A).received =
          (Request.mk 9 (Kind.code .send) 1 (List.replicate 256 7)).frame ++ List.replicate 0 0) ∧
      (u.phase = .running ∧ (u.links.get .A).selection = .selected ∧ (u.links.get .A).excess = false ∧
        Kind.ofCode 0x05 = none ∧ (u.links.get .A).received = (Request.mk 9 0x05 1 []).frame ++ List.replicate 3 0) :=
  ⟨⟨rfl, rfl, rfl, by rw [List.length_replicate], rfl⟩, rfl, rfl, rfl, by decide, rfl⟩

theorem test_meets_RequestFrameReadsBack :
    (Request.mk 255 255 0xFFFF (List.replicate 256 255)).body.length ≤ 256 ∧
      classify ((Request.mk 255 255 0xFFFF [9]).frame ++ [0]) false = some ⟨255, 255, 0xFFFF, [9]⟩ := by decide +kernel

theorem test_meets_RequestsThatDoNotArrive :
    (occupied.takesFrames .A = true ∧ (occupied.links.get .A).reply.isSome) ∧
      ({ joined with phase := .held } : State).phase ≠ .running ∧
      ((joined.setLink .A (Link.afterReset .ignored)).links.get .A).selection = .ignored := by decide

/-- The hypotheses of `Kind.fencedOff`: a port with another session, and a port with none. -/
theorem test_meets_fencedOff :
    (joined.hears .A ∧ ∀ m, (joined.ports.get .A).session = some m → m.number ≠ 2) ∧
      (joined.hears .D ∧ ∀ m, (joined.ports.get .D).session = some m → m.number ≠ 0) := by
  refine ⟨⟨by decide, ?_⟩, by decide, ?_⟩ <;> intro m h <;> cases h
  decide

theorem test_meets_FencedRequestsAreRefused : Kind.isFenced .leave = true := by decide

theorem test_meets_EveryArrivalGetsOneReply : joined.hears .A ∧ joined.hears .D := by decide

theorem test_meets_UnknownKindAndIdentify :
    joined.hears .D ∧ Kind.ofCode 0x05 = none ∧ Kind.ofCode 0xFF = none ∧ ([2] : List Byte) ≠ [] ∧
      ([2] : List Byte) ≠ [0] ∧ ([2] : List Byte) ≠ [1] := by decide

theorem test_meets_JoinBeginsASession :
    joined.hears .D ∧ ((joined.ports.get .D).session = none ∧ (1 : Byte) ≠ 0 ∧ (255 : Byte) ≠ 0) ∧
      (∀ time : Byte, time ≠ 0 → ([0, 0] : List Byte) ≠ [0, time]) ∧
      ∀ time : Byte, time ≠ 0 → ([1, 0] : List Byte) ≠ [0, time] := by decide +kernel

theorem test_meets_JoinReplacesTheSession :
    joined.serves .A (member 1) ∧ joined.serves .C (member 3) ∧ (255 : Byte) ≠ 0 := by decide

theorem test_meets_LeaveEndsTheSession : joined.serves .C (member 3) ∧ ([0] : List Byte) ≠ [] := by decide

theorem test_meets_PingReportsTheLateCount : joined.serves .A (member 1) ∧ ([0] : List Byte) ≠ [] := by decide

theorem test_meets_ArrivalRestartsTheMonitor :
    joined.hears .A ∧ joined.ports.get .A = .online (member 1) ∧ joined.ports.get .C = .late (member 3) ∧
      ∀ m, (joined.ports.get .D).session = some m → m.number ≠ 0 := by
  refine ⟨by decide, rfl, rfl, ?_⟩
  intro m h
  cases h

theorem test_meets_FirstExpiryMakesThePortLate :
    (joined.ports.get .A = .online (member 1) ∧ (member 1).deadline = joined.clock) ∧
      ∀ m, joined.ports.get .A = .online m → m.deadline ≠ 49 ∧ m.deadline ≠ 51 := by
  refine ⟨by decide, ?_⟩
  intro m h
  cases h
  decide

theorem test_meets_SecondExpiryLosesTheSession :
    (joined.ports.get .C = .late (member 3) ∧ (member 3).deadline = joined.clock ∧ (withZone .vacant).zonesInArea) ∧
      ∀ m, joined.ports.get .C = .late m → m.deadline ≠ 49 ∧ m.deadline ≠ 51 := by
  refine ⟨⟨rfl, by decide, (laws_withZone _).1⟩, ?_⟩
  intro m h
  cases h
  decide

theorem test_meets_EndedSessionHoldsNothing :
    let k : Token := ⟨some ⟨⟨.A, 1⟩, 0, some 50⟩, 2, [⟨.B, 2⟩], false⟩
    let r := zoneIn (.owned ⟨.A, 1⟩) .hold
    ((joined.serves .A (member 1) ∧ ∃ t, exec (.leave .A 0 (member 1).number []) joined = .next t) ∧
      (joined.serves .A (member 1) ∧ (1 : Byte) ≠ 0 ∧ ∃ t, exec (.join .A 0 0 [0, 1]) joined = .next t) ∧
      (joined.ports.get .C = .late (member 3) ∧ (member 3).deadline = joined.clock ∧
        ∃ t, exec (.monitorSecondExpiry .C) joined = .next t)) ∧
      ((withToken ⟨.A, 1⟩ [⟨.B, 2⟩]).token 15 = k ∧ k.hold = some ⟨⟨.A, 1⟩, 0, some 50⟩ ∧
        (k.waiters.filter fun w => decide (w ≠ (member 1).on .A)) = ⟨.B, 2⟩ :: [] ∧ Port.B ≠ .A) ∧
      ((withToken ⟨.A, 1⟩ []).token 15).waiters = [] ∧ (withZone .vacant).zonesInArea ∧
      ((withZone .vacant).zone 31 = some (zoneIn .vacant .hold) ∧
        (zoneIn .vacant .hold).status ≠ .owned ((member 1).on .A)) ∧
      ((withZone (.handover 9)).serves .B (member 2) ∧ (zoneIn (.handover 9) .hold).status = .handover 9 ∧
        (zoneIn (.handover 9) .hold).standby = some .B ∧ Port.C ≠ .B ∧ portIn .C (zoneIn (.handover 9) .hold).rights = true) ∧
      (r.status = .owned ((member 1).on .A) ∧ r.standby = some .B ∧ Port.B ≠ .A ∧ joined.ports.get .B = .online (member 2)) ∧
      ∀ q mq, q ≠ .A → ({ r with standby := some Port.C } : ZoneRecord).standby = some q →
        joined.ports.get q ≠ .online mq := by
  refine ⟨⟨⟨by decide, _, rfl⟩, ⟨by decide, by decide, _, rfl⟩, rfl, by decide, _, rfl⟩, by decide +kernel, by decide,
    (laws_withZone _).1, by decide, by decide, by decide, ?_⟩
  intro q mq _ h h'
  cases h
  cases h'

/-- The clause of the OWNERSHIP watches: one on a zone that the end reaches and one on a zone that it does not, on port C. -/
theorem test_meets_EndedSessionHoldsNothing_watches :
    let s := { withZone (.owned ⟨.A, 1⟩) with
      attention := joined.attention.set .C (some { AttentionRecord.start with
        slots := [(0, some ⟨31, .ownership, true, 255⟩), (7, some (.set 1 .ownership))] }) }
    ∃ a, Port.C ≠ .A ∧ s.attention.get .C = some a ∧ a.slot 0 = some ⟨31, .ownership, true, 255⟩ ∧
      a.slot 7 = some (.set 1 .ownership) ∧ s.serves .A (member 1) ∧
      (1 ≤ 31 ∧ 31 ≤ 31 ∧ s.zone 31 = some (zoneIn (.owned ⟨.A, 1⟩) .hold) ∧
        (zoneIn (.owned ⟨.A, 1⟩) .hold).status = .owned ((member 1).on .A)) ∧ s.zone 1 = none :=
  ⟨_, by decide, rfl, by decide +kernel, by decide +kernel, by decide +kernel, by decide +kernel, by decide⟩

/-- Every deadline as far ahead of the clock as its block can set it. -/
def farthest : State :=
  { joined with
      ports := ⟨.online ⟨1, 255, 1325, 0⟩, .late ⟨2, 1, 50, 0⟩, .offline, .lost⟩
      zones := [(31, some (zoneIn (.handover 2600) .hold))]
      tokens := [(15, ⟨some ⟨⟨.A, 1⟩, 50, some 25550⟩, 255, [], false⟩)]
      exchange := { joined.exchange with sessions := ⟨some ⟨0, 16, 255, some 305⟩, some .start, none, none⟩ } }

theorem deadlinesAhead_farthest : farthest.deadlinesAhead := by
  refine ⟨fun p m h => ?_, fun z r d _ _ h h' => ?_, fun n h d hn e e' => ?_, fun p e d h h' => ?_⟩
  · cases p <;> cases h <;> decide +kernel
  · obtain ⟨rfl, rfl⟩ := zone_of_one rfl h
    cases h'
    decide +kernel
  · have key : ∀ n < 16, ∀ h ∈ (farthest.token n).hold, h.deadline = some 25550 := by decide +kernel
    obtain rfl := Option.some.inj ((key n hn h e).symm.trans e')
    exact Nat.le_refl 25500
  · cases p <;> cases h <;> cases h'
    decide +kernel

/-- Each disjunct of `due` at the clock's value, a state with nothing due, and the law of the deadlines at its bounds. -/
theorem test_meets_ClockCountsMilliseconds :
    joined.phase = .running ∧ ({ joined with phase := .held } : State).phase ≠ .running ∧
      (joined.ports.get .A = .online (member 1) ∧ (member 1).deadline = joined.clock) ∧
      (joined.ports.get .C = .late (member 3) ∧ (member 3).deadline = joined.clock) ∧
      ((withZone (.handover 50)).zone 31 = some (zoneIn (.handover 50) .hold) ∧
        (zoneIn (.handover 50) .hold).status = .handover (withZone (.handover 50)).clock) ∧
      ((withToken ⟨.A, 1⟩ []).token 15).hold = some ⟨⟨.A, 1⟩, 0, some (withToken ⟨.A, 1⟩ []).clock⟩ ∧
      withMessage.exchange.sessions.get .B = some ⟨0, 16, 255, some withMessage.clock⟩ ∧ (withTimer delayTimer).tickDue = true ∧
      ({ joined with ports := .fill .offline } : State).dueNow = [] ∧
      (farthest.deadlinesAhead ∧ ∃ t, step { farthest with pending := [.cellClockAdvance] } = .next t) :=
  ⟨rfl, by decide, by decide, by decide, by decide, by decide, by decide, rfl, by decide +kernel, deadlinesAhead_farthest, _, rfl⟩

/-- R41's ranges at their bounds, the numbers that 0 and a name choose, and zones with and without a point in common. -/
theorem test_meets_DefineZoneFillsTheRecord :
    (withZone .vacant).serves .A (member 1) ∧ ([0] : List Byte).length ≠ 10 ∧ (15 < (16 : Byte).toNat ∧ (15 : Byte).toNat ≤ 15) ∧
      ((0 : Half).toNat = 0 ∧ (8 : Half).toNat ≠ 0) ∧ (31 < (32 : Byte).toNat ∧ (31 : Byte).toNat ≤ 31) ∧
      (¬ (4 : Half).toNat % 8 = 0 ∧ ((8 : Half).toNat % 8 = 0 ∧ (8 : Half).toNat ≤ 3968 ∧ (4088 : Half).toNat % 8 = 0 ∧
        128 ≤ (4088 : Half).toNat ∧ (4088 : Half).toNat ≤ 4088 ∧ (4088 : Half).toNat + (8 : Half).toNat ≤ 4096)) ∧
      (¬ (929 : Half).toNat ≤ 928 ∧ ((1 : Half).toNat ≤ 928 ∧ 96 ≤ (1023 : Half).toNat ∧ (1023 : Half).toNat ≤ 1023 ∧
        (1023 : Half).toNat + (1 : Half).toNat ≤ 1024)) ∧
      ((withZone .vacant).zone 31 ≠ none ∧ (withZone .vacant).zone 30 = none ∧ (withZone .vacant).zone 1 = none) ∧
      ((withZone .vacant).zone 31 = some (zoneIn .vacant .hold) ∧ (0 < (8 : Half).toNat ∧ 0 < (zoneIn .vacant .hold).bitCount ∧
        (128 : Half).toNat < (zoneIn .vacant .hold).bitFirst + (zoneIn .vacant .hold).bitCount ∧
        (zoneIn .vacant .hold).bitFirst < (128 : Half).toNat + (8 : Half).toNat) ∧
        ∀ z'' < 31, (withZone .vacant).zone z'' = none) ∧
      ((withTimer delayTimer).serves .A (member 1) ∧
        ((withTimer delayTimer).qualify .A 1).timer 31 = some delayTimer ∧ delayTimer.source < 128) := by decide +kernel

/-- No point of zone 31 in a definition of the last bits and the last word. -/
theorem test_meets_DefineZoneFillsTheRecord_apart :
    ∀ z' r', 1 ≤ z' → z' ≤ 31 → (withZone .vacant).zone z' = some r' → ¬ ((0 < 8 ∧ 0 < r'.bitCount ∧
      4088 < r'.bitFirst + r'.bitCount ∧ r'.bitFirst < 4088 + 8) ∨ (0 < 1 ∧ 0 < r'.wordCount ∧
      1023 < r'.wordFirst + r'.wordCount ∧ r'.wordFirst < 1023 + 1)) := by
  intro z' r' _ _ h
  obtain ⟨_, rfl⟩ := zone_of_one rfl h
  decide

theorem test_meets_RetireZoneClearsTheZone :
    let a : AttentionRecord := { AttentionRecord.start with slots := [(0, some (.set 0 .change)), (7, some (.set 31 .change))] }
    let s := { withZone (.owned ⟨.A, 1⟩) with attention := joined.attention.set .B (some a) }
    let r := zoneIn .orphaned .hold
    (([] : List Byte).length ≠ 1 ∧ (0 : Byte).toNat = 0 ∧ 31 < (32 : Byte).toNat ∧ s.zone (1 : Byte).toNat = none) ∧
      (s.serves .A (member 1) ∧ s.zonesInArea ∧ s.zone (31 : Byte).toNat = some (zoneIn (.owned ⟨.A, 1⟩) .hold) ∧
        (zoneIn (.owned ⟨.A, 1⟩) .hold).status = .owned ((member 1).on .A)) ∧
      (⟨.B, 2⟩ : SessionRef) ≠ (member 1).on .A ∧
      ((withZone .orphaned).zonesInArea ∧ (withZone .orphaned).zone 31 = some r ∧ r.status = .orphaned ∧
        portIn .A r.rights = true ∧ portIn .D r.rights = false) ∧
      (zoneIn (.handover 9) .hold).status = .handover 9 ∧
      (s.attention.get .B = some a ∧ Memory.wf none a.slots ∧ a.slot 7 = some (.set 31 .change) ∧
        a.slot 0 = some (.set 0 .change) ∧ (Watch.set 0 .change).zone ≠ (31 : Byte).toNat) :=
  ⟨by decide, ⟨by decide, (laws_withZone _).1, rfl, rfl⟩, by decide, ⟨(laws_withZone _).1, rfl, rfl, rfl, rfl⟩, rfl,
    by decide +kernel⟩

theorem test_meets_PolicyAndSafeImageAreSet :
    let s := withZone (.owned ⟨.A, 1⟩)
    let r := zoneIn (.owned ⟨.A, 1⟩) .hold
    let image : SafeImage := ⟨false, [], []⟩
    (s.serves .A (member 1) ∧ ([31] : List Byte).length ≠ 5 ∧ 2 < (3 : Byte).toNat ∧ 4 < (5 : Byte).toNat ∧
        15 < (16 : Byte).toNat ∧ ((0 : Byte).toNat = 0 ∧ 31 < (32 : Byte).toNat) ∧
        (1 ≤ (31 : Byte).toNat ∧ (31 : Byte).toNat ≤ 31) ∧ s.zone (1 : Byte).toNat = none ∧
        s.zone (31 : Byte).toNat = some r ∧ r.status = .owned ((member 1).on .A)) ∧
      (zoneIn .vacant .hold).status ≠ .owned ((member 1).on .A) ∧
      (portIn .D (0b0111 ||| Port.single .A) = false ∧ portIn .B (0b0010 ||| Port.single .A) = true ∧ Port.B ≠ .A) ∧
      (r.bitCount / 8 + 2 * r.wordCount ≤ 255 ∧ r.bitCount ≤ s.safeFreeBits ∧ r.wordCount ≤ s.safeFreeWords) ∧
      255 < ({ r with wordCount := 128 } : ZoneRecord).bitCount / 8 + 2 * 128 ∧
      ((joined.setZone 31 (some { r with bitCount := 1032 })).safeFreeBits < 1032 ∧ 1032 / 8 + 2 * 1 ≤ 255) ∧
      ((s.setZone 31 (some { r with policy := .substitute image })).zone (31 : Byte).toNat =
          some { r with policy := .substitute image } ∧
        ([255, 1, 2] : List Byte).length = r.bitCount / 8 + 2 * r.wordCount ∧
        ([255, 1] : List Byte).length ≠ r.bitCount / 8 + 2 * r.wordCount) := by decide +kernel

/-- HOLD is no SUBSTITUTE policy: a SUBSTITUTE is entered, and an image has no place. -/
theorem test_meets_PolicyAndSafeImageAreSet_enters :
    PolicyCode.substitute = .substitute ∧ ∀ image, (zoneIn (.owned ⟨.A, 1⟩) .hold).policy ≠ .substitute image :=
  ⟨rfl, fun _ h => by cases h⟩

theorem test_meets_ReadingRequestsChangeNothing :
    (withZone .vacant).serves .A (member 1) ∧ (31 : Byte).toNat ≤ 31 ∧
      (([31, 0] : List Byte) ≠ [] ∧ ([31, 0] : List Byte).length ≤ 8 ∧
        (∀ n ∈ ([31, 0] : List Byte), n.toNat ≤ 31 ∧ (n.toNat = 0 ∨ ((withZone .vacant).zone n.toNat).isSome)) ∧
        (([31, 0] : List Byte).map fun n =>
          if n.toNat = 0 then 218 else ((withZone .vacant).zone n.toNat).elim 0 fun r => 10 + r.imageSize).sum ≤ 508) ∧
      (([4095, 0x83FF] : List Half) ≠ [] ∧ ([4095, 0x83FF] : List Half).length ≤ 32 ∧
        ∀ h ∈ ([4095, 0x83FF] : List Half),
          (h.getLsbD 15 = false → h.toNat < 4096) ∧ (h.getLsbD 15 = true → h.toNat - 32768 < 1024)) ∧
      (withZone .vacant).zone 1 = none ∧ (withZone .vacant).zone 31 = some (zoneIn .vacant .hold) ∧
      (([] : List Byte).length ≠ 1 ∧ ([0] : List Byte) ≠ [] ∧ 8 < (List.replicate 9 (0 : Byte)).length ∧
        ([0] : List Byte).length < 2 ∧ 64 < (List.replicate 66 (0 : Byte)).length ∧ ([0, 0, 0] : List Byte).length % 2 = 1 ∧
        31 < (32 : Byte).toNat ∧ ([0, 31] : List Byte).length + ([32] : List Byte).length < 8) ∧
      508 < (([0, 0, 0] : List Byte).map fun n =>
        if n.toNat = 0 then 218 else ((withZone .vacant).zone n.toNat).elim 0 fun r => 10 + r.imageSize).sum ∧
      (((0x1000 : Half).getLsbD 15 = false ∧ 4096 ≤ (0x1000 : Half).toNat) ∧
        ((0x8400 : Half).getLsbD 15 = true ∧ 1024 ≤ (0x8400 : Half).toNat - 32768)) := by
  refine ⟨by decide, by decide, ⟨by decide, by decide, by decide +kernel, by decide +kernel⟩, ⟨by decide, by decide, ?_⟩,
    by decide, by decide, by decide, by decide +kernel, by decide⟩
  intro h hm
  rw [List.mem_cons, List.mem_singleton] at hm
  obtain rfl | rfl := hm
  · exact ⟨fun _ => by decide, nofun⟩
  · exact ⟨nofun, fun _ => by decide⟩

theorem test_meets_ZoneZeroIsFixed :
    joined.serves .A (member 1) ∧ (∀ b ∈ ([(127, false)] : List (Nat × Bool)), joined.bit b.1 = b.2) ∧
      ((([(127, true), (48, false)] : List (Nat × Bool)).map Prod.fst).Nodup ∧
        (∃ b ∈ ([(127, true), (48, false)] : List (Nat × Bool)), joined.bit b.1 ≠ b.2) ∧
        ∀ n a, (withTimer delayTimer).timer n = some a → ∀ b ∈ ([(127, true), (48, false)] : List (Nat × Bool)),
          a.source ≠ b.1 ∧ a.resetBit ≠ some b.1) := by
  refine ⟨by decide, by decide, by decide, by decide, ?_⟩
  intro n a h
  have h : Memory.read none [(31, some delayTimer)] n = some a := h
  unfold Memory.read at h
  split at h
  · cases h
    decide
  · cases h

theorem test_meets_PublishStoresAndCounts :
    let s := withZone (.owned ⟨.A, 1⟩)
    let body : List Byte := [1, 0, 135, 1, 3, 0, 96, 0x12, 0x34]
    let items : List Points := [⟨[(135, true)], []⟩, ⟨[], [(96, 0x1234)]⟩]
    (s.serves .A (member 1) ∧ body ≠ [] ∧ readItems body.length 1 body = .ok items ∧
        ∀ item ∈ items, s.leavesImage item = false ∧ s.notOwned ((member 1).on .A) item = false) ∧
      ((4088 : Half).toNat % 8 = 0 ∧ 1 ≤ ([255] : List Byte).length ∧ (List.replicate 255 (0 : Byte)).length ≤ 255) ∧
      1 ≤ ([0xFFFF] : List Half).length ∧ (List.replicate 255 (0 : Half)).length ≤ 255 := by decide +kernel

/-- The clauses on watches: one of each kind, at the first definable bit and the last slot. -/
theorem test_meets_PublishStoresAndCounts_watches :
    let a : AttentionRecord := { AttentionRecord.start with slots :=
      [(0, some (.set 31 .change)), (1, some ⟨31, .rise 135, true, 255⟩), (2, some (.set 31 (.fall 128))), (7, some (.set 31 .ownership))] }
    a.slot 0 = some (.set 31 .change) ∧ (Watch.set 31 .change).zone ≠ 0 ∧ a.slot 1 = some ⟨31, .rise 135, true, 255⟩ ∧ 128 ≤ 135 ∧
      a.slot 2 = some (.set 31 (.fall 128)) ∧ 128 ≤ 128 ∧ a.slot 7 = some (.set 31 .ownership) := by decide +kernel

theorem test_meets_PublishIsRefusedByStages :
    let s := withZone (.owned ⟨.B, 2⟩)
    let off : Points := ⟨[(136, true)], []⟩
    let other : Points := ⟨[(128, true)], []⟩
    s.serves .A (member 1) ∧ readItems 4 1 [1, 0, 0, 2] = .error 1 ∧
      ((([1, 0, 128] : List Byte) ≠ [] ∧ ([1, 0, 128] : List Byte).length < 4) ∧
        ((5 : Byte) ≠ 1 ∧ (5 : Byte) ≠ 2 ∧ (5 : Byte) ≠ 3 ∧ (5 : Byte) ≠ 4) ∧ ((2 : Byte) ≠ 0 ∧ (2 : Byte) ≠ 1) ∧
        ((129 : Byte).toNat % 8 ≠ 0 ∧ ([1] : List Byte).length < (2 : Byte).toNat) ∧
        ([1, 2, 3] : List Byte).length < 2 * (2 : Byte).toNat) ∧
      (readItems 4 1 [1, 0, 136, 1] = .ok ([] ++ off :: []) ∧ s.leavesImage off = true) ∧
      (readItems 4 1 [1, 0, 128, 1] = .ok ([] ++ other :: []) ∧ s.notOwned ((member 1).on .A) other = true ∧
        ∀ j ∈ [] ++ other :: [], s.leavesImage j = false) := by decide +kernel

theorem test_meets_ClaimIsDecidedByTheZonesState :
    let s := withZone .vacant
    (([] : List Byte).length ≠ 1 ∧ (0 : Byte).toNat = 0 ∧ 31 < (32 : Byte).toNat ∧
        (1 ≤ (1 : Byte).toNat ∧ (1 : Byte).toNat ≤ 31 ∧ s.zone (1 : Byte).toNat = none) ∧
        portIn .D (zoneIn .vacant .hold).rights = false) ∧
      (s.serves .A (member 1) ∧ 1 ≤ (31 : Byte).toNat ∧ (31 : Byte).toNat ≤ 31 ∧
        s.zone (31 : Byte).toNat = some (zoneIn .vacant .hold) ∧ portIn .A (zoneIn .vacant .hold).rights = true) ∧
      (zoneIn .vacant .hold).status = .vacant ∧ (zoneIn .orphaned .hold).status = .orphaned ∧
      ((withZone (.handover 9)).serves .B (member 2) ∧ (zoneIn (.handover 9) .hold).status = .handover 9 ∧
        (zoneIn (.handover 9) .hold).standby = some .B ∧ portIn .B (zoneIn (.handover 9) .hold).rights = true) ∧
      (zoneIn (.handover 9) .hold).standby ≠ some .A ∧
      (zoneIn (.owned ⟨.A, 1⟩) .hold).status = .owned ((member 1).on .A) ∧
      ((zoneIn (.owned ⟨.B, 2⟩) .hold).status = .owned ⟨.B, 2⟩ ∧ (⟨.B, 2⟩ : SessionRef) ≠ (member 1).on .A) := by decide

theorem test_meets_ReleaseMakesTheZoneVacant :
    let s := withZone (.owned ⟨.A, 1⟩)
    s.serves .A (member 1) ∧ ([] : List Byte).length ≠ 1 ∧ (0 : Byte).toNat = 0 ∧ 31 < (32 : Byte).toNat ∧
      (1 ≤ (1 : Byte).toNat ∧ (1 : Byte).toNat ≤ 31 ∧ s.zone (1 : Byte).toNat = none) ∧
      (s.zone (31 : Byte).toNat = some (zoneIn (.owned ⟨.A, 1⟩) .hold) ∧
        (zoneIn (.owned ⟨.A, 1⟩) .hold).status = .owned ((member 1).on .A)) ∧
      (zoneIn .vacant .hold).status ≠ .owned ((member 1).on .A) := by decide

theorem test_meets_HandOverPassesTheZone :
    let s := withZone (.owned ⟨.A, 1⟩)
    let r := zoneIn (.owned ⟨.A, 1⟩) .hold
    (([31] : List Byte).length ≠ 2 ∧ ((0 : Byte).toNat = 0 ∧ 4 < (5 : Byte).toNat) ∧ 31 < (32 : Byte).toNat ∧
        s.zone (1 : Byte).toNat = none ∧ (zoneIn .vacant .hold).status ≠ .owned ((member 1).on .A)) ∧
      (s.serves .A (member 1) ∧ s.zone (31 : Byte).toNat = some r ∧ r.status = .owned ((member 1).on .A)) ∧
      (portIn .B r.rights = true ∧ Port.B ≠ .A ∧ s.ports.get .B = .online (member 2)) ∧ portIn .D r.rights = false ∧
      portIn .A r.rights = true ∧
      (portIn .C r.rights = true ∧ Port.C ≠ .A ∧ ∀ target, s.ports.get .C ≠ .online target) := by
  refine ⟨by decide, by decide, by decide, by decide, by decide, by decide, by decide, ?_⟩
  intro target h
  cases h

theorem test_meets_TakeoverDeadlineActsOnTheStandby :
    let s := withZone (.handover 50)
    let r := zoneIn (.handover 50) .hold
    (s.zone 31 = some r ∧ r.status = .handover 50 ∧ 50 = s.clock ∧ r.standby = some .B ∧
        s.ports.get .B = .online (member 2)) ∧
      (∀ q mq, ({ r with standby := some Port.C } : ZoneRecord).standby = some q → s.ports.get q ≠ .online mq) ∧
      ∀ r' d, s.zone 31 = some r' → r'.status = .handover d → d ≠ 49 ∧ d ≠ 51 := by
  refine ⟨by decide, ?_, ?_⟩
  · intro q mq h h'
    cases h
    cases h'
  · intro r' d h h'
    cases h
    cases h'
    decide

/-- The state in which session 3 on port C, LATE, owns a CLEAR zone whose standby has no session. -/
def ownerLate : State :=
  joined.setZone 31 (some { zoneIn (.owned ⟨.C, 3⟩) .clear with standby := some .D })

theorem test_meets_LostOwnersClearZoneReadsZero :
    let r : ZoneRecord := { zoneIn (.owned ⟨.C, 3⟩) .clear with standby := some .D }
    let s := withZone (.owned ⟨.A, 1⟩)
    (ownerLate.ports.get .C = .late (member 3) ∧ (member 3).deadline = ownerLate.clock ∧
        (ownerLate.zonesInArea ∧ ownerLate.zonesApart) ∧ ownerLate.zone 31 = some r ∧
        r.status = .owned ((member 3).on .C)) ∧
      (∀ q mq, q ≠ .C → r.standby = some q → ownerLate.ports.get q ≠ .online mq) ∧ portIn .A r.rights = true ∧
      (s.serves .A (member 1) ∧ (1 : Byte) ≠ 0 ∧ (s.zonesInArea ∧ s.zonesApart) ∧
        s.zone 31 = some (zoneIn (.owned ⟨.A, 1⟩) .hold) ∧ (zoneIn (.owned ⟨.A, 1⟩) .hold).standby = some .B ∧
        s.ports.get .B = .online (member 2) ∧ (zoneIn (.owned ⟨.A, 1⟩) .hold).delay = 0) ∧
      ({ r with delay := 255 } : ZoneRecord).delay ≠ 0 := by
  refine ⟨⟨rfl, by decide, laws_of_one rfl (by decide) (by decide) rfl, rfl, rfl⟩, ?_, by decide,
    ⟨by decide, by decide, laws_withZone _, rfl, rfl, rfl, rfl⟩, by decide⟩
  intro q mq _ h h'
  cases h
  cases h'

/-- The clauses of `ZoneRecord.policyLeaves`, at the last point of a zone. -/
theorem test_meets_policyLeaves :
    let g : SafeImage := ⟨true, [true, false, true, false, true, false, true, false], [7]⟩
    let r := zoneIn .vacant (.substitute g)
    (zoneIn .vacant .hold).policy = .hold ∧ r.hasBit 135 = true ∧ r.hasWord 96 = true ∧
      (zoneIn .vacant .clear).policy = .clear ∧
      (zoneIn .vacant (.substitute ⟨false, [], []⟩)).policy = .substitute ⟨false, [], []⟩ ∧
      (r.policy = .substitute g ∧ g.loaded = true ∧ 7 < r.bitCount ∧ g.bits[7]? = some false ∧ 0 < r.wordCount ∧
        g.words[0]? = some 7) := by decide

theorem test_meets_AcquireIsDecidedByTheTokensState :
    let s := withToken ⟨.B, 2⟩ []
    s.serves .A (member 1) ∧ ([0] : List Byte).length ≠ 2 ∧ 1 < (2 : Byte).toNat ∧
      ((1 : Byte).toNat ≤ 1 ∧ 15 < (16 : Byte).toNat) ∧ (15 : Byte).toNat ≤ 15 ∧ (joined.token 15).hold = none ∧
      ((s.token 15).hold = some ⟨⟨.B, 2⟩, 0, some 50⟩ ∧ (⟨.B, 2⟩ : SessionRef) = (member 2).on .B) ∧
      ((⟨.B, 2⟩ : SessionRef) ≠ (member 1).on .A ∧ s.waitsFor .A = none ∧ s.deadlock .A 4 .B = none) ∧
      (withToken ⟨.B, 2⟩ [⟨.A, 1⟩]).waitsFor .A = some 15 ∧
      ((withToken ⟨.A, 1⟩ [⟨.B, 2⟩]).waitsFor .A = none ∧ (withToken ⟨.A, 1⟩ [⟨.B, 2⟩]).deadlock .A 4 .B = some 15) := by
  decide +kernel

/-- A state's tokens are lawful where only finitely many facts about tokens 0 to 15 hold and no wait leads back. -/
theorem tokensLawful_of {s : State} (level : Port → Nat)
    (h : ∀ t < 16, let k := s.token t
      (k.hold = none → k.waiters = []) ∧
        (∀ h ∈ k.hold, k.broken = false ∧ s.session h.holder.port = some h.holder ∧
          ∀ w ∈ k.waiters, level h.holder.port < level w.port) ∧
        (∀ w ∈ k.waiters, s.session w.port = some w) ∧ (k.waiters.map SessionRef.port).Nodup)
    (h' : ∀ t < 16, ∀ u < 16, t ≠ u → ∀ w ∈ (s.token t).waiters, ∀ v ∈ (s.token u).waiters, w.port ≠ v.port) :
    s.tokensLawful := by
  refine ⟨fun t ht => ⟨(h t ht).1, fun g hg => ⟨((h t ht).2.1 g hg).1, ((h t ht).2.1 g hg).2.1⟩, (h t ht).2.2⟩,
    fun t u ht hu => h' t ht u hu, fun p hp => ?_⟩
  have down : ∀ q, Relation.TransGen s.waitsOn p q → level q < level p := by
    intro q hq
    induction hq with
    | single e =>
      obtain ⟨t, g, ht, ⟨w, hw, rfl⟩, hg, rfl⟩ := e
      exact ((h t ht).2.1 g hg).2.2 w hw
    | tail _ e ih =>
      obtain ⟨t, g, ht, ⟨w, hw, rfl⟩, hg, rfl⟩ := e
      exact lt_trans (((h t ht).2.1 g hg).2.2 w hw) ih
  exact lt_irrefl _ (down p hp)

/-- The clauses of R106: the chain from the holder B over C to a token of A, a port that waits, and a holder that does not. -/
theorem test_meets_AcquireIsDecidedByTheTokensState_chain :
    (chained.serves .A (member 1) ∧ chained.tokensLawful ∧ (chained.token 15).hold = some ⟨⟨.B, 2⟩, 0, none⟩ ∧
        (∀ d < 16, ∀ w ∈ (chained.token d).waiters, w.port ≠ .A) ∧
        Relation.ReflTransGen chained.waitsOn .B .C ∧ (∃ w ∈ (chained.token 13).waiters, w.port = .C) ∧
        (chained.token 13).hold = some ⟨⟨.A, 1⟩, 0, none⟩) ∧
      (chained.serves .B (member 2) ∧ (⟨.B, 2⟩ : SessionRef) ∈ (chained.token 14).waiters) ∧
      ¬ Relation.TransGen (withToken ⟨.B, 2⟩ []).waitsOn .B .A := by
  refine ⟨⟨by decide +kernel, tokensLawful_of (fun q => if q = .B then 3 else q.index) (by decide +kernel) (by decide +kernel), by decide +kernel,
    by decide +kernel, .single ⟨14, ⟨⟨.C, 3⟩, 0, none⟩, by decide, ⟨⟨.B, 2⟩, by decide +kernel, rfl⟩, by decide +kernel, rfl⟩,
    ⟨⟨.C, 3⟩, by decide +kernel, rfl⟩, by decide +kernel⟩, ⟨by decide +kernel, by decide +kernel⟩, fun h => ?_⟩
  obtain ⟨q, ⟨t, g, ht, ⟨w, hw, _⟩, _⟩, _⟩ := Relation.TransGen.head'_iff.mp h
  have none : ∀ t < 16, ((withToken ⟨.B, 2⟩ []).token t).waiters = [] := by decide +kernel
  rw [none t ht] at hw
  cases hw

theorem test_meets_ReleaseTokenPassesToTheHead :
    let s := withToken ⟨.A, 1⟩ [⟨.B, 2⟩]
    s.serves .A (member 1) ∧ ([] : List Byte).length ≠ 1 ∧ 15 < (16 : Byte).toNat ∧ (15 : Byte).toNat ≤ 15 ∧
      ((s.token 15).hold = some ⟨⟨.A, 1⟩, 0, some 50⟩ ∧ (⟨.A, 1⟩ : SessionRef) = (member 1).on .A ∧
        (s.token 15).waiters = [⟨.B, 2⟩] ∧ (⟨.B, 2⟩ : SessionRef) ≠ (member 1).on .A) ∧
      ((withToken ⟨.A, 1⟩ []).token 15).waiters = [] ∧
      (((withToken ⟨.B, 2⟩ []).token 15).hold = some ⟨⟨.B, 2⟩, 0, some 50⟩ ∧ (⟨.B, 2⟩ : SessionRef) ≠ (member 1).on .A) ∧
      (joined.token 0).hold = none := by decide +kernel

theorem test_meets_CancelWaitLeavesTheList :
    let s := withToken ⟨.A, 1⟩ [⟨.B, 2⟩, ⟨.C, 3⟩]
    s.serves .C (member 3) ∧ ([0] : List Byte) ≠ [] ∧ (∀ t < 16, ∀ w ∈ (joined.token t).waiters, w.port ≠ .C) ∧
      ((s.token 15).waiters = [⟨.B, 2⟩] ++ (member 3).on .C :: [] ∧
        (∀ w ∈ ([⟨.B, 2⟩] ++ [] : List SessionRef), w.port ≠ .C) ∧
        ∀ t' < 16, t' ≠ 15 → ∀ w ∈ (s.token t').waiters, w.port ≠ .C) := by decide +kernel

theorem test_meets_SetTokenLimitKeepsTheHold :
    joined.serves .A (member 1) ∧ ([0, 1, 2] : List Byte).length ≠ 2 ∧ 15 < (16 : Byte).toNat ∧ (15 : Byte).toNat ≤ 15 := by
  decide

theorem test_meets_HoldDeadlineRevokesTheToken :
    let s := withToken ⟨.A, 1⟩ [⟨.B, 2⟩]
    ((s.token 15).hold = some ⟨⟨.A, 1⟩, 0, some 50⟩ ∧ 50 = s.clock ∧
        (∀ w ∈ (s.token 15).waiters, w.port ≠ .A) ∧ (s.token 15).waiters = ⟨.B, 2⟩ :: []) ∧
      ((withToken ⟨.A, 1⟩ []).token 15).waiters = [] ∧
      ∀ h d, (s.token 15).hold = some h → h.deadline = some d → d ≠ 49 ∧ d ≠ 51 := by
  refine ⟨by decide, by decide, ?_⟩
  intro h d e e'
  cases e
  cases e'
  decide

theorem test_meets_SetTimerArmsTheTimer :
    let s := { withZone .vacant with timers := [(0, some { delayTimer with kind := .offDelay, resetBit := some 31 }),
      (30, some { delayTimer with session := some ⟨.B, 2⟩ })] }
    (s.serves .A (member 1) ∧ ([31] : List Byte).length ≠ 9 ∧ 2 < (3 : Byte).toNat ∧ (0 : Half) ≠ 0xFFFF ∧
        31 < (32 : Byte).toNat ∧ (31 : Byte).toNat ≤ 31 ∧ ((0 : Half).toNat = 0 ∧ 30000 < (30001 : Half).toNat) ∧
        (1 ≤ (1 : Half).toNat ∧ (30000 : Half).toNat ≤ 30000)) ∧
      ((127 : Half).toNat < 128 ∧ ¬ (136 : Half).toNat < 128 ∧ ((135 : Half).toNat < 4096 ∧
        s.zone 31 = some (zoneIn .vacant .hold) ∧ (zoneIn .vacant .hold).hasBit (135 : Half).toNat = true ∧
        (zoneIn .vacant .hold).hasBit (136 : Half).toNat = false)) ∧
      (s.timer (30 : Byte).toNat = some { delayTimer with session := some ⟨.B, 2⟩ } ∧
        (⟨.B, 2⟩ : SessionRef) ≠ (member 1).on .A ∧ s.timer (31 : Byte).toNat = none) ∧
      ((0 : Half).toNat < 32 ∧ s.timer 0 = some { delayTimer with kind := .offDelay, resetBit := some 31 } ∧
        ({ delayTimer with resetBit := some 31 } : Armed).resetBit = some (31 : Byte).toNat) ∧
      (timerDone (joined.timer 31) = false ∧ timerCount (joined.timer 31) = 0 ∧ joined.bit 127 = false) := by decide +kernel

theorem test_meets_ResetAndFreeTimer :
    let a : Armed := { delayTimer with count := 2, done := true, phase := .done, resetBit := some 101 }
    let s := { withTimer a with bits := [(31, true), (100, true)], words := [(31, 2)] }
    s.serves .A (member 1) ∧ (([] : List Byte).length ≠ 1 ∧ 31 < (32 : Byte).toNat ∧ (31 : Byte).toNat ≤ 31) ∧
      ((s.qualify .A 1).timer (31 : Byte).toNat = some a ∧ a.session = some ((member 1).on .A)) ∧
      ((s.qualify .A 1).showsTimers ∧ 32 ≤ a.source ∧ ∀ b, a.resetBit = some b → 32 ≤ b) ∧
      ({ a with session := none } : Armed).session = none ∧ s.timer (0 : Byte).toNat = none ∧
      (s.serves .B (member 2) ∧ s.timer (31 : Byte).toNat = some a ∧ a.session = some ⟨.A, 1⟩ ∧
        (⟨.A, 1⟩ : SessionRef) ≠ (member 2).on .B) := by
  refine ⟨by decide, by decide, by decide +kernel, ⟨showsTimers_of (by decide +kernel), by decide, ?_⟩, rfl, by decide,
    by decide⟩
  intro b h
  cases h
  decide

theorem test_meets_TickCountsTheTimingTimers :
    let s := withTimer delayTimer
    joined.tickDue = false ∧ s.tickDue = true ∧
      (s.timer 31 = some delayTimer ∧ s.clock.toNat % delayTimer.base.ms = 0 ∧ delayTimer.phase = .timing ∧
        delayTimer.resetBit = none ∧ delayTimer.timingSince ≠ s.clock ∧
        (delayTimer.count + 1).toNat < delayTimer.preset.toNat ∧ 32 ≤ delayTimer.source) ∧
      (∀ n < 32, s.bit n = timerDone (s.timer n) ∧ s.word n = timerCount (s.timer n)) ∧
      (∀ n < 31, s.timer n = none) ∧
      ({ delayTimer with count := 1 } : Armed).count + 1 = delayTimer.preset := by decide +kernel

/-- The last clause of the statement: edges of source and reset bits by one PUBLISH. -/
theorem test_meets_TickCountsTheTimingTimers_edges :
    let s := { withZone (.owned ⟨.A, 1⟩) with
      bits := [(129, true), (131, true)]
      timers := [(31, some { delayTimer with source := 128, resetBit := some 129, phase := .idle })] }
    let body : List Byte := [2, 0, 128, 1, 0b10110000]
    let items : List Points := [⟨[(128, true), (129, false), (130, true), (131, true), (132, false), (133, false),
      (134, false), (135, false)], []⟩]
    let after := fun i => (((items.flatMap Points.bits).reverse.find? fun b => b.1 == i).map Prod.snd).getD (s.bit i)
    (s.hears .A ∧ s.ports.get .A = .online (member 1) ∧ body ≠ [] ∧ readItems body.length 1 body = .ok items ∧
        ∀ item ∈ items, s.leavesImage item = false ∧ s.notOwned ((member 1).on .A) item = false) ∧
      (s.bit 128 = false ∧ after 128 = true) ∧ (s.bit 129 = true ∧ after 129 = false) ∧
      (s.bit 131 = true ∧ after 131 = true) ∧ (s.bit 132 = false ∧ after 132 = false) ∧
      s.timer 31 = some { delayTimer with source := 128, resetBit := some 129, phase := .idle } ∧
      s.timer 0 = none ∧ (∀ n < 32, s.bit n = timerDone (s.timer n) ∧ s.word n = timerCount (s.timer n)) := by decide +kernel

/-- The message's state with words 54 to 58 as R140 has them. -/
def shownMessage : State := { withMessage with words := [(54, 63), (56, 1)] }

/-- R140 in that state. -/
theorem showsExchange_shownMessage : shownMessage.showsExchange := by
  refine ⟨by decide +kernel, fun p => ?_⟩
  cases p <;> decide +kernel

theorem test_meets_SendPostsTheMessage :
    (([1] : List Byte).length < 2 ∧ (0 : Byte).toNat = 0 ∧ (4 < (254 : Byte).toNat ∧ (254 : Byte).toNat < 255) ∧
        3 < (4 : Byte).toNat ∧ 60 < (List.replicate 61 (0 : Byte)).length ∧ (List.replicate 60 (0 : Byte)).length ≤ 60) ∧
      (joined.session .D = none ∧ ∀ q, q ≠ .A → ({ joined with ports := ⟨.online (member 1), .offline, .lost, .offline⟩ } :
        State).session q = none) ∧
      (joined.serves .A (member 1) ∧ (joined.session .B).isSome ∧ Port.B ≠ .A ∧ (joined.session .A).isSome) ∧
      24 ≤ ({ joined with exchange := { joined.exchange with sessions := ⟨some ⟨24, 1, 0, none⟩, none, none, none⟩ } } :
        State).quota .A ∧
      joined.quota .A < 24 ∧ joined.exchange.free = 0 :: (List.range 63).map (· + 1) ∧
      (shownMessage.serves .A (member 1) ∧ shownMessage.showsExchange) := by
  refine ⟨by decide, ⟨by decide, fun q hq => ?_⟩, by decide, by decide, by decide, by decide +kernel, by decide,
    showsExchange_shownMessage⟩
  cases q <;> first | exact absurd rfl hq | rfl

theorem test_meets_ReceiveTakesTheHead :
    (joined.serves .B (member 2) ∧ joined.exchange.urgent.get .B = [] ∧ joined.exchange.normal.get .B = []) ∧
      (withMessage.serves .B (member 2) ∧ withMessage.buffer 0 = some message ∧ withMessage.exchange.urgent.get .B = [] ∧
        withMessage.exchange.normal.get .B = ⟨0, .direct⟩ :: [] ∧ message.references ≤ 1) ∧
      2 ≤ ({ message with references := 2 } : Buffer).references ∧ shownMessage.serves .B (member 2) ∧
      ([0] : List Byte) ≠ [] := by decide +kernel

theorem test_meets_FlushQueueEmptiesTheNamedQueues :
    let leaving : List Entry := [⟨0, .direct⟩]
    shownMessage.serves .B (member 2) ∧ flushCode 1 = some (true, false) ∧ flushCode 3 = some (true, true) ∧
      (flushCode 2 = some (false, true) ∧ shownMessage.exchange.normal.get .B = leaving ∧
        ∀ e ∈ leaving, ∃ k, shownMessage.buffer e.buffer = some k ∧
          (leaving.filter fun f => f.buffer == e.buffer).length ≤ k.references) ∧
      (message.returnFlag = true ∧ shownMessage.session .A = some message.sender ∧ message.sender.port ≠ .B) ∧
      (([] : List Byte).length ≠ 1 ∧ (0 : Byte).toNat = 0 ∧ 3 < (4 : Byte).toNat) := by
  refine ⟨by decide, by decide, by decide, ⟨by decide, by decide, ?_⟩, by decide, by decide⟩
  intro e he
  rw [List.mem_singleton] at he
  subst he
  exact ⟨message, by decide, by decide⟩

theorem test_meets_CoalescingIsSetAndExpires :
    let depth := (withMessage.exchange.normal.get .B).length
    withMessage.serves .B (member 2) ∧ ([1] : List Byte).length ≠ 2 ∧ ((0 : Byte).toNat = 0 ∧ 16 < (17 : Byte).toNat) ∧
      (1 ≤ (1 : Byte).toNat ∧ (1 : Byte).toNat ≤ 16 ∧ (1 : Byte).toNat ≤ depth) ∧
      ((16 : Byte).toNat ≤ 16 ∧ depth < (2 : Byte).toNat ∧ depth ≠ 0 ∧ (1 : Byte) ≠ 0) ∧
      (withMessage.exchange.sessions.get .B = some ⟨0, 16, 255, some 50⟩ ∧ 50 = withMessage.clock ∧
        withMessage.exchange.normal.get .B ≠ []) ∧
      ∀ e d, withMessage.exchange.sessions.get .B = some e → e.deadline = some d → d ≠ 49 ∧ d ≠ 51 := by
  refine ⟨by decide, by decide, by decide, by decide, by decide, by decide, ?_⟩
  intro e d h h'
  cases h
  cases h'
  decide

theorem test_meets_WatchesAreSetAndCleared :
    let a : AttentionRecord := { AttentionRecord.start with slots := [(7, some (.set 0 .change))] }
    withWatch.serves .A (member 1) ∧ ([] : List Byte).length ≠ 5 ∧ 7 < (8 : Byte).toNat ∧ 3 < (4 : Byte).toNat ∧
      31 < (32 : Byte).toNat ∧ withWatch.zone (31 : Byte).toNat = none ∧ 128 ≤ (128 : Half).toNat ∧
      ((withZone .vacant).zone (31 : Byte).toNat = some (zoneIn .vacant .hold) ∧
        (zoneIn .vacant .hold).hasBit (136 : Half).toNat = false) ∧
      ((7 : Byte).toNat ≤ 7 ∧ (withWatch.qualify .A 1).attention.get .A = some a ∧
        watchKindOf 1 127 = some (.rise 127) ∧ (0 : Byte).toNat ≤ 31 ∧ 127 < 128) ∧
      (a.slots.read none (7 : Byte).toNat = some (.set 0 .change) ∧ a.slots.read none (0 : Byte).toNat = none) ∧
      (withWatch.attention.get .A = some a ∧ Memory.wf none a.slots ∧ a.slot 7 = some (.set 0 .change) ∧
        decide ((Watch.set 0 .change).zone ∈ [0, 31]) = true ∧ withWatch.attention.get .D = none) := by
  decide +kernel

theorem test_meets_ReadAttentionReportsAndClears :
    withMessage.serves .B (member 2) ∧ (withMessage.qualify .B 2).attention.get .B = some .start ∧
      withMessage.exchange.sessions.get .B = some ⟨0, 16, 255, some 50⟩ ∧ ([0] : List Byte) ≠ [] := by decide +kernel

theorem test_meets_MaskDecidesTheLevel :
    joined.serves .A (member 1) ∧ ([] : List Byte).length ≠ 1 ∧ 63 < (64 : Byte).toNat ∧ (63 : Byte).toNat ≤ 63 ∧
      (joined.qualify .A 1).attention.get .A = some .start := by decide +kernel

/-- A state with one fault, its points as R173 has them. -/
def shownFault : State := { withFaults [1] with bits := [(60, true), (61, true)], words := [(52, 1)] }

/-- R173 in that state. -/
theorem showsFaults_shownFault : shownFault.showsFaults := by
  refine ⟨⟨?_, ?_, ?_, ?_⟩, ?_, ?_⟩ <;> decide +kernel

theorem test_meets_RaiseFaultRepeatsAppendsOrIsRefused :
    let full := withFaults ((List.range 16).map fun k => BitVec.ofNat 16 (k + 1))
    joined.serves .A (member 1) ∧ ([] : List Byte).length ≠ 2 ∧ (0 : Half).toNat = 0 ∧ 4031 < (4032 : Half).toNat ∧
      (1 ≤ (4031 : Half).toNat ∧ (4031 : Half).toNat ≤ 4031) ∧
      ((withFaults [1, 2]).faults = [faultEntry 1 false] ++ faultEntry 2 false :: [] ∧ (faultEntry 2 false).number = 2 ∧
        ∀ f ∈ [faultEntry 1 false] ++ ([] : List FaultEntry), f.number ≠ 2) ∧
      ((∀ f ∈ joined.faults, f.number ≠ 4031) ∧ joined.faults.length < 16) ∧
      ((∀ f ∈ full.faults, f.number ≠ 4031) ∧ 16 ≤ full.faults.length) ∧
      (shownFault.serves .A (member 1) ∧ shownFault.showsFaults) :=
  ⟨by decide, by decide, by decide, by decide, by decide, by decide +kernel, by decide, by decide +kernel, by decide,
    showsFaults_shownFault⟩

theorem test_meets_FaultsAreClearedAndAcknowledged :
    let s := { withZone .orphaned with faults := [faultEntry 4063 true, faultEntry 4083 false] }
    s.serves .A (member 1) ∧ (([] : List Byte).length ≠ 2 ∧ (0 : Half).toNat = 0 ∧ 4095 < (4096 : Half).toNat) ∧
      ((4095 : Half).toNat ≤ 4095 ∧ (4095 : Half) ≠ 0 ∧ ∀ f ∈ s.faults, f.number ≠ 4095) ∧
      ((∃ f ∈ s.faults, f.number = 4063) ∧ (4063 : Half).toNat = 4032 + 31 ∧
        s.zone 31 = some (zoneIn .orphaned .hold) ∧ (zoneIn .orphaned .hold).status = .orphaned) ∧
      ((∃ f ∈ s.faults, f.number = 4083) ∧ (4083 : Half).toNat = 4080 + Port.index .D ∧ s.ports.get .D = .lost) ∧
      (shownFault.serves .A (member 1) ∧ (∃ f ∈ shownFault.faults, f.number = 1) ∧ 1 ≤ (1 : Half).toNat ∧
        (1 : Half).toNat < 4032) := by decide +kernel

theorem test_meets_WarmResetKeepsAndDrops :
    let full := withFaults ((List.range 16).map fun k => BitVec.ofNat 16 (k + 1))
    let a : Armed := { delayTimer with kind := .retain, count := 2, resetBit := some 127 }
    joined.phase = .running ∧ ({ joined with phase := .held } : State).phase ≠ .running ∧
      ((withZone (.owned ⟨.A, 1⟩)).zone 31 = some (zoneIn (.owned ⟨.A, 1⟩) .hold) ∧ (withZone .vacant).zone 1 = none ∧
        (withZone .vacant).zonesInArea ∧ (withZone .vacant).zonesApart) ∧
      ((withTimer a).timer 31 = some a ∧ 32 ≤ a.source ∧ ∀ b, a.resetBit = some b → 32 ≤ b) ∧
      ((withFaults [1, 4088]).faults = [faultEntry 1 false] ++ faultEntry 4088 false :: [] ∧
        (faultEntry 4088 false).number = 4088 ∧ ∀ f ∈ [faultEntry 1 false] ++ ([] : List FaultEntry), f.number ≠ 4088) ∧
      ((∀ f ∈ (withFaults [1]).faults, f.number ≠ 4088) ∧ (withFaults [1]).faults.length < 16) ∧
      ((∀ f ∈ full.faults, f.number ≠ 4088) ∧ 16 ≤ full.faults.length) ∧ shownFault.showsFaults := by
  refine ⟨rfl, by decide, ⟨by decide, by decide, laws_withZone _⟩, ⟨by decide, by decide, ?_⟩, by decide +kernel,
    by decide +kernel, by decide +kernel, showsFaults_shownFault⟩
  intro b h
  cases h
  decide

theorem test_meets_PartLeavesItsResets :
    ({ joined with phase := .held } : State).phase = .held ∧ joined.phase ≠ .held ∧
      ({ joined with phase := .powerOn } : State).phase = .powerOn ∧ joined.phase ≠ .powerOn ∧
      (State.reset.phase = .running ∧ State.reset.freeWordDue = true ∧ State.reset.exchange.free = List.range 64) ∧
      ({ joined with freeWordDue := false } : State).freeWordDue = false := by decide +kernel

theorem test_meets_RequestsReachTheirBlocksAlone :
    ∃ t, exec (Kind.command .ping .A 0 1 []) joined = .next t ∧ Block.zones ∉ requestBlocks .A ++ requestReaches .ping :=
  ⟨_, rfl, by decide⟩

theorem test_meets_EventsReachTheirBlocksAlone :
    (∀ k p tag session body, Instr.timerTick ≠ Kind.command k p tag session body) ∧
      ∃ t, exec .timerTick joined = .next t ∧ Block.zones ∉ eventReaches .timerTick := by
  refine ⟨?_, _, rfl, by decide⟩
  intro k p tag session body h
  cases k <;> cases h

theorem test_meets_TablesStayCanonical :
    (State.reset.canonical ∧ ∃ t, step State.reset = .next t) ∧
      ∃ s, s = withToken ⟨.A, 1⟩ [⟨.B, 2⟩, ⟨.C, 3⟩] ∧ s.tokensLawful ∧ ∃ t, step s = .next t := by
  refine ⟨⟨⟨by decide, by decide, by decide, by decide, by decide, by decide, ?_⟩, _, rfl⟩, _, rfl,
    tokensLawful_of Port.index (by decide +kernel) (by decide +kernel), _, rfl⟩
  intro p r h
  cases p <;> cases h

/-- The laws of the exchange in the state of one message. -/
theorem exchangeLawful_shownMessage : shownMessage.exchangeLawful := by
  have one : ∀ b, shownMessage.buffer b = if b = 0 then some message else none := by
    intro b
    show Memory.read none [(0, some message)] b = _
    unfold Memory.read
    by_cases h : b = 0
    · rw [if_pos h, if_pos h.symm]
    · rw [if_neg h, if_neg fun e => h e.symm]
      rfl
  refine ⟨fun b k h => ?_, fun b h => ?_, ⟨by decide +kernel, fun b => ?_⟩, fun p h => ?_, fun p r e h h' => ?_⟩
  · rw [one b] at h
    split at h
    · cases h
      subst b
      decide +kernel
    · cases h
  · rw [one b] at h
    split at h
    · cases h
    · rename_i ne
      have : ((0 : Nat) == b) = false := beq_eq_false_iff_ne.mpr fun e => ne e.symm
      simp [State.entriesOf, Port.all, shownMessage, withMessage, joined, State.reset, State.powerOn, PerPort.get,
        Exchange.reset, PerPort.fill, this]
  · rw [one b]
    show b ∈ (List.range 63).map (· + 1) ↔ b < 64 ∧ _
    rw [List.mem_map]
    constructor
    · rintro ⟨a, ha, rfl⟩
      rw [List.mem_range] at ha
      exact ⟨by omega, by rw [if_neg (by omega)]⟩
    · rintro ⟨h1, h2⟩
      split at h2
      · cases h2
      · exact ⟨b - 1, List.mem_range.mpr (by omega), by omega⟩
  · cases p <;> first | exact ⟨rfl, rfl⟩ | cases h
  · cases p <;> cases h <;> cases h' <;> decide +kernel

theorem test_meets_LevelsFollowTheirCauses :
    (joined.attentive ∧ ∃ t, step joined = .next t) ∧ shownMessage.exchangeLawful ∧
      (∀ b k, shownMessage.buffer b = some k → k.sender.number ≠ seqNext shownMessage.sessionCounter) ∧
      ∃ t, step shownMessage = .next t := by
  refine ⟨⟨?_, _, rfl⟩, exchangeLawful_shownMessage, ?_, _, rfl⟩
  · intro p
    cases p <;> refine ⟨rfl, rfl, ?_⟩ <;> intro r h <;> cases h <;> rfl
  · intro b k h
    have h : Memory.read none [(0, some message)] b = some k := h
    unfold Memory.read at h
    split at h
    · cases h
      decide
    · cases h

theorem test_meets_ZonesStayLawful :
    ownerLate.zonesLawful ∧ ownerLate.showsTimers ∧ ownerLate.showsExchangeOnceWritten ∧
      (shownMessage.zonesLawful ∧ ({ shownMessage with freeWordDue := false } : State).showsExchangeOnceWritten) ∧
      ∃ t, step ownerLate = .next t := by
  have w := laws_of_one (s := ownerLate) rfl (by decide) (by decide) rfl
  refine ⟨⟨w.1, w.2, fun z r h => ?_⟩, showsTimers_of (by decide +kernel), ⟨nofun, fun p => ?_⟩,
    ⟨laws_of_none rfl, fun _ => showsExchange_shownMessage, showsExchange_shownMessage.2⟩, _, rfl⟩
  · obtain ⟨_, rfl⟩ := zone_of_one rfl h
    rfl
  · cases p <;> decide +kernel

theorem test_meets_FaultListStaysLawful :
    ((withFaults [1, 2]).faultsLawful ∧ ∃ t, step (withFaults [1, 2]) = .next t) ∧ shownFault.zonesLawful ∧
      shownFault.showsFaults ∧ ∃ t, step shownFault = .next t :=
  ⟨⟨⟨by decide, by decide +kernel, by decide⟩, _, rfl⟩, laws_of_none rfl, showsFaults_shownFault, _, rfl⟩

end Sys2Proof.Tests
end

section
/-! The port link (chapter 1): the status byte read back field by field, and what a selection captures. -/

namespace Sys2Proof.Machine

/-! ## The status byte -/

theorem flagNat_lt_two (b : Bool) : flagNat b < 2 := by cases b <;> decide

theorem natByte_getLsbD {n k : Nat} {b : Bool} (hk : k < 8) (hn : n / 2 ^ k % 2 = flagNat b) :
    (natByte n).getLsbD k = b := by
  rw [natByte, BitVec.getLsbD_ofNat, Nat.testBit_eq_decide_div_mod_eq, hn]
  cases b <;> simp [flagNat, hk]

/-- R183: the weights 128 to 4 put six flags in the places 7 to 2, and leave the places 1 and 0 to the port's index: what
stands below a flag never carries into it. -/
theorem natByte_statusFields (reply attn session late discarded refused : Bool) {index : Nat} (hindex : index < 4) :
    let b := natByte (128 * flagNat reply + 64 * flagNat attn + 32 * flagNat session + 16 * flagNat late +
      8 * flagNat discarded + 4 * flagNat refused + index)
    b.getLsbD 7 = reply ∧ b.getLsbD 6 = attn ∧ b.getLsbD 5 = session ∧ b.getLsbD 4 = late ∧
      b.getLsbD 3 = discarded ∧ b.getLsbD 2 = refused ∧ (b.extractLsb' 0 2).toNat = index := by
  have hreply := flagNat_lt_two reply
  have hattn := flagNat_lt_two attn
  have hsession := flagNat_lt_two session
  have hlate := flagNat_lt_two late
  have hdiscarded := flagNat_lt_two discarded
  have hrefused := flagNat_lt_two refused
  refine ⟨?_, ?_, ?_, ?_, ?_, ?_, ?portIndex⟩
  case portIndex =>
    rw [natByte, BitVec.extractLsb'_toNat, BitVec.toNat_ofNat, Nat.shiftRight_zero]
    omega
  all_goals exact natByte_getLsbD (by decide) (by omega)

/-- R3: the seven fields of a port's status byte are the state's own values. -/
theorem State.statusByte_fields (s : State) (p : Port) :
    (s.statusByte p).getLsbD 7 = (s.links.get p).reply.isSome ∧ (s.statusByte p).getLsbD 6 = s.atn p ∧
      (s.statusByte p).getLsbD 5 = (s.ports.get p).session.isSome ∧
      (s.statusByte p).getLsbD 4 = (s.ports.get p).isLate ∧
      (s.statusByte p).getLsbD 3 = (s.links.get p).discarded ∧
      (s.statusByte p).getLsbD 2 = (s.links.get p).refused ∧ ((s.statusByte p).extractLsb' 0 2).toNat = p.index :=
  natByte_statusFields _ _ _ _ _ _ (Port.index_lt p)

/-! ## The start of a selection -/

theorem exec_selectionStart (p : Port) (s : State) : exec (.selectionStart p) s = execSelectionStart p s := rfl

/-- R2: an IDLE link of a running part takes the selection, with the status byte of the state it starts in. -/
theorem exec_selectionStart_running {s : State} {p : Port} (hidle : (s.links.get p).selection = .idle)
    (hrun : s.phase = .running) :
    exec (.selectionStart p) s = .next (s.setLink p ((s.links.get p).select (s.statusByte p))) := by
  simp only [exec_selectionStart, execSelectionStart, hidle, hrun, if_true]

@[simp] theorem Link.select_captured (l : Link) (status : Byte) : (l.select status).captured = some status := rfl

/-- Settles O5: the byte that the selection captures is the status byte of the state at its start, whose fields
`State.statusByte_fields` reads back. -/
theorem statusByteReportsSevenFields : Obligations.StatusByteReportsSevenFields := by
  intro s p hidle hrun
  have hcaptured : ((s.setLink p ((s.links.get p).select (s.statusByte p))).links.get p).captured =
      some (s.statusByte p) := by simp
  exact ⟨_, _, exec_selectionStart_running hidle hrun, hcaptured, s.statusByte_fields p⟩

end Sys2Proof.Machine
end

section
/-! PING at the session monitor (chapter 2, R30). -/

namespace Sys2Proof.Machine

/-! ## The fence of a kind (R24) -/

/-- R24: a kind whose service stands behind the fence is refused NO_SESSION on a port without the session that it names:
the monitor's part does nothing there, and the fence answers in the service's place. -/
theorem fencedOff_of_serviceOf {k : Kind} {serve : List Byte → SessionRef → State → State × Answer}
    (hk : ∀ p session body, serviceOf k p session body = fenced p session (serve body)) : k.fencedOff := by
  intro s p tag session body hhears hother
  rw [exec_command, State.request_of_hears s p hhears]
  dsimp only
  rw [State.qualify_other s p session hother, hk, fenced_of_not p session s (serve body) hother]
  cases (s.ports.get p).session <;> rfl

/-! ## PING (R30) -/

theorem serviceOf_ping (p : Port) (session : Half) (body : List Byte) :
    serviceOf .ping p session body = fenced p session (servePing · body) := rfl

@[simp] theorem servePing_nil (who : SessionRef) (s : State) :
    servePing who [] s = (s, ⟨.done, s.lateCount who.port, []⟩) := rfl

@[simp] theorem servePing_of_body (who : SessionRef) {body : List Byte} (hbody : body ≠ []) (s : State) :
    servePing who body s = (s, .refuse .badRequest 0) := if_neg hbody

/-- R25, R30: the arrival leaves the session's LATE count, whether it found the port ONLINE or LATE. -/
theorem State.lateCount_qualify {s : State} {p : Port} {m : Membership} (hm : (s.ports.get p).session = some m) :
    (s.qualify p m.number).lateCount p = m.lateCount := by
  rw [State.lateCount, State.qualify_ports s p m hm]
  rfl

/-- R30: a PING of the current session with an empty body: the monitor's part and the reply, and nothing else. -/
theorem exec_ping_nil {s : State} {p : Port} {m : Membership} (h : s.serves p m) (tag : Byte) :
    exec (.ping p tag m.number []) s =
      .next ((s.qualify p m.number).replied p ((Answer.mk .done m.lateCount []).frame tag 0x04 1)) := by
  refine exec_of_answer h .ping tag [] _ (serviceOf_ping p m.number []) _ _ ?_ rfl
  rw [servePing_nil, State.lateCount_qualify h.2]

/-- R30: a PING of the current session with a body has qualified all the same, and is refused. -/
theorem exec_ping_of_body {s : State} {p : Port} {m : Membership} (h : s.serves p m) (tag : Byte) {body : List Byte}
    (hbody : body ≠ []) :
    exec (.ping p tag m.number body) s = .next (s.refused p m tag .ping .badRequest 0) :=
  exec_of_refusal h .ping tag body _ (serviceOf_ping p m.number body) .badRequest 0 (servePing_of_body _ hbody _)

/-- Settles O17: the fence from PING's row in the table of services, the reply and the refusal from the two answers of
`servePing`; the deadline is the one that the monitor's part sets, which the reply leaves. -/
theorem pingReportsTheLateCount : Obligations.PingReportsTheLateCount := by
  refine ⟨fencedOff_of_serviceOf (serve := fun body who => servePing who body) serviceOf_ping, ?_⟩
  intro s p m tag hserves
  refine ⟨⟨_, exec_ping_nil hserves tag, rfl, ?deadline⟩, fun body hbody => exec_ping_of_body hserves tag hbody⟩
  case deadline =>
    rw [State.replied_ports, State.qualify_ports s p m hserves.2]
    rfl

end Sys2Proof.Machine
end

section
/-! Ownership of a zone passed on at a request: CLAIM (R82, R83), RELEASE (R84) and HAND_OVER (R85, R86). -/

namespace Sys2Proof.Machine

/-! ## The zone that a request names -/

/-- R40, R45: `z` is the number of a defined zone, whose record is `r`. -/
def State.definesZone (s : State) (z : Nat) (r : ZoneRecord) : Prop := 1 ≤ z ∧ z ≤ 31 ∧ s.zone z = some r

/-- R25: the monitor's part of an arrival leaves the zone table. -/
theorem State.definesZone.qualify {s : State} {z : Nat} {r : ZoneRecord} (hz : s.definesZone z r) (p : Port) (n : Half) :
    (s.qualify p n).definesZone z r := by
  obtain ⟨hlow, hhigh, hr⟩ := hz
  exact ⟨hlow, hhigh, (s.qualify_zone p n z).trans hr⟩

@[simp] theorem State.definedZone_qualify (s : State) (p : Port) (session : Half) (n : Byte) :
    (s.qualify p session).definedZone n = s.definedZone n := by
  rw [State.definedZone, State.definedZone, State.qualify_zone]

theorem State.definedZone_of_range (s : State) {n : Byte} (hn : n.toNat = 0 ∨ 31 < n.toNat) :
    s.definedZone n = .error (.refuse .range 1) := if_pos hn

theorem State.definedZone_of_none {s : State} {n : Byte} (hlow : 1 ≤ n.toNat) (hhigh : n.toNat ≤ 31)
    (hnone : s.zone n.toNat = none) : s.definedZone n = .error (.refuse .notFound 0) := by
  have hin : ¬ (n.toNat = 0 ∨ Config.zoneCount < n.toNat) := by
    rw [Config.zoneCount]
    omega
  rw [State.definedZone, if_neg hin, hnone]

theorem State.definesZone.definedZone {s : State} {n : Byte} {r : ZoneRecord} (hz : s.definesZone n.toNat r) :
    s.definedZone n = .ok (n.toNat, r) := by
  obtain ⟨hlow, hhigh, hr⟩ := hz
  have hin : ¬ (n.toNat = 0 ∨ Config.zoneCount < n.toNat) := by
    rw [Config.zoneCount]
    omega
  rw [State.definedZone, if_neg hin, hr]

theorem ZoneRecord.ownedBy_iff (r : ZoneRecord) (who : SessionRef) : r.ownedBy who = true ↔ r.status = .owned who := by
  cases hs : r.status <;> simp [ZoneRecord.ownedBy, hs]

/-! ## A zone's record changed (R79, R80) -/

/-- R80: the event writes bit 64+z where the zone enters or leaves ORPHANED, and bit 96+z where it enters or leaves
HANDOVER. -/
theorem State.changeZone_eq {s : State} {z : Nat} {r : ZoneRecord} (hz : s.definesZone z r) (r' : ZoneRecord) :
    s.changeZone z r' =
      ((s.setZone z (some r')).fireOwnership [z]).writeSystem
        ⟨(if r.isOrphaned = r'.isOrphaned then [] else [(64 + z, r'.isOrphaned)]) ++
          (if r.isHandover = r'.isHandover then [] else [(96 + z, r'.isHandover)]), []⟩ := by
  obtain ⟨hlow, hhigh, hr⟩ := hz
  rw [← zonePoints_setZone s z r r' hlow hhigh hr]
  rfl

/-- R80: a change that leaves the zone in or out of ORPHANED and HANDOVER as it was writes no point. -/
theorem State.changeZone_of_same_bits {s : State} {z : Nat} {r r' : ZoneRecord} (hz : s.definesZone z r)
    (horphan : r.isOrphaned = r'.isOrphaned) (hhandover : r.isHandover = r'.isHandover) :
    s.changeZone z r' = (s.setZone z (some r')).fireOwnership [z] := by
  rw [State.changeZone_eq hz, if_pos horphan, if_pos hhandover]
  exact State.writeSystem_nothing _

@[simp] theorem State.changeZone_ports (s : State) (z : Nat) (r : ZoneRecord) : (s.changeZone z r).ports = s.ports := by
  simp [State.changeZone]

@[simp] theorem State.giveZone_ports (s : State) (z : Nat) (r : ZoneRecord) (owner : SessionRef) :
    (s.giveZone z r owner).ports = s.ports := by
  simp [State.giveZone]

@[simp] theorem State.releaseZone_ports (s : State) (z : Nat) (r : ZoneRecord) (giver : Port) :
    (s.releaseZone z r giver).ports = s.ports := by
  simp [State.releaseZone]

section
variable {s : State} {z : Nat} {r : ZoneRecord}

/-- R83, R86: a VACANT or OWNED zone passes to a session without a point written. -/
theorem State.giveZone_of_quiet (hz : s.definesZone z r) (owner : SessionRef) (horphan : r.isOrphaned = false)
    (hhandover : r.isHandover = false) :
    s.giveZone z r owner =
      ((s.setZone z (some (r.passTo owner))).fireOwnership [z]).raise .zone (.zone z) owner.port := by
  rw [State.giveZone, State.changeZone_of_same_bits (r' := r.passTo owner) hz horphan hhandover]

/-- R83: an ORPHANED zone passes to a session with bit 64+z written to 0. -/
theorem State.giveZone_of_orphaned (hz : s.definesZone z r) (owner : SessionRef) (hstatus : r.status = .orphaned) :
    s.giveZone z r owner =
      (((s.setZone z (some (r.passTo owner))).fireOwnership [z]).writeSystem ⟨[(64 + z, false)], []⟩).raise
        .zone (.zone z) owner.port := by
  have horphan : r.isOrphaned = true := by rw [ZoneRecord.isOrphaned, hstatus]
  have hhandover : r.isHandover = false := by rw [ZoneRecord.isHandover, hstatus]
  rw [State.giveZone, State.changeZone_eq hz, horphan, hhandover]
  rfl

/-- R83: a zone in HANDOVER passes to a session with bit 96+z written to 0. -/
theorem State.giveZone_of_handover (hz : s.definesZone z r) (owner : SessionRef) {d : Clock}
    (hstatus : r.status = .handover d) :
    s.giveZone z r owner =
      (((s.setZone z (some (r.passTo owner))).fireOwnership [z]).writeSystem ⟨[(96 + z, false)], []⟩).raise
        .zone (.zone z) owner.port := by
  have horphan : r.isOrphaned = false := by rw [ZoneRecord.isOrphaned, hstatus]
  have hhandover : r.isHandover = true := by rw [ZoneRecord.isHandover, hstatus]
  rw [State.giveZone, State.changeZone_eq hz, horphan, hhandover]
  rfl

end

/-! ## CLAIM (R82, R83) -/

theorem serviceOf_claim (p : Port) (session : Half) (body : List Byte) :
    serviceOf .claim p session body = fenced p session (serveClaim · body) := rfl

theorem serveClaim_of_length (who : SessionRef) {body : List Byte} (hlength : body.length ≠ 1) (s : State) :
    serveClaim who body s = (s, .refuse .badRequest 0) := by
  unfold serveClaim
  split
  · exact absurd rfl hlength
  · rfl

theorem serveClaim_of_error (who : SessionRef) {s : State} {n : Byte} {a : Answer} (herror : s.definedZone n = .error a) :
    serveClaim who [n] s = (s, a) := by
  simp only [serveClaim, herror]

theorem serveClaim_of_no_right {who : SessionRef} {s : State} {n : Byte} {r : ZoneRecord}
    (hz : s.definesZone n.toNat r) (hright : portIn who.port r.rights = false) :
    serveClaim who [n] s = (s, .refuse .notPermitted 0) := by
  simp [serveClaim, hz.definedZone, hright]

theorem serveClaim_of_right {who : SessionRef} {s : State} {n : Byte} {r : ZoneRecord}
    (hz : s.definesZone n.toNat r) (hright : portIn who.port r.rights = true) :
    serveClaim who [n] s = s.decideClaim who n.toNat r := by
  simp only [serveClaim, hz.definedZone, hright, if_true]

section
variable (s : State) {who : SessionRef} (z : Nat) {r : ZoneRecord}

theorem State.decideClaim_vacant (hstatus : r.status = .vacant) :
    s.decideClaim who z r = (s.giveZone z r who, .done 0 (r.passTo who).claimBody) := by
  simp only [State.decideClaim, hstatus]

theorem State.decideClaim_orphaned (hstatus : r.status = .orphaned) :
    s.decideClaim who z r = (s.giveZone z r who, .done 0 (r.passTo who).claimBody) := by
  simp only [State.decideClaim, hstatus]

theorem State.decideClaim_standby {d : Clock} (hstatus : r.status = .handover d) (hstandby : r.standby = some who.port) :
    s.decideClaim who z r = (s.giveZone z r who, .done 0 (r.passTo who).claimBody) := by
  simp only [State.decideClaim, hstatus, if_pos hstandby]

theorem State.decideClaim_not_standby {d : Clock} (hstatus : r.status = .handover d)
    (hstandby : r.standby ≠ some who.port) :
    s.decideClaim who z r = (s, .refuse .handoverPending (optPortCode r.standby).toNat) := by
  simp only [State.decideClaim, hstatus, if_neg hstandby]

theorem State.decideClaim_own (hstatus : r.status = .owned who) :
    s.decideClaim who z r = (s, .done 1 r.claimBody) := by
  simp only [State.decideClaim, hstatus, if_true]

theorem State.decideClaim_owned {owner : SessionRef} (hstatus : r.status = .owned owner) (howner : owner ≠ who) :
    s.decideClaim who z r = (s, .refuse .zoneState owner.port.code.toNat) := by
  simp only [State.decideClaim, hstatus, if_neg howner]

end

theorem exec_claim_refused {s : State} {p : Port} {m : Membership} (h : s.serves p m) (tag : Byte) {body : List Byte}
    {o : ReplyOutcome} {detail : Nat}
    (hrefuse : serveClaim (m.on p) body (s.qualify p m.number) = (s.qualify p m.number, .refuse o detail)) :
    exec (.claim p tag m.number body) s = .next (s.refused p m tag .claim o detail) :=
  exec_of_refusal h .claim tag body _ (serviceOf_claim p m.number body) o detail hrefuse

/-- R83: a CLAIM that takes the zone: the zone passes to the claimant, who reads the tenure and the generation. -/
theorem exec_claim_given {s : State} {p : Port} {m : Membership} (h : s.serves p m) (tag : Byte) {n : Byte}
    {r : ZoneRecord}
    (hgive : serveClaim (m.on p) [n] (s.qualify p m.number) =
      ((s.qualify p m.number).giveZone n.toNat r (m.on p), .done 0 (r.passTo (m.on p)).claimBody)) :
    exec (.claim p tag m.number [n]) s =
      .next (((s.qualify p m.number).giveZone n.toNat r (m.on p)).replied p
        ((Answer.mk .done 0 ((r.tenure + 1) :: halfBytes r.generation)).frame tag 0x28 1)) :=
  exec_of_answer h .claim tag [n] _ (serviceOf_claim p m.number [n]) _ _ hgive
    (by rw [State.giveZone_ports])

/-- Settles O30: the checks of R82 one by one, then the cases of `State.decideClaim`; where the zone passes to the claimant,
`State.giveZone` by the bits that the zone's old state shows. -/
theorem claimIsDecidedByTheZonesState : Obligations.ClaimIsDecidedByTheZonesState := by
  intro s p m tag hserves
  refine ⟨fun body hlength => exec_claim_refused hserves tag (serveClaim_of_length _ hlength _),
    fun n => ⟨?range, ?undefined, ?zone⟩⟩
  case range =>
    intro hn
    exact exec_claim_refused hserves tag (serveClaim_of_error _ (State.definedZone_of_range _ hn))
  case undefined =>
    intro hlow hhigh hnone
    refine exec_claim_refused hserves tag (serveClaim_of_error _ ?_)
    rw [State.definedZone_qualify, State.definedZone_of_none hlow hhigh hnone]
  case zone =>
    intro r hlow hhigh hr
    have hz : (s.qualify p m.number).definesZone n.toNat r := State.definesZone.qualify ⟨hlow, hhigh, hr⟩ p m.number
    refine ⟨fun hright => exec_claim_refused hserves tag (serveClaim_of_no_right hz hright), fun hright => ?_⟩
    have hdecide := serveClaim_of_right (who := m.on p) hz hright
    refine ⟨fun hvacant => ?vacant, fun horphaned => ?orphaned, fun d hhandover hstandby => ?standby,
      fun d hhandover hstandby => ?pending, fun hown => ?own, fun owner howned hother => ?owned⟩
    case vacant =>
      rw [exec_claim_given hserves tag (hdecide.trans (State.decideClaim_vacant _ _ hvacant)),
        State.giveZone_of_quiet hz (m.on p) (by rw [ZoneRecord.isOrphaned, hvacant])
          (by rw [ZoneRecord.isHandover, hvacant])]
      rfl
    case orphaned =>
      rw [exec_claim_given hserves tag (hdecide.trans (State.decideClaim_orphaned _ _ horphaned)),
        State.giveZone_of_orphaned hz (m.on p) horphaned]
      rfl
    case standby =>
      rw [exec_claim_given hserves tag (hdecide.trans (State.decideClaim_standby _ _ hhandover hstandby)),
        State.giveZone_of_handover hz (m.on p) hhandover]
      rfl
    case pending =>
      exact exec_claim_refused hserves tag (hdecide.trans (State.decideClaim_not_standby _ _ hhandover hstandby))
    case own =>
      exact exec_of_answer hserves .claim tag [n] _ (serviceOf_claim p m.number [n]) _ _
        (hdecide.trans (State.decideClaim_own _ _ hown)) rfl
    case owned =>
      exact exec_claim_refused hserves tag (hdecide.trans (State.decideClaim_owned _ _ howned hother))

/-! ## RELEASE (R84) -/

theorem serviceOf_release (p : Port) (session : Half) (body : List Byte) :
    serviceOf .release p session body = fenced p session (serveRelease · body) := rfl

theorem serveRelease_of_length (who : SessionRef) {body : List Byte} (hlength : body.length ≠ 1) (s : State) :
    serveRelease who body s = (s, .refuse .badRequest 0) := by
  unfold serveRelease
  split
  · exact absurd rfl hlength
  · rfl

theorem serveRelease_of_error (who : SessionRef) {s : State} {n : Byte} {a : Answer}
    (herror : s.definedZone n = .error a) : serveRelease who [n] s = (s, a) := by
  simp only [serveRelease, herror]

theorem serveRelease_of_not_owner {who : SessionRef} {s : State} {n : Byte} {r : ZoneRecord}
    (hz : s.definesZone n.toNat r) (hstatus : r.status ≠ .owned who) :
    serveRelease who [n] s = (s, .refuse .notOwner 0) := by
  simp only [serveRelease, hz.definedZone, if_neg (mt (r.ownedBy_iff who).1 hstatus)]

theorem serveRelease_of_owner {who : SessionRef} {s : State} {n : Byte} {r : ZoneRecord}
    (hz : s.definesZone n.toNat r) (hstatus : r.status = .owned who) :
    serveRelease who [n] s = (s.releaseZone n.toNat r who.port, .done 0 []) := by
  simp only [serveRelease, hz.definedZone, if_pos ((r.ownedBy_iff who).2 hstatus)]

/-- R84: an OWNED zone is released without a point written. -/
theorem State.releaseZone_of_owned {s : State} {z : Nat} {r : ZoneRecord} (hz : s.definesZone z r) (giver : Port)
    {owner : SessionRef} (hstatus : r.status = .owned owner) :
    s.releaseZone z r giver =
      ((s.setZone z (some { r with status := .vacant, tenure := r.tenure + 1 })).fireOwnership [z]).raiseFor .zone (.zone z)
        ((portsOf r.rights).filter fun q => q != giver) := by
  rw [State.releaseZone, State.changeZone_of_same_bits hz (by simp only [ZoneRecord.isOrphaned, hstatus])
    (by simp only [ZoneRecord.isHandover, hstatus])]
  rfl

theorem exec_release_refused {s : State} {p : Port} {m : Membership} (h : s.serves p m) (tag : Byte) {body : List Byte}
    {o : ReplyOutcome} {detail : Nat}
    (hrefuse : serveRelease (m.on p) body (s.qualify p m.number) = (s.qualify p m.number, .refuse o detail)) :
    exec (.release p tag m.number body) s = .next (s.refused p m tag .release o detail) :=
  exec_of_refusal h .release tag body _ (serviceOf_release p m.number body) o detail hrefuse

/-- Settles O31: the fence from RELEASE's row in the table of services, the checks of R84 one by one, and the release of an
OWNED zone, whose two bits stand. -/
theorem releaseMakesTheZoneVacant : Obligations.ReleaseMakesTheZoneVacant := by
  refine ⟨fencedOff_of_serviceOf (serve := fun body who => serveRelease who body) serviceOf_release, ?_⟩
  intro s p m tag hserves
  refine ⟨fun body hlength => exec_release_refused hserves tag (serveRelease_of_length _ hlength _), ?range, ?undefined,
    ?zone⟩
  case range =>
    intro n hn
    exact exec_release_refused hserves tag (serveRelease_of_error _ (State.definedZone_of_range _ hn))
  case undefined =>
    intro n hlow hhigh hnone
    refine exec_release_refused hserves tag (serveRelease_of_error _ ?_)
    rw [State.definedZone_qualify, State.definedZone_of_none hlow hhigh hnone]
  case zone =>
    intro n r hlow hhigh hr
    have hz : (s.qualify p m.number).definesZone n.toNat r := State.definesZone.qualify ⟨hlow, hhigh, hr⟩ p m.number
    refine ⟨fun hstatus => exec_release_refused hserves tag (serveRelease_of_not_owner hz hstatus), fun hstatus => ?_⟩
    rw [← State.releaseZone_of_owned hz p hstatus]
    exact exec_of_answer hserves .release tag [n] _ (serviceOf_release p m.number [n]) _ _
      (serveRelease_of_owner hz hstatus) (by rw [State.releaseZone_ports])

/-! ## HAND_OVER (R85, R86) -/

theorem serviceOf_handOver (p : Port) (session : Half) (body : List Byte) :
    serviceOf .handOver p session body = fenced p session (serveHandOver · body) := rfl

theorem Port.code_toNat (p : Port) : p.code.toNat = p.index + 1 := by cases p <;> rfl

/-- R184: the port codes are 1 to 4. -/
theorem Port.ofCode_eq_none {code : Byte} (hcode : code.toNat = 0 ∨ 4 < code.toNat) : Port.ofCode code = none := by
  refine List.find?_eq_none.2 fun p _ hp => ?_
  have hcode_eq : p.code.toNat = code.toNat := congrArg BitVec.toNat (eq_of_beq hp)
  have hindex := Port.index_lt p
  rw [Port.code_toNat] at hcode_eq
  omega

theorem serveHandOver_of_length (who : SessionRef) {body : List Byte} (hlength : body.length ≠ 2) (s : State) :
    serveHandOver who body s = (s, .refuse .badRequest 0) := by
  unfold serveHandOver
  split
  · exact absurd rfl hlength
  · rfl

theorem serveHandOver_of_code (who : SessionRef) (n : Byte) {code : Byte} (hcode : code.toNat = 0 ∨ 4 < code.toNat)
    (s : State) : serveHandOver who [n, code] s = (s, .refuse .badRequest 1) := by
  simp only [serveHandOver, Port.ofCode_eq_none hcode]

theorem serveHandOver_of_error (who : SessionRef) {s : State} {n : Byte} {a : Answer}
    (herror : s.definedZone n = .error a) (target : Port) : serveHandOver who [n, target.code] s = (s, a) := by
  simp only [serveHandOver, port_ofCode_code, herror]

theorem serveHandOver_of_defined (who : SessionRef) {s : State} {n : Byte} {r : ZoneRecord}
    (hz : s.definesZone n.toNat r) (target : Port) :
    serveHandOver who [n, target.code] s = s.decideHandOver who n.toNat r target := by
  simp only [serveHandOver, port_ofCode_code, hz.definedZone]

section
variable {s : State} {who : SessionRef} (z : Nat) {r : ZoneRecord} {q : Port}

theorem State.decideHandOver_of_not_owner (hstatus : r.status ≠ .owned who) :
    s.decideHandOver who z r q = (s, .refuse .notOwner 0) := by
  have howned : r.ownedBy who = false := eq_false_of_ne_true (mt (r.ownedBy_iff who).1 hstatus)
  simp [State.decideHandOver, howned]

theorem State.decideHandOver_of_no_right (hstatus : r.status = .owned who) (hright : portIn q r.rights = false) :
    s.decideHandOver who z r q = (s, .refuse .notPermitted 1) := by
  simp [State.decideHandOver, (r.ownedBy_iff who).2 hstatus, hright]

theorem State.decideHandOver_of_self (hstatus : r.status = .owned who) (hright : portIn q r.rights = true)
    (hself : q = who.port) : s.decideHandOver who z r q = (s, .refuse .notPermitted 2) := by
  subst hself
  simp [State.decideHandOver, (r.ownedBy_iff who).2 hstatus, hright]

/-- R85 check 8: a target that is OFFLINE, LATE or LOST. -/
theorem State.decideHandOver_of_not_online (hstatus : r.status = .owned who) (hright : portIn q r.rights = true)
    (hother : q ≠ who.port) (hoff : ∀ target, s.ports.get q ≠ .online target) :
    s.decideHandOver who z r q = (s, .refuse .notPermitted 3) := by
  have honline : (s.ports.get q).isOnline = false := by
    cases hport : s.ports.get q with
    | online target => exact absurd hport (hoff target)
    | offline => rfl
    | late target => rfl
    | lost => rfl
  simp only [State.decideHandOver, (r.ownedBy_iff who).2 hstatus, hright, hother, honline]
  cases s.session q <;> rfl

/-- R86: a target that is ONLINE takes the zone. -/
theorem State.decideHandOver_of_online (hstatus : r.status = .owned who) (hright : portIn q r.rights = true)
    (hother : q ≠ who.port) {target : Membership} (honline : s.ports.get q = .online target) :
    s.decideHandOver who z r q = (s.giveZone z r (target.on q), .done 0 []) := by
  have hsession : s.session q = some (target.on q) := by
    rw [State.session, honline]
    rfl
  simp [State.decideHandOver, (r.ownedBy_iff who).2 hstatus, hright, hother, hsession, honline, PortRecord.isOnline]

end

theorem exec_handOver_refused {s : State} {p : Port} {m : Membership} (h : s.serves p m) (tag : Byte) {body : List Byte}
    {o : ReplyOutcome} {detail : Nat}
    (hrefuse : serveHandOver (m.on p) body (s.qualify p m.number) = (s.qualify p m.number, .refuse o detail)) :
    exec (.handOver p tag m.number body) s = .next (s.refused p m tag .handOver o detail) :=
  exec_of_refusal h .handOver tag body _ (serviceOf_handOver p m.number body) o detail hrefuse

/-- R86: a HAND_OVER that passes its checks: the zone passes to the new owner, and the giver is answered DONE. -/
theorem exec_handOver_given {s : State} {p : Port} {m : Membership} (h : s.serves p m) (tag : Byte) {body : List Byte}
    {z : Nat} {r : ZoneRecord} {owner : SessionRef}
    (hgive : serveHandOver (m.on p) body (s.qualify p m.number) =
      ((s.qualify p m.number).giveZone z r owner, .done 0 [])) :
    exec (.handOver p tag m.number body) s =
      .next (((s.qualify p m.number).giveZone z r owner).replied p ((Answer.mk .done 0 []).frame tag 0x2A 1)) :=
  exec_of_answer h .handOver tag body _ (serviceOf_handOver p m.number body) _ _ hgive (by rw [State.giveZone_ports])

/-- Settles O32: the checks of R85 one by one, the last four by the cases of `State.decideHandOver`; the monitor's part of
the arrival leaves the target's port, and an OWNED zone passes on with its two bits standing. -/
theorem handOverPassesTheZone : Obligations.HandOverPassesTheZone := by
  intro s p m tag hserves refusedWith
  refine ⟨fun body hlength => exec_handOver_refused hserves tag (serveHandOver_of_length _ hlength _),
    fun n code hcode => exec_handOver_refused hserves tag (serveHandOver_of_code _ n hcode _),
    fun n q => ⟨?range, fun hlow hhigh => ⟨?undefined, ?zone⟩⟩⟩
  case range =>
    intro hn
    exact exec_handOver_refused hserves tag (serveHandOver_of_error _ (State.definedZone_of_range _ hn) q)
  case undefined =>
    intro hnone
    refine exec_handOver_refused hserves tag (serveHandOver_of_error _ ?_ q)
    rw [State.definedZone_qualify, State.definedZone_of_none hlow hhigh hnone]
  case zone =>
    intro r hr
    have hz : (s.qualify p m.number).definesZone n.toNat r := State.definesZone.qualify ⟨hlow, hhigh, hr⟩ p m.number
    have hdecide := serveHandOver_of_defined (m.on p) hz q
    refine ⟨fun hstatus => ?notOwner, fun hstatus => ⟨fun hright => ?noRight, fun hright hself => ?self,
      fun hright hother hoff => ?notOnline, fun target hright hother honline => ?passes⟩⟩
    case notOwner => exact exec_handOver_refused hserves tag (hdecide.trans (State.decideHandOver_of_not_owner _ hstatus))
    case noRight =>
      exact exec_handOver_refused hserves tag (hdecide.trans (State.decideHandOver_of_no_right _ hstatus hright))
    case self =>
      exact exec_handOver_refused hserves tag (hdecide.trans (State.decideHandOver_of_self _ hstatus hright hself))
    case notOnline =>
      refine exec_handOver_refused hserves tag
        (hdecide.trans (State.decideHandOver_of_not_online _ hstatus hright hother fun target => ?_))
      rw [State.qualify_ports_ne s p q m.number hother]
      exact hoff target
    case passes =>
      have htarget : (s.qualify p m.number).ports.get q = .online target :=
        (State.qualify_ports_ne s p q m.number hother).trans honline
      rw [exec_handOver_given hserves tag
          (hdecide.trans (State.decideHandOver_of_online _ hstatus hright hother htarget)),
        State.giveZone_of_quiet hz (target.on q) (by rw [ZoneRecord.isOrphaned, hstatus])
          (by rw [ZoneRecord.isHandover, hstatus])]
      rfl

end Sys2Proof.Machine
end

section
/-! The waits of the token arbiter (R101, R106): the token that a port waits for, and the chain of holders and waits. -/

namespace Sys2Proof.Machine

/-! ## The token that a port waits for (R101) -/

/-- R101: the port stands in the wait list of token `t`. -/
def State.waitsAt (s : State) (p : Port) (t : Nat) : Prop := t < 16 ∧ ∃ w ∈ (s.token t).waiters, w.port = p

theorem State.waitsAt_of_waitsFor {s : State} {p : Port} {t : Nat} (hfound : s.waitsFor p = some t) : s.waitsAt p t := by
  have hmem := List.mem_of_find?_eq_some hfound
  have hany := List.find?_some hfound
  simp only [List.any_eq_true, beq_iff_eq] at hany
  exact ⟨List.mem_range.1 hmem, hany⟩

theorem State.waitsFor_eq_none {s : State} {p : Port} (hno : ∀ t < 16, ∀ w ∈ (s.token t).waiters, w.port ≠ p) :
    s.waitsFor p = none := by
  cases hfound : s.waitsFor p with
  | none => rfl
  | some t =>
    obtain ⟨ht, w, hw, hport⟩ := State.waitsAt_of_waitsFor hfound
    exact absurd hport (hno t ht w hw)

/-- R101: the wait list found is the port's only one. -/
theorem State.waitsFor_eq_some {s : State} {p : Port} {t : Nat} (hat : s.waitsAt p t)
    (honly : ∀ u, s.waitsAt p u → u = t) : s.waitsFor p = some t := by
  obtain ⟨ht, w, hw, hport⟩ := hat
  cases hfound : s.waitsFor p with
  | some u => rw [honly u (State.waitsAt_of_waitsFor hfound)]
  | none =>
    have hnone := List.find?_eq_none.1 hfound t (List.mem_range.2 ht)
    exact (hnone (List.any_eq_true.2 ⟨w, hw, beq_iff_eq.2 hport⟩)).elim

/-- R25: the monitor's part of an arrival leaves the wait lists. -/
@[simp] theorem State.waitsFor_qualify (s : State) (p q : Port) (n : Half) :
    (s.qualify p n).waitsFor q = s.waitsFor q := by
  simp only [State.waitsFor, State.qualify_token]

/-! ## The chain of holders and waits (R106) -/

/-- R106: one link of the chain: the holder waits for a HELD token, which closes a cycle where the requester holds it. -/
theorem State.deadlock_succ {s : State} {holder : Port} {t : Nat} {g : Hold} (hfound : s.waitsFor holder = some t)
    (hhold : (s.token t).hold = some g) (requester : Port) (links : Nat) :
    s.deadlock requester (links + 1) holder =
      if g.holder.port = requester then some t else s.deadlock requester links g.holder.port := by
  simp only [State.deadlock, hfound, hhold]

@[simp] theorem State.deadlock_qualify (s : State) (p : Port) (n : Half) (requester : Port) (links : Nat) (holder : Port) :
    (s.qualify p n).deadlock requester links holder = s.deadlock requester links holder := by
  induction links generalizing holder with
  | zero => rfl
  | succ links ih => simp only [State.deadlock, State.waitsFor_qualify, State.qualify_token, ih]

/-- R106: a refusal DEADLOCK names a chain that leads from the holder back to the requester. -/
theorem State.transGen_of_deadlock {s : State} {requester : Port} {links : Nat} {holder : Port} {d : Nat}
    (hdead : s.deadlock requester links holder = some d) : Relation.TransGen s.waitsOn holder requester := by
  induction links generalizing holder with
  | zero => cases hdead
  | succ links ih =>
    cases hfound : s.waitsFor holder with
    | none => simp [State.deadlock, hfound] at hdead
    | some t =>
      cases hhold : (s.token t).hold with
      | none => simp [State.deadlock, hfound, hhold] at hdead
      | some g =>
        obtain ⟨ht, hwaiter⟩ := State.waitsAt_of_waitsFor hfound
        have hlink : s.waitsOn holder g.holder.port := ⟨t, g, ht, hwaiter, hhold, rfl⟩
        rw [State.deadlock_succ hfound hhold] at hdead
        split at hdead
        case isTrue hclosed => exact .single (hclosed ▸ hlink)
        case isFalse => exact .head hlink (ih hdead)

/-- R106: a chain that does not lead back to the requester closes no cycle. -/
theorem State.deadlock_eq_none {s : State} {requester holder : Port}
    (hfree : ¬ Relation.TransGen s.waitsOn holder requester) (links : Nat) :
    s.deadlock requester links holder = none := by
  cases hdead : s.deadlock requester links holder with
  | none => rfl
  | some d => exact absurd (State.transGen_of_deadlock hdead) hfree

/-! ## Under the laws of the tokens (R101, R106) -/

/-- R101: a port waits for one token at most. -/
theorem State.tokensLawful.waitsFor {s : State} (hlaws : s.tokensLawful) {p : Port} {t : Nat} (hat : s.waitsAt p t) :
    s.waitsFor p = some t := by
  obtain ⟨-, honce, -⟩ := hlaws
  refine State.waitsFor_eq_some hat fun u hu => ?_
  obtain ⟨ht, w, hw, hport⟩ := hat
  obtain ⟨hu, v, hv, hport'⟩ := hu
  by_contra hne
  exact honce u t hu ht hne v hv w hw (hport'.trans hport.symm)

theorem State.tokensLawful.acyclic {s : State} (hlaws : s.tokensLawful) (p : Port) :
    ¬ Relation.TransGen s.waitsOn p p := by
  obtain ⟨-, -, hacyclic⟩ := hlaws
  exact hacyclic p

theorem Port.length_le_four {ports : List Port} (hnodup : ports.Nodup) : ports.length ≤ 4 := by
  have hall : ports ⊆ Port.all := fun p _ => by cases p <;> decide
  exact (List.subperm_of_subset hnodup hall).length_le

/-- R106: where the four ports have not all been passed, the count of links has one left. -/
theorem exists_link_left {holder : Port} {upstream : List Port} {links : Nat} (hnodup : (holder :: upstream).Nodup)
    (hlinks : 4 ≤ upstream.length + links) : ∃ left, links = left + 1 := by
  have hfits := Port.length_le_four hnodup
  rw [List.length_cons] at hfits
  exact ⟨links - 1, by omega⟩

/-- R106: a chain from the holder to a port that waits for a token of the requester is found. The ports passed on the way lie
upstream of the holder, so no cycle lets one come twice, and the links left suffice for the ports that are left. -/
theorem State.deadlock_of_chain {s : State} (hlaws : s.tokensLawful) {requester last : Port} {d : Nat} {g : Hold}
    (hat : s.waitsAt last d) (hhold : (s.token d).hold = some g) (hclosed : g.holder.port = requester) {holder : Port}
    (hchain : Relation.ReflTransGen s.waitsOn holder last) {links : Nat} {upstream : List Port}
    (hnodup : (holder :: upstream).Nodup) (hupstream : ∀ q ∈ upstream, Relation.TransGen s.waitsOn q holder)
    (hlinks : 4 ≤ upstream.length + links) : s.deadlock requester links holder = some d := by
  induction hchain using Relation.ReflTransGen.head_induction_on generalizing links upstream with
  | refl =>
    obtain ⟨links, rfl⟩ := exists_link_left hnodup hlinks
    rw [State.deadlock_succ (hlaws.waitsFor hat) hhold, if_pos hclosed]
  | @head holder next hlink hrest ih =>
    have hback : Relation.TransGen s.waitsOn last requester := by
      obtain ⟨hd, hwaiter⟩ := hat
      exact .single ⟨d, g, hd, hwaiter, hhold, hclosed⟩
    have hopen : next ≠ requester := by
      rintro rfl
      exact hlaws.acyclic _ (.trans_right hrest hback)
    have hpassed : ∀ q ∈ holder :: upstream, Relation.TransGen s.waitsOn q next := by
      intro q hq
      rcases List.mem_cons.1 hq with rfl | hq
      · exact .single hlink
      · exact (hupstream q hq).tail hlink
    have hnew : (next :: holder :: upstream).Nodup :=
      List.nodup_cons.2 ⟨fun hmem => hlaws.acyclic next (hpassed next hmem), hnodup⟩
    obtain ⟨links, rfl⟩ := exists_link_left hnodup hlinks
    obtain ⟨t, h, ht, hwaiter, hheld, rfl⟩ := hlink
    rw [State.deadlock_succ (hlaws.waitsFor ⟨ht, hwaiter⟩) hheld, if_neg hopen]
    exact ih hnew hpassed (by rw [List.length_cons]; omega)

end Sys2Proof.Machine
end

section
/-! The requests of the token arbiter: ACQUIRE (R105, R106), RELEASE_TOKEN (R107), CANCEL_WAIT (R108), SET_TOKEN_LIMIT
(R109). -/

namespace Sys2Proof.Machine

/-! ## A token's record changed (R102, R103) -/

/-- R102: the points of a token whose holder changes are written. -/
theorem State.changeToken_of_holder {s : State} {n : Nat} {k : Token} (hn : n < 16)
    (hchange : (s.token n).hold.map Hold.holder ≠ k.hold.map Hold.holder) :
    s.changeToken n k = (s.setToken n k).writeSystem ⟨[(32 + n, k.hold.isSome)], [(32 + n, k.holderCode)]⟩ := by
  rw [State.changeToken, tokenPoints_setToken s n k hn, if_neg hchange]

@[simp] theorem State.changeToken_ports (s : State) (n : Nat) (k : Token) : (s.changeToken n k).ports = s.ports := by
  simp [State.changeToken]

@[simp] theorem State.giveUpToken_ports (s : State) (n : Nat) : (s.giveUpToken n).ports = s.ports := by
  simp [State.giveUpToken]

@[simp] theorem Token.grant_holder (k : Token) (who : SessionRef) (clock : Clock) :
    (k.grant who clock).hold.map Hold.holder = some who := rfl

theorem Token.handOn_nil {k : Token} (hwaiters : k.waiters = []) (broken : Bool) (clock : Clock) :
    k.handOn broken clock = { k with hold := none, broken := broken } := by
  simp only [Token.handOn, hwaiters]

theorem Token.handOn_cons {k : Token} {w : SessionRef} {rest : List SessionRef} (hwaiters : k.waiters = w :: rest)
    (broken : Bool) (clock : Clock) :
    k.handOn broken clock = { k with broken := broken, waiters := rest }.grant w clock := by
  simp only [Token.handOn, hwaiters]

theorem Token.heldBy_iff (k : Token) (who : SessionRef) : k.heldBy who = true ↔ k.hold.map Hold.holder = some who := by
  cases hhold : k.hold <;> simp [Token.heldBy, hhold]

/-- R103: a FREE token is granted with its points. -/
theorem State.changeToken_grant_of_free {s : State} {n : Nat} (hn : n < 16) (hfree : (s.token n).hold = none)
    (who : SessionRef) :
    s.changeToken n ((s.token n).grant who s.clock) =
      (s.setToken n ((s.token n).grant who s.clock)).writeSystem
        ⟨[(32 + n, true)], [(32 + n, who.port.code.setWidth 16)]⟩ := by
  rw [State.changeToken_of_holder hn (by simp [hfree])]
  rfl

/-- R107: a token given up passes to the head of its wait list, with its points and TOKEN. -/
theorem State.giveUpToken_of_head {s : State} {n : Nat} (hn : n < 16) {h : Hold} {w : SessionRef} {rest : List SessionRef}
    (hhold : (s.token n).hold = some h) (hwaiters : (s.token n).waiters = w :: rest) (hother : w ≠ h.holder) :
    s.giveUpToken n =
      ((s.setToken n ({ s.token n with broken := false, waiters := rest }.grant w s.clock)).writeSystem
        ⟨[(32 + n, true)], [(32 + n, w.port.code.setWidth 16)]⟩).raise .token (.granted n) w.port := by
  rw [State.giveUpToken, Token.handOn_cons hwaiters, State.changeToken_of_holder hn (by simpa [hhold] using hother.symm)]
  simp only [State.raiseGrant, hwaiters]
  rfl

/-- R107: a token given up with no session that waits is FREE, with its points. -/
theorem State.giveUpToken_of_alone {s : State} {n : Nat} (hn : n < 16) {h : Hold} (hhold : (s.token n).hold = some h)
    (hwaiters : (s.token n).waiters = []) :
    s.giveUpToken n =
      (s.setToken n { s.token n with hold := none, broken := false }).writeSystem ⟨[(32 + n, false)], [(32 + n, 0)]⟩ := by
  rw [State.giveUpToken, Token.handOn_nil hwaiters, State.changeToken_of_holder hn (by simp [hhold])]
  simp only [State.raiseGrant, hwaiters]
  rfl

/-! ## ACQUIRE (R105, R106) -/

theorem serviceOf_acquire (p : Port) (session : Half) (body : List Byte) :
    serviceOf .acquire p session body = fenced p session (serveAcquire · body) := rfl

theorem acquireMode_of_gt {mode : Byte} (hmode : 1 < mode.toNat) : acquireMode mode = none := by
  have hzero : mode ≠ 0 := by
    rintro rfl
    exact absurd hmode (by decide)
  have hone : mode ≠ 1 := by
    rintro rfl
    exact absurd hmode (by decide)
  rw [acquireMode, if_neg hzero, if_neg hone]

theorem acquireMode_zero : acquireMode 0 = some true := rfl

theorem acquireMode_one : acquireMode 1 = some false := rfl

theorem exists_acquireMode {mode : Byte} (hmode : mode = 0 ∨ mode = 1) : ∃ wait, acquireMode mode = some wait := by
  rcases hmode with rfl | rfl
  · exact ⟨true, acquireMode_zero⟩
  · exact ⟨false, acquireMode_one⟩

theorem mode_eq_of_le {mode : Byte} (hmode : mode.toNat ≤ 1) : mode = 0 ∨ mode = 1 := by
  rcases Nat.le_one_iff_eq_zero_or_eq_one.1 hmode with hzero | hone
  · exact .inl (BitVec.eq_of_toNat_eq hzero)
  · exact .inr (BitVec.eq_of_toNat_eq hone)

theorem serveAcquire_of_length (who : SessionRef) {body : List Byte} (hlength : body.length ≠ 2) (s : State) :
    serveAcquire who body s = (s, .refuse .badRequest 0) := by
  unfold serveAcquire
  split
  · exact absurd rfl hlength
  · rfl

theorem serveAcquire_of_no_mode (who : SessionRef) (n : Byte) {mode : Byte} (hmode : acquireMode mode = none) (s : State) :
    serveAcquire who [n, mode] s = (s, .refuse .badRequest 1) := by
  simp only [serveAcquire, hmode]

theorem serveAcquire_of_range (who : SessionRef) {n mode : Byte} {wait : Bool} (hmode : acquireMode mode = some wait)
    (hn : 15 < n.toNat) (s : State) : serveAcquire who [n, mode] s = (s, .refuse .range 1) := by
  have hout : Config.tokenCount ≤ n.toNat := hn
  simp only [serveAcquire, hmode, if_pos hout]

theorem serveAcquire_of_checks (who : SessionRef) {n mode : Byte} {wait : Bool} (hmode : acquireMode mode = some wait)
    (hn : n.toNat ≤ 15) (s : State) : serveAcquire who [n, mode] s = s.decideAcquire who n.toNat wait := by
  have hin : ¬ Config.tokenCount ≤ n.toNat := Nat.not_le_of_lt (Nat.lt_succ_of_le hn)
  simp only [serveAcquire, hmode, if_neg hin]

section
variable {s : State} {who : SessionRef} {n : Nat}

theorem State.decideAcquire_of_free (hfree : (s.token n).hold = none) (wait : Bool) :
    s.decideAcquire who n wait =
      (s.changeToken n ((s.token n).grant who s.clock), .done (flagNat (s.token n).broken) []) := by
  simp only [State.decideAcquire, hfree]

variable {h : Hold} (hhold : (s.token n).hold = some h)
include hhold

theorem State.decideAcquire_of_own (hown : h.holder = who) (wait : Bool) :
    s.decideAcquire who n wait = (s, .refuse .alreadyHeld 0) := by
  simp only [State.decideAcquire, hhold, if_pos hown]

variable (hother : h.holder ≠ who)
include hother

theorem State.decideAcquire_of_no_wait :
    s.decideAcquire who n false = (s, .refuse .tokenHeld h.holder.port.code.toNat) := by
  simp [State.decideAcquire, hhold, hother]

theorem State.decideAcquire_of_waiting {w : Nat} (hwaits : s.waitsFor who.port = some w) :
    s.decideAcquire who n true = (s, .refuse .alreadyWaiting w) := by
  simp [State.decideAcquire, hhold, hother, hwaits]

theorem State.decideAcquire_of_deadlock {d : Nat} (hwaits : s.waitsFor who.port = none)
    (hdead : s.deadlock who.port 4 h.holder.port = some d) :
    s.decideAcquire who n true = (s, .refuse .deadlock d) := by
  simp [State.decideAcquire, hhold, hother, hwaits, hdead]

theorem State.decideAcquire_of_queued (hwaits : s.waitsFor who.port = none)
    (hdead : s.deadlock who.port 4 h.holder.port = none) :
    s.decideAcquire who n true =
      (s.setToken n { s.token n with waiters := (s.token n).waiters ++ [who] },
        ⟨.queued, natHalf ((s.token n).waiters.length + 1), []⟩) := by
  simp [State.decideAcquire, hhold, hother, hwaits, hdead]

end

theorem exec_acquire_refused {s : State} {p : Port} {m : Membership} (h : s.serves p m) (tag : Byte) {body : List Byte}
    {o : ReplyOutcome} {detail : Nat}
    (hrefuse : serveAcquire (m.on p) body (s.qualify p m.number) = (s.qualify p m.number, .refuse o detail)) :
    exec (.acquire p tag m.number body) s = .next (s.refused p m tag .acquire o detail) :=
  exec_of_refusal h .acquire tag body _ (serviceOf_acquire p m.number body) o detail hrefuse

/-- R103, R105: an ACQUIRE of a FREE token, in either mode. -/
theorem exec_acquire_of_free {s : State} {p : Port} {m : Membership} (h : s.serves p m) (tag : Byte) {n mode : Byte}
    {wait : Bool} (hmode : acquireMode mode = some wait) (hn : n.toNat ≤ 15) (hfree : (s.token n.toNat).hold = none) :
    exec (.acquire p tag m.number [n, mode]) s =
      .next ((((s.qualify p m.number).setToken n.toNat ((s.token n.toNat).grant (m.on p) s.clock)).writeSystem
        ⟨[(32 + n.toNat, true)], [(32 + n.toNat, p.code.setWidth 16)]⟩).replied p
          ((Answer.mk .done (if (s.token n.toNat).broken then 1 else 0) []).frame tag 0x30 1)) := by
  have hfree' : ((s.qualify p m.number).token n.toNat).hold = none := by rwa [State.qualify_token]
  have hserve := (serveAcquire_of_checks (m.on p) hmode hn _).trans (State.decideAcquire_of_free hfree' wait)
  have hexec := exec_of_answer h .acquire tag [n, mode] _ (serviceOf_acquire p m.number [n, mode]) _ _ hserve
    (by rw [State.changeToken_ports])
  rw [State.changeToken_grant_of_free (Nat.lt_succ_of_le hn) hfree', State.qualify_token, State.qualify_clock] at hexec
  refine hexec.trans ?_
  cases (s.token n.toNat).broken <;> rfl

/-- Settles O35: the checks of R105 one by one, then the cases of `State.decideAcquire`. The clauses of R106 read the case
off the chain: under the laws a port waits for one token, and four links suffice for a chain that comes to no port twice. -/
theorem acquireIsDecidedByTheTokensState : Obligations.AcquireIsDecidedByTheTokensState := by
  refine ⟨fencedOff_of_serviceOf (serve := fun body who => serveAcquire who body) serviceOf_acquire, ?_⟩
  intro s p m tag hserves
  refine ⟨fun body hlength => exec_acquire_refused hserves tag (serveAcquire_of_length _ hlength _), ?mode, ?range, ?token⟩
  case mode =>
    intro n mode hmode
    exact exec_acquire_refused hserves tag (serveAcquire_of_no_mode _ n (acquireMode_of_gt hmode) _)
  case range =>
    intro n mode hmode hn
    obtain ⟨wait, hwait⟩ := exists_acquireMode (mode_eq_of_le hmode)
    exact exec_acquire_refused hserves tag (serveAcquire_of_range _ hwait hn _)
  case token =>
    intro n hn t u k
    have hsame : u.token t = k := State.qualify_token ..
    refine ⟨?free, ?own, ?other⟩
    case free =>
      intro mode hmode hfree
      obtain ⟨wait, hwait⟩ := exists_acquireMode hmode
      exact exec_acquire_of_free hserves tag hwait hn hfree
    case own =>
      intro mode h hmode hhold hown
      obtain ⟨wait, hwait⟩ := exists_acquireMode hmode
      exact exec_acquire_refused hserves tag
        ((serveAcquire_of_checks _ hwait hn _).trans (State.decideAcquire_of_own (hsame ▸ hhold) hown wait))
    case other =>
      intro h hhold hother
      have hheld : (u.token t).hold = some h := hsame ▸ hhold
      have hdecide := serveAcquire_of_checks (m.on p) acquireMode_zero hn u
      have hwaiting : ∀ w, s.waitsFor p = some w →
          exec (.acquire p tag m.number [n, 0]) s = .next (s.refused p m tag .acquire .alreadyWaiting w) := by
        intro w hwaits
        exact exec_acquire_refused hserves tag
          (hdecide.trans (State.decideAcquire_of_waiting hheld hother ((State.waitsFor_qualify ..).trans hwaits)))
      have hdeadlock : ∀ d, s.waitsFor p = none → s.deadlock p 4 h.holder.port = some d →
          exec (.acquire p tag m.number [n, 0]) s = .next (s.refused p m tag .acquire .deadlock d) := by
        intro d hwaits hdead
        exact exec_acquire_refused hserves tag
          (hdecide.trans (State.decideAcquire_of_deadlock hheld hother ((State.waitsFor_qualify ..).trans hwaits)
            ((State.deadlock_qualify ..).trans hdead)))
      have hqueued : s.waitsFor p = none → s.deadlock p 4 h.holder.port = none →
          exec (.acquire p tag m.number [n, 0]) s =
            .next ((u.setToken t { k with waiters := k.waiters ++ [m.on p] }).replied p
              ((Answer.mk .queued (natHalf (k.waiters.length + 1)) []).frame tag 0x30 1)) := by
        intro hwaits hdead
        rw [← hsame]
        exact exec_of_answer hserves .acquire tag [n, 0] _ (serviceOf_acquire p m.number [n, 0]) _ _
          (hdecide.trans (State.decideAcquire_of_queued hheld hother ((State.waitsFor_qualify ..).trans hwaits)
            ((State.deadlock_qualify ..).trans hdead))) rfl
      refine ⟨?noWait, hwaiting, hdeadlock, hqueued, fun hlaws => ⟨?lawfulWaiting, fun hno => ⟨?chain, ?noChain⟩⟩⟩
      case noWait =>
        exact exec_acquire_refused hserves tag
          ((serveAcquire_of_checks _ acquireMode_one hn _).trans (State.decideAcquire_of_no_wait hheld hother))
      case lawfulWaiting =>
        intro d hd w hw hport
        exact hwaiting d (hlaws.waitsFor ⟨hd, w, hw, hport⟩)
      case chain =>
        intro d last g hd hchain hwaiter hg hclosed
        exact hdeadlock d (State.waitsFor_eq_none hno)
          (State.deadlock_of_chain hlaws ⟨hd, hwaiter⟩ hg hclosed hchain (upstream := []) (by simp) (by simp) (by simp))
      case noChain =>
        intro hfree
        exact hqueued (State.waitsFor_eq_none hno) (State.deadlock_eq_none hfree 4)

/-! ## RELEASE_TOKEN (R107) -/

theorem serviceOf_releaseToken (p : Port) (session : Half) (body : List Byte) :
    serviceOf .releaseToken p session body = fenced p session (serveReleaseToken · body) := rfl

theorem serveReleaseToken_of_length (who : SessionRef) {body : List Byte} (hlength : body.length ≠ 1) (s : State) :
    serveReleaseToken who body s = (s, .refuse .badRequest 0) := by
  unfold serveReleaseToken
  split
  · exact absurd rfl hlength
  · rfl

theorem serveReleaseToken_of_range (who : SessionRef) {n : Byte} (hn : 15 < n.toNat) (s : State) :
    serveReleaseToken who [n] s = (s, .refuse .range 1) := by
  have hout : Config.tokenCount ≤ n.toNat := hn
  simp only [serveReleaseToken, if_pos hout]

section
variable {s : State} {who : SessionRef} {n : Byte} (hn : n.toNat ≤ 15)
include hn

theorem serveReleaseToken_of_holder (hheld : (s.token n.toNat).heldBy who = true) :
    serveReleaseToken who [n] s =
      (s.giveUpToken n.toNat, .done ((s.token n.toNat).handOn false s.clock).holderNat []) := by
  have hin : ¬ Config.tokenCount ≤ n.toNat := Nat.not_le_of_lt (Nat.lt_succ_of_le hn)
  simp only [serveReleaseToken, if_neg hin, if_pos hheld]

theorem serveReleaseToken_of_not_holder (hheld : ¬ (s.token n.toNat).heldBy who = true) :
    serveReleaseToken who [n] s = (s, .refuse .notHolder (s.token n.toNat).holderNat) := by
  have hin : ¬ Config.tokenCount ≤ n.toNat := Nat.not_le_of_lt (Nat.lt_succ_of_le hn)
  simp only [serveReleaseToken, if_neg hin, if_neg hheld]

end

theorem exec_releaseToken_refused {s : State} {p : Port} {m : Membership} (h : s.serves p m) (tag : Byte)
    {body : List Byte} {o : ReplyOutcome} {detail : Nat}
    (hrefuse : serveReleaseToken (m.on p) body (s.qualify p m.number) = (s.qualify p m.number, .refuse o detail)) :
    exec (.releaseToken p tag m.number body) s = .next (s.refused p m tag .releaseToken o detail) :=
  exec_of_refusal h .releaseToken tag body _ (serviceOf_releaseToken p m.number body) o detail hrefuse

/-- R107: RELEASE_TOKEN by the holder: the token is given up, and the reply names the session that it passes to. -/
theorem exec_releaseToken_of_holder {s : State} {p : Port} {m : Membership} (h : s.serves p m) (tag : Byte) {n : Byte}
    (hn : n.toNat ≤ 15) {g : Hold} (hhold : (s.token n.toNat).hold = some g) (hown : g.holder = m.on p) :
    exec (.releaseToken p tag m.number [n]) s =
      .next (((s.qualify p m.number).giveUpToken n.toNat).replied p
        ((Answer.done ((s.token n.toNat).handOn false s.clock).holderNat []).frame tag 0x31 1)) := by
  have hheld : ((s.qualify p m.number).token n.toNat).heldBy (m.on p) = true := by
    rw [State.qualify_token, Token.heldBy_iff, hhold, Option.map_some, hown]
  have hserve := serveReleaseToken_of_holder hn hheld
  rw [State.qualify_token, State.qualify_clock] at hserve
  exact exec_of_answer h .releaseToken tag [n] _ (serviceOf_releaseToken p m.number [n]) _ _ hserve
    (by rw [State.giveUpToken_ports])

/-- R107: RELEASE_TOKEN by a session that does not hold the token. -/
theorem exec_releaseToken_of_not_holder {s : State} {p : Port} {m : Membership} (h : s.serves p m) (tag : Byte) {n : Byte}
    (hn : n.toNat ≤ 15) (hother : (s.token n.toNat).hold.map Hold.holder ≠ some (m.on p)) :
    exec (.releaseToken p tag m.number [n]) s =
      .next (s.refused p m tag .releaseToken .notHolder (s.token n.toNat).holderNat) := by
  have hheld : ¬ ((s.qualify p m.number).token n.toNat).heldBy (m.on p) = true := by
    rwa [State.qualify_token, Token.heldBy_iff]
  have hserve := serveReleaseToken_of_not_holder hn hheld
  rw [State.qualify_token] at hserve
  exact exec_releaseToken_refused h tag hserve

/-- Settles O36: the checks of R107 one by one; by the holder, `State.giveUpToken` by the wait list. -/
theorem releaseTokenPassesToTheHead : Obligations.ReleaseTokenPassesToTheHead := by
  refine ⟨fencedOff_of_serviceOf (serve := fun body who => serveReleaseToken who body) serviceOf_releaseToken, ?_⟩
  intro s p m tag hserves
  refine ⟨fun body hlength => exec_releaseToken_refused hserves tag (serveReleaseToken_of_length _ hlength _),
    fun n hn => exec_releaseToken_refused hserves tag (serveReleaseToken_of_range _ hn _), ?_⟩
  intro n hn t u k
  have ht : t < 16 := Nat.lt_succ_of_le hn
  have hsame : u.token t = k := State.qualify_token ..
  have hclock : u.clock = s.clock := State.qualify_clock ..
  refine ⟨?passes, ?alone, ?notHolder, ?free⟩
  case passes =>
    intro h w rest hhold hown hwaiters hother
    rw [exec_releaseToken_of_holder hserves tag hn hhold hown, Token.handOn_cons hwaiters,
      State.giveUpToken_of_head ht (hsame ▸ hhold) (hsame ▸ hwaiters) (hown ▸ hother), hsame, hclock]
    rfl
  case alone =>
    intro h hhold hown hwaiters
    rw [exec_releaseToken_of_holder hserves tag hn hhold hown, Token.handOn_nil hwaiters,
      State.giveUpToken_of_alone ht (hsame ▸ hhold) (hsame ▸ hwaiters), hsame]
    rfl
  case notHolder =>
    intro h hhold hother
    have hcode : k.holderNat = h.holder.port.code.toNat := by rw [Token.holderNat, hhold, Option.elim_some]
    have hnot : k.hold.map Hold.holder ≠ some (m.on p) := by simpa [hhold] using hother
    rw [exec_releaseToken_of_not_holder hserves tag hn hnot, ← hcode]
  case free =>
    intro hhold
    have hcode : k.holderNat = 0 := by rw [Token.holderNat, hhold, Option.elim_none]
    have hnot : k.hold.map Hold.holder ≠ some (m.on p) := by simp [hhold]
    rw [exec_releaseToken_of_not_holder hserves tag hn hnot, ← hcode]

/-! ## CANCEL_WAIT (R108) -/

theorem serviceOf_cancelWait (p : Port) (session : Half) (body : List Byte) :
    serviceOf .cancelWait p session body = fenced p session (serveCancelWait · body) := rfl

theorem serveCancelWait_of_body (who : SessionRef) {body : List Byte} (hbody : body ≠ []) (s : State) :
    serveCancelWait who body s = (s, .refuse .badRequest 0) := if_neg hbody

theorem serveCancelWait_of_none {who : SessionRef} {s : State} (hwaits : s.waitsFor who.port = none) :
    serveCancelWait who [] s = (s, .refuse .notFound 0) := by
  simp only [serveCancelWait, if_true, hwaits]

theorem serveCancelWait_of_some {who : SessionRef} {s : State} {t : Nat} (hwaits : s.waitsFor who.port = some t) :
    serveCancelWait who [] s = (s.setToken t ((s.token t).dropWaiter who), .done t []) := by
  simp only [serveCancelWait, if_true, hwaits]

/-- R108: the entries before and behind a session's only entry close up. -/
theorem Token.dropWaiter_of_append {k : Token} {who : SessionRef} {before behind : List SessionRef}
    (hwaiters : k.waiters = before ++ who :: behind) (hothers : ∀ w ∈ before ++ behind, w ≠ who) :
    k.dropWaiter who = { k with waiters := before ++ behind } := by
  have hkept : (before ++ behind).filter (fun w => w != who) = before ++ behind :=
    List.filter_eq_self.2 fun w hw => bne_iff_ne.2 (hothers w hw)
  rw [List.filter_append] at hkept
  rw [Token.dropWaiter, hwaiters, List.filter_append, List.filter_cons_of_neg (by simp), hkept]

/-- Settles O37: the refusals from the answers of `serveCancelWait`; the token of the entry is the only one whose list the
port stands in, and the entry the only one of the port there. -/
theorem cancelWaitLeavesTheList : Obligations.CancelWaitLeavesTheList := by
  refine ⟨fencedOff_of_serviceOf (serve := fun body who => serveCancelWait who body) serviceOf_cancelWait, ?_⟩
  intro s p m tag hserves
  refine ⟨?body, ?notFound, ?leaves⟩
  case body =>
    intro body hbody
    exact exec_of_refusal hserves .cancelWait tag body _ (serviceOf_cancelWait p m.number body) _ _
      (serveCancelWait_of_body _ hbody _)
  case notFound =>
    intro hno
    have hwaits : (s.qualify p m.number).waitsFor p = none :=
      (State.waitsFor_qualify ..).trans (State.waitsFor_eq_none hno)
    exact exec_of_refusal hserves .cancelWait tag [] _ (serviceOf_cancelWait p m.number []) _ _
      (serveCancelWait_of_none (who := m.on p) hwaits)
  case leaves =>
    intro t before behind ht hwaiters hothers helsewhere
    have hat : s.waitsAt p t := ⟨ht, m.on p, by simp [hwaiters], rfl⟩
    have honly : ∀ u, s.waitsAt p u → u = t := by
      rintro u ⟨hu, w, hw, hport⟩
      by_contra hne
      exact helsewhere u hu hne w hw hport
    have hwaits : (s.qualify p m.number).waitsFor p = some t :=
      (State.waitsFor_qualify ..).trans (State.waitsFor_eq_some hat honly)
    have hdrop := Token.dropWaiter_of_append hwaiters fun w hw heq => hothers w hw (congrArg SessionRef.port heq)
    have hserve := serveCancelWait_of_some (who := m.on p) hwaits
    rw [State.qualify_token, hdrop] at hserve
    exact exec_of_answer hserves .cancelWait tag [] _ (serviceOf_cancelWait p m.number []) _ _ hserve rfl

/-! ## SET_TOKEN_LIMIT (R109) -/

theorem serviceOf_setTokenLimit (p : Port) (session : Half) (body : List Byte) :
    serviceOf .setTokenLimit p session body = fenced p session (serveSetTokenLimit · body) := rfl

theorem serveSetTokenLimit_of_length (who : SessionRef) {body : List Byte} (hlength : body.length ≠ 2) (s : State) :
    serveSetTokenLimit who body s = (s, .refuse .badRequest 0) := by
  unfold serveSetTokenLimit
  split
  · exact absurd rfl hlength
  · rfl

theorem serveSetTokenLimit_of_range (who : SessionRef) {n : Byte} (limit : Byte) (hn : 15 < n.toNat) (s : State) :
    serveSetTokenLimit who [n, limit] s = (s, .refuse .range 1) := by
  have hout : Config.tokenCount ≤ n.toNat := hn
  simp only [serveSetTokenLimit, if_pos hout]

theorem serveSetTokenLimit_of_checks (who : SessionRef) {n : Byte} (limit : Byte) (hn : n.toNat ≤ 15) (s : State) :
    serveSetTokenLimit who [n, limit] s =
      (s.setToken n.toNat { s.token n.toNat with limit := limit }, .done (s.token n.toNat).limit.toNat []) := by
  have hin : ¬ Config.tokenCount ≤ n.toNat := Nat.not_le_of_lt (Nat.lt_succ_of_le hn)
  simp only [serveSetTokenLimit, if_neg hin]

/-- Settles O38: the checks of R109 one by one, then the record with its new limit, on the tokens that the monitor's part
leaves. -/
theorem setTokenLimitKeepsTheHold : Obligations.SetTokenLimitKeepsTheHold := by
  refine ⟨fencedOff_of_serviceOf (serve := fun body who => serveSetTokenLimit who body) serviceOf_setTokenLimit, ?_⟩
  intro s p m tag hserves
  refine ⟨?length, ?range, ?limit⟩
  case length =>
    intro body hlength
    exact exec_of_refusal hserves .setTokenLimit tag body _ (serviceOf_setTokenLimit p m.number body) _ _
      (serveSetTokenLimit_of_length _ hlength _)
  case range =>
    intro n limit hn
    exact exec_of_refusal hserves .setTokenLimit tag [n, limit] _ (serviceOf_setTokenLimit p m.number [n, limit]) _ _
      (serveSetTokenLimit_of_range _ limit hn _)
  case limit =>
    intro n limit hn
    have hserve := serveSetTokenLimit_of_checks (m.on p) limit hn (s.qualify p m.number)
    rw [State.qualify_token] at hserve
    exact exec_of_answer hserves .setTokenLimit tag [n, limit] _ (serviceOf_setTokenLimit p m.number [n, limit]) _ _
      hserve rfl

end Sys2Proof.Machine
end

section
/-! The attention unit (chapter 9): the mask (R160, R167), the watches set and cleared (R161, R162), and the notices that fire
them (R163, R164). -/

namespace Sys2Proof.Machine

/-! ## The record of a port (R157) -/

theorem State.record_of_some {s : State} {p : Port} {a : AttentionRecord} (ha : s.attention.get p = some a) :
    s.record p = a := by
  rw [State.record, ha, Option.getD_some]

@[simp] theorem State.atn_setRecord (s : State) (p : Port) (a : AttentionRecord) : (s.setRecord p a).atn p = a.atn := by
  simp only [State.atn, State.setRecord_attention, PerPort.get_set, if_true]

@[simp] theorem State.atn_replied (s : State) (p q : Port) (frame : List Byte) : (s.replied p frame).atn q = s.atn q := rfl

theorem natHalf_flagNat (b : Bool) : natHalf (flagNat b) = if b then 1 else 0 := by cases b <;> rfl

/-! ## SET_ATTENTION_MASK (R167) -/

/-- R184: a byte is a set of the six causes where its two highest bits are 0. -/
theorem causeBits_iff (b : Byte) : b.extractLsb' 6 2 = 0#2 ↔ b.toNat ≤ 63 := by
  have hlt := b.isLt
  rw [← BitVec.toNat_inj, BitVec.extractLsb'_toNat, Nat.shiftRight_eq_div_pow]
  simp only [BitVec.toNat_ofNat]
  omega

theorem causeSetOf_of_gt {b : Byte} (hb : 63 < b.toNat) : causeSetOf b = none :=
  if_neg fun hbits => Nat.not_le_of_lt hb ((causeBits_iff b).1 hbits)

theorem causeSetOf_of_le {b : Byte} (hb : b.toNat ≤ 63) : causeSetOf b = some (b.setWidth 6) := by
  rw [causeSetOf, if_pos ((causeBits_iff b).2 hb), BitVec.setWidth_eq_extractLsb' (by decide)]

theorem serviceOf_setAttentionMask (p : Port) (session : Half) (body : List Byte) :
    serviceOf .setAttentionMask p session body = fenced p session (serveSetAttentionMask · body) := rfl

theorem serveSetAttentionMask_of_length (who : SessionRef) {body : List Byte} (hlength : body.length ≠ 1) (s : State) :
    serveSetAttentionMask who body s = (s, .refuse .badRequest 0) := by
  unfold serveSetAttentionMask
  split
  · exact absurd rfl hlength
  · rfl

theorem serveSetAttentionMask_of_gt (who : SessionRef) {b : Byte} (hb : 63 < b.toNat) (s : State) :
    serveSetAttentionMask who [b] s = (s, .refuse .badRequest 1) := by
  simp only [serveSetAttentionMask, causeSetOf_of_gt hb]

/-- R160, R167: a byte of the six causes becomes the mask, and the level is the one that it gives with the pending set. -/
theorem serveSetAttentionMask_of_le {who : SessionRef} {b : Byte} (hb : b.toNat ≤ 63) {s : State} {a : AttentionRecord}
    (ha : s.attention.get who.port = some a) :
    serveSetAttentionMask who [b] s =
      (s.setRecord who.port { a with mask := b.setWidth 6, atn := a.pending &&& b.setWidth 6 != 0 },
        ⟨.done, a.mask.setWidth 16, []⟩) := by
  simp only [serveSetAttentionMask, causeSetOf_of_le hb, State.record_of_some ha]
  rfl

/-- Settles O49: the two refusals from the byte's cause set; the level of the port is that of the record put in place. -/
theorem maskDecidesTheLevel : Obligations.MaskDecidesTheLevel := by
  refine ⟨fencedOff_of_serviceOf (serve := fun body who => serveSetAttentionMask who body) serviceOf_setAttentionMask, ?_⟩
  intro s p m tag hserves
  refine ⟨?length, ?outside, ?mask⟩
  case length =>
    intro body hlength
    exact exec_of_refusal hserves .setAttentionMask tag body _ (serviceOf_setAttentionMask p m.number body) _ _
      (serveSetAttentionMask_of_length _ hlength _)
  case outside =>
    intro b hb
    exact exec_of_refusal hserves .setAttentionMask tag [b] _ (serviceOf_setAttentionMask p m.number [b]) _ _
      (serveSetAttentionMask_of_gt _ hb _)
  case mask =>
    intro b a hb ha
    refine ⟨_, exec_of_answer hserves .setAttentionMask tag [b] _ (serviceOf_setAttentionMask p m.number [b]) _ _
      (serveSetAttentionMask_of_le (who := m.on p) hb ha) rfl, rfl, ?level⟩
    case level => simp only [State.atn_replied, State.atn_setRecord]

/-! ## The watch that a SET_WATCH names (R161) -/

/-- R161, R185: the body of a SET_WATCH. -/
abbrev setWatchBody (slot zone kindByte : Byte) (bit : Half) : List Byte := [slot, zone, kindByte] ++ halfBytes bit

theorem watchKindOf_of_gt {b : Byte} (hb : 3 < b.toNat) (bit : Half) : watchKindOf b bit = none := by
  have hzero : b ≠ 0 := by bv_omega
  have hone : b ≠ 1 := by bv_omega
  have htwo : b ≠ 2 := by bv_omega
  have hthree : b ≠ 3 := by bv_omega
  rw [watchKindOf, if_neg hzero, if_neg hone, if_neg htwo, if_neg hthree]

theorem watchKindOf_of_one (bit : Half) : watchKindOf 1 bit = some (.rise bit.toNat) := rfl

theorem watchKindOf_of_two (bit : Half) : watchKindOf 2 bit = some (.fall bit.toNat) := rfl

theorem exists_watchKindOf {b : Byte} (hb : b.toNat ≤ 3) (bit : Half) : ∃ kind, watchKindOf b bit = some kind := by
  have hcases : b = 0 ∨ b = 1 ∨ b = 2 ∨ b = 3 := by bv_omega
  rcases hcases with rfl | rfl | rfl | rfl
  · exact ⟨.change, rfl⟩
  · exact ⟨_, watchKindOf_of_one bit⟩
  · exact ⟨_, watchKindOf_of_two bit⟩
  · exact ⟨.ownership, rfl⟩

/-- R161, R184: the kind bytes 1 and 2 have the bit field checked against the zone. -/
theorem exists_watchKindOf_bit {b : Byte} (hb : b.toNat = 1 ∨ b.toNat = 2) (bit : Half) :
    ∃ kind, watchKindOf b bit = some kind ∧ ∀ s z, State.watchBitMeets s z kind = s.zoneHasBit z bit.toNat := by
  have hcases : b = 1 ∨ b = 2 := by bv_omega
  rcases hcases with rfl | rfl
  · exact ⟨_, watchKindOf_of_one bit, fun _ _ => rfl⟩
  · exact ⟨_, watchKindOf_of_two bit, fun _ _ => rfl⟩

theorem State.zoneExists_iff (s : State) (z : Nat) : s.zoneExists z = true ↔ z = 0 ∨ (s.zone z).isSome := by
  rw [State.zoneExists, Bool.or_eq_true, beq_iff_eq]

theorem State.zoneHasBit_zero (s : State) (b : Nat) : s.zoneHasBit 0 b = decide (b < 128) := rfl

theorem State.zoneHasBit_of_some {s : State} {z : Nat} {r : ZoneRecord} (hz : z ≠ 0) (hr : s.zone z = some r) (b : Nat) :
    s.zoneHasBit z b = r.hasBit b := by
  rw [State.zoneHasBit, if_neg hz, hr, Option.any_some]

/-- R161 check 6: a RISE or FALL watch of a zone that exists passes with a bit of the system zone, or of the zone's record. -/
theorem State.watchBitMeets_of {s : State} {z : Nat} {kind : WatchKind} (hexists : z = 0 ∨ (s.zone z).isSome)
    (hbit : ∀ b, kind = .rise b ∨ kind = .fall b →
      (z = 0 → b < 128) ∧ ∀ r, z ≠ 0 → s.zone z = some r → r.hasBit b = true) : s.watchBitMeets z kind = true := by
  have hmeets : ∀ b, kind = .rise b ∨ kind = .fall b → s.zoneHasBit z b = true := by
    intro b hkind
    obtain ⟨hsystem, hzone⟩ := hbit b hkind
    by_cases hz : z = 0
    · subst hz
      exact decide_eq_true (hsystem rfl)
    · obtain ⟨r, hr⟩ := Option.isSome_iff_exists.1 (hexists.resolve_left hz)
      rw [State.zoneHasBit_of_some hz hr]
      exact hzone r hz hr
  cases kind with
  | change => rfl
  | rise b => exact hmeets b (.inl rfl)
  | fall b => exact hmeets b (.inr rfl)
  | ownership => rfl

/-! ## SET_WATCH (R161) -/

theorem serviceOf_setWatch (p : Port) (session : Half) (body : List Byte) :
    serviceOf .setWatch p session body = fenced p session (serveSetWatch · body) := rfl

theorem serveSetWatch_of_length (who : SessionRef) {body : List Byte} (hlength : body.length ≠ 5) (s : State) :
    serveSetWatch who body s = (s, .refuse .badRequest 0) := by
  unfold serveSetWatch
  split
  · exact absurd rfl hlength
  · rfl

theorem serveSetWatch_of_no_kind (who : SessionRef) (slot zone : Byte) {kindByte : Byte} {bit : Half}
    (hkind : watchKindOf kindByte bit = none) (s : State) :
    serveSetWatch who (setWatchBody slot zone kindByte bit) s = (s, .refuse .badRequest 1) := by
  simp only [serveSetWatch, setWatchBody, halfBytes, List.cons_append, List.nil_append, half_halfBytes, hkind]

section
variable {who : SessionRef} {slot zone kindByte : Byte} {bit : Half} {kind : WatchKind}
  (hkind : watchKindOf kindByte bit = some kind)
include hkind

/-- R161: a body whose kind byte names a kind is decided by checks 3 to 6. -/
theorem serveSetWatch_of_kind (s : State) :
    serveSetWatch who (setWatchBody slot zone kindByte bit) s =
      if 8 ≤ slot.toNat then (s, .refuse .range 1)
      else if 31 < zone.toNat then (s, .refuse .range 2)
      else if !s.zoneExists zone.toNat then (s, .refuse .notFound 0)
      else if !s.watchBitMeets zone.toNat kind then (s, .refuse .range 3)
      else
        (s.setRecord who.port ((s.record who.port).fill slot.toNat (some (.set zone.toNat kind))),
          .done (flagNat ((s.record who.port).slot slot.toNat).isSome) []) := by
  simp only [serveSetWatch, setWatchBody, halfBytes, List.cons_append, List.nil_append, half_halfBytes, hkind]
  rfl

theorem serveSetWatch_of_slot (hslot : 7 < slot.toNat) (s : State) :
    serveSetWatch who (setWatchBody slot zone kindByte bit) s = (s, .refuse .range 1) := by
  rw [serveSetWatch_of_kind hkind, if_pos (Nat.succ_le_of_lt hslot)]

variable (hslot : slot.toNat ≤ 7)
include hslot

theorem serveSetWatch_of_zone (hzone : 31 < zone.toNat) (s : State) :
    serveSetWatch who (setWatchBody slot zone kindByte bit) s = (s, .refuse .range 2) := by
  rw [serveSetWatch_of_kind hkind, if_neg (by omega), if_pos hzone]

variable (hzone : zone.toNat ≤ 31)
include hzone

theorem serveSetWatch_of_no_zone {s : State} (hlow : 1 ≤ zone.toNat) (hnone : s.zone zone.toNat = none) :
    serveSetWatch who (setWatchBody slot zone kindByte bit) s = (s, .refuse .notFound 0) := by
  have hmissing : s.zoneExists zone.toNat = false := by
    simp [State.zoneExists, hnone, Nat.ne_of_gt hlow]
  rw [serveSetWatch_of_kind hkind, if_neg (by omega), if_neg (by omega), hmissing]
  rfl

variable {s : State} (hexists : zone.toNat = 0 ∨ (s.zone zone.toNat).isSome)
include hexists

theorem serveSetWatch_of_bit_outside (hbit : s.watchBitMeets zone.toNat kind = false) :
    serveSetWatch who (setWatchBody slot zone kindByte bit) s = (s, .refuse .range 3) := by
  rw [serveSetWatch_of_kind hkind, if_neg (by omega), if_neg (by omega), (s.zoneExists_iff _).2 hexists, hbit]
  rfl

theorem serveSetWatch_of_checks (hbit : s.watchBitMeets zone.toNat kind = true) {a : AttentionRecord}
    (ha : s.attention.get who.port = some a) :
    serveSetWatch who (setWatchBody slot zone kindByte bit) s =
      (s.setRecord who.port (a.fill slot.toNat (some (.set zone.toNat kind))),
        .done (flagNat (a.slot slot.toNat).isSome) []) := by
  rw [serveSetWatch_of_kind hkind, if_neg (by omega), if_neg (by omega), (s.zoneExists_iff _).2 hexists, hbit,
    State.record_of_some ha]
  rfl

end

theorem exec_setWatch_refused {s : State} {p : Port} {m : Membership} (h : s.serves p m) (tag : Byte) {body : List Byte}
    {o : ReplyOutcome} {detail : Nat}
    (hrefuse : serveSetWatch (m.on p) body (s.qualify p m.number) = (s.qualify p m.number, .refuse o detail)) :
    exec (.setWatch p tag m.number body) s = .next (s.refused p m tag .setWatch o detail) :=
  exec_of_refusal h .setWatch tag body _ (serviceOf_setWatch p m.number body) o detail hrefuse

/-! ## CLEAR_WATCH (R162) -/

theorem serviceOf_clearWatch (p : Port) (session : Half) (body : List Byte) :
    serviceOf .clearWatch p session body = fenced p session (serveClearWatch · body) := rfl

theorem serveClearWatch_of_length (who : SessionRef) {body : List Byte} (hlength : body.length ≠ 1) (s : State) :
    serveClearWatch who body s = (s, .refuse .badRequest 0) := by
  unfold serveClearWatch
  split
  · exact absurd rfl hlength
  · rfl

theorem serveClearWatch_of_range (who : SessionRef) {slot : Byte} (hslot : 7 < slot.toNat) (s : State) :
    serveClearWatch who [slot] s = (s, .refuse .range 1) := by
  have hout : Config.slotCount ≤ slot.toNat := hslot
  simp only [serveClearWatch, if_pos hout]

section
variable {who : SessionRef} {slot : Byte} {s : State} {a : AttentionRecord} (hslot : slot.toNat ≤ 7)
  (ha : s.attention.get who.port = some a)
include hslot ha

theorem serveClearWatch_of_none (hempty : a.slot slot.toNat = none) :
    serveClearWatch who [slot] s = (s, .refuse .notFound 0) := by
  have hin : ¬ Config.slotCount ≤ slot.toNat := Nat.not_le_of_lt (Nat.lt_succ_of_le hslot)
  simp only [serveClearWatch, if_neg hin, State.record_of_some ha, hempty]

theorem serveClearWatch_of_some {w : Watch} (hwatch : a.slot slot.toNat = some w) :
    serveClearWatch who [slot] s = (s.setRecord who.port (a.fill slot.toNat none), .done (flagNat w.fired) []) := by
  have hin : ¬ Config.slotCount ≤ slot.toNat := Nat.not_le_of_lt (Nat.lt_succ_of_le hslot)
  simp only [serveClearWatch, if_neg hin, State.record_of_some ha, hwatch]

end

theorem exec_clearWatch_refused {s : State} {p : Port} {m : Membership} (h : s.serves p m) (tag : Byte) {body : List Byte}
    {o : ReplyOutcome} {detail : Nat}
    (hrefuse : serveClearWatch (m.on p) body (s.qualify p m.number) = (s.qualify p m.number, .refuse o detail)) :
    exec (.clearWatch p tag m.number body) s = .next (s.refused p m tag .clearWatch o detail) :=
  exec_of_refusal h .clearWatch tag body _ (serviceOf_clearWatch p m.number body) o detail hrefuse

/-! ## The notices (R163, R164) -/

theorem Watch.fire_eq (w : Watch) :
    w.fire =
      if w.fired then { w with overrun := if w.overrun = 255 then 255 else w.overrun + 1 } else { w with fired := true } := by
  unfold Watch.fire satInc
  by_cases hfull : w.overrun = 255
  · simp [hfull]
  · have hones : ¬ w.overrun = BitVec.allOnes 8 := hfull
    simp only [if_neg hfull, if_neg hones]

/-- R163: a firing changes the slots, the pending set and the level alone. -/
theorem AttentionRecord.fireWhere_frame (f : Watch → Bool) (r : AttentionRecord) :
    r.fireWhere f =
      { r with slots := (r.fireWhere f).slots, pending := (r.fireWhere f).pending, atn := (r.fireWhere f).atn } := by
  unfold AttentionRecord.fireWhere
  split <;> rfl

theorem Watch.seesOwnership_eq (zs : List Nat) (w : Watch) :
    w.seesOwnership zs = (decide (w.kind = .ownership) && decide (w.zone ∈ zs)) := by
  unfold Watch.seesOwnership
  cases w.kind <;> simp [List.contains_eq_mem]

/-- R163: the watches that see a change notice, by their kinds. -/
theorem Watch.eq_seesChange {n : Notice} {sees : Watch → Bool}
    (hchange : ∀ w, w.kind = .change → sees w = decide (w.zone ∈ n.generations))
    (hrise : ∀ w b, w.kind = .rise b → sees w = decide ((b, true) ∈ n.edges))
    (hfall : ∀ w b, w.kind = .fall b → sees w = decide ((b, false) ∈ n.edges))
    (hownership : ∀ w, w.kind = .ownership → sees w = false) : sees = Watch.seesChange n := by
  funext w
  unfold Watch.seesChange
  cases hkind : w.kind with
  | change => simp only [hchange w hkind, List.contains_eq_mem]
  | rise b => simp only [hrise w b hkind, List.contains_eq_mem]
  | fall b => simp only [hfall w b hkind, List.contains_eq_mem]
  | ownership => simp only [hownership w hkind]

/-- Settles O47: the checks of R161 and R162 one by one, on the zones that the monitor's part leaves; each notice fires, in
every record, the watches that see it, which `AttentionRecord.slot_fireWhere` gives slot by slot. -/
theorem watchesAreSetAndCleared : Obligations.WatchesAreSetAndCleared := by
  refine ⟨fencedOff_of_serviceOf (serve := fun body who => serveSetWatch who body) serviceOf_setWatch,
    fencedOff_of_serviceOf (serve := fun body who => serveClearWatch who body) serviceOf_clearWatch, ?requests, ?notices⟩
  case requests =>
    intro s p m tag hserves
    refine ⟨fun body hlength => exec_setWatch_refused hserves tag (serveSetWatch_of_length _ hlength _),
      fun body hlength => exec_clearWatch_refused hserves tag (serveClearWatch_of_length _ hlength _),
      fun slot hslot => exec_clearWatch_refused hserves tag (serveClearWatch_of_range _ hslot _), ?checks, ?passes⟩
    case checks =>
      intro slot zone kindByte bit setting refusedWith
      refine ⟨?kind, ?slot, ?zone, ?noZone, ?systemBit, ?zoneBit⟩
      case kind =>
        intro hbyte
        exact exec_setWatch_refused hserves tag (serveSetWatch_of_no_kind _ slot zone (watchKindOf_of_gt hbyte bit) _)
      case slot =>
        intro hbyte hslot
        obtain ⟨kind, hkind⟩ := exists_watchKindOf hbyte bit
        exact exec_setWatch_refused hserves tag (serveSetWatch_of_slot hkind hslot _)
      case zone =>
        intro hbyte hslot hzone
        obtain ⟨kind, hkind⟩ := exists_watchKindOf hbyte bit
        exact exec_setWatch_refused hserves tag (serveSetWatch_of_zone hkind hslot hzone _)
      case noZone =>
        intro hbyte hslot hlow hzone hnone
        obtain ⟨kind, hkind⟩ := exists_watchKindOf hbyte bit
        exact exec_setWatch_refused hserves tag
          (serveSetWatch_of_no_zone hkind hslot hzone hlow ((State.qualify_zone ..).trans hnone))
      case systemBit =>
        intro hbyte hslot hzero hbit
        obtain ⟨kind, hkind, hmeets⟩ := exists_watchKindOf_bit hbyte bit
        refine exec_setWatch_refused hserves tag
          (serveSetWatch_of_bit_outside hkind hslot (by omega) (.inl hzero) ?_)
        rw [hmeets, hzero, State.zoneHasBit_zero]
        exact decide_eq_false (Nat.not_lt_of_le hbit)
      case zoneBit =>
        intro r hbyte hslot hlow hzone hr hbit
        obtain ⟨kind, hkind, hmeets⟩ := exists_watchKindOf_bit hbyte bit
        have hr' : (s.qualify p m.number).zone zone.toNat = some r := (State.qualify_zone ..).trans hr
        refine exec_setWatch_refused hserves tag
          (serveSetWatch_of_bit_outside hkind hslot hzone (.inr (Option.isSome_of_eq_some hr')) ?_)
        rw [hmeets, State.zoneHasBit_of_some (Nat.ne_of_gt hlow) hr', hbit]
    case passes =>
      intro slot a hslot u ha
      have hzones : ∀ z, u.zone z = s.zone z := State.qualify_zone s p m.number
      refine ⟨?set, ?clear, ?empty⟩
      case set =>
        intro zone kindByte bit kind hkind hzone hexists hbit
        rw [← hzones] at hexists hbit
        rw [← natHalf_flagNat]
        exact exec_of_answer hserves .setWatch tag _ _ (serviceOf_setWatch p m.number _) _ _
          (serveSetWatch_of_checks (who := m.on p) hkind hslot hzone hexists (State.watchBitMeets_of hexists hbit) ha) rfl
      case clear =>
        intro w hwatch
        rw [← natHalf_flagNat]
        exact exec_of_answer hserves .clearWatch tag _ _ (serviceOf_clearWatch p m.number _) _ _
          (serveClearWatch_of_some (who := m.on p) hslot ha hwatch) rfl
      case empty =>
        intro hempty
        exact exec_clearWatch_refused hserves tag (serveClearWatch_of_none (who := m.on p) hslot ha hempty)
  case notices =>
    intro s t sees hnotice
    have ht : t = s.mapAttention (AttentionRecord.fireWhere sees) := by
      rcases hnotice with ⟨zs, edges, rfl, hsees⟩ | ⟨zs, rfl, hsees⟩
      · have hchange : sees = Watch.seesChange ⟨zs, edges⟩ :=
          Watch.eq_seesChange (fun w hkind => by rw [hsees, hkind]) (fun w b hkind => by rw [hsees, hkind])
            (fun w b hkind => by rw [hsees, hkind]) (fun w hkind => by rw [hsees, hkind])
        rw [hchange, State.fireChange]
      · have hownership : sees = Watch.seesOwnership zs :=
          funext fun w => (hsees w).trans (Watch.seesOwnership_eq zs w).symm
        rw [hownership, State.fireOwnership]
    subst ht
    refine ⟨rfl, fun q => ⟨?noRecord, fun a ha hwf =>
      ⟨a.fireWhere sees, ?record, a.fireWhere_frame sees, ?slots, ?fires, ?stands⟩⟩⟩
    case noRecord =>
      intro hnone
      rw [State.attention_mapAttention, hnone, Option.map_none]
    case record => rw [State.attention_mapAttention, ha, Option.map_some]
    case slots =>
      intro k
      simp only [AttentionRecord.slot_fireWhere, Watch.fire_eq]
    case fires =>
      rintro ⟨k, w, hw, hsee⟩
      exact AttentionRecord.fireWhere_of_slot sees a k w hw hsee
    case stands => exact AttentionRecord.fireWhere_of_unseen sees a hwf

end Sys2Proof.Machine
end

section
/-! RAISE_FAULT at the fault list (chapter 10, R173 to R177): the FAULT cause, the list after a raise, and the answer. -/

namespace Sys2Proof.Machine

/-! ## The FAULT cause (R177) -/

/-- A cause set joined to another is found in it whole. -/
theorem CauseSet.or_and_self (x c : CauseSet) : (x ||| c) &&& c = c := by
  ext i
  simp +contextual

/-- Causes joined to a set leave its part in others. -/
theorem CauseSet.or_and_of_disjoint (x : CauseSet) {d c : CauseSet} (hdisjoint : d &&& c = 0) :
    (x ||| d) &&& c = x &&& c := by
  rw [BitVec.and_or_distrib_right, hdisjoint]
  exact BitVec.or_zero

/-- R25, R36, R69: the monitor's part adds WATCH and PEER to pending sets, or nothing. -/
theorem State.qualify_pendingSet (s : State) (p : Port) (n : Half) (q : Port) {c : CauseSet}
    (hwatch : c &&& Cause.watch.bit = 0) (hpeer : Cause.peer.bit &&& c = 0) :
    ((s.qualify p n).attention.get q).map (fun a => a.pending &&& c) =
      (s.attention.get q).map fun a => a.pending &&& c := by
  have hlate : ∀ r : PortRecord, ((((s.setPort p r).writeMonitor p).raisePeer p).attention.get q).map
      (fun a => a.pending &&& c) = (s.attention.get q).map fun a => a.pending &&& c := by
    intro r
    have hwritten := State.writeSystem_pendingSet (s.setPort p r) (monitorPoints p ((s.setPort p r).ports.get p)) q c hwatch
    rw [State.attention_raisePeer]
    split
    · exact hwritten
    · simp only [Option.map_map, Function.comp_def, AttentionRecord.pending_raise, CauseSet.or_and_of_disjoint _ hpeer]
      exact hwritten
  unfold State.qualify
  split
  · split <;> rfl
  · split
    · exact hlate _
    · rfl
  · rfl
  · rfl

theorem State.qualify_pendingFault (s : State) (p : Port) (n : Half) (q : Port) :
    ((s.qualify p n).attention.get q).map (fun a => a.pending &&& 32) =
      (s.attention.get q).map fun a => a.pending &&& 32 := State.qualify_pendingSet s p n q (by decide) (by decide)

/-- R177: a FAULT raise reaches the record of every port. -/
theorem State.attention_raiseFaultAttention (s : State) (q : Port) :
    s.raiseFaultAttention.attention.get q = (s.attention.get q).map (AttentionRecord.raise · .fault .none) := by
  rw [State.raiseFaultAttention, State.attention_raiseFor _ _ _ _ (by decide), if_pos (by cases q <;> decide)]

/-- R173: the list's points written leave the FAULT cause of every record to the raise that follows. -/
theorem State.writeFaults_pendingFault (s : State) (n : Half) (o : Origin) (r : Half) (q : Port) :
    ((s.writeFaults (s.enterFault n o r)).attention.get q).map (fun a => a.pending &&& 32) =
      (s.attention.get q).map fun a => a.pending &&& 32 := by
  rw [State.writeFaults, State.writeSystem_pendingSet _ _ _ _ (by decide), State.enterFault_frame]

/-- R177: a raise that the full list refuses raises FAULT for no session. -/
theorem State.raiseFault_pendingFault_of_full {s : State} {n : Half} (hkind : s.raiseKind n = .full) (o : Origin) (r : Half)
    (q : Port) :
    ((s.raiseFault n o r).attention.get q).map (fun a => a.pending &&& 32) =
      (s.attention.get q).map fun a => a.pending &&& 32 := by
  simp only [State.raiseFault, hkind, State.writeFaults_pendingFault]

/-- R174, R177: a repeat and an append end with FAULT raised. -/
theorem State.raiseFault_of_entered {s : State} {n : Half} (hkind : s.raiseKind n ≠ .full) (o : Origin) (r : Half) :
    s.raiseFault n o r = (s.writeFaults (s.enterFault n o r)).raiseFaultAttention := by
  unfold State.raiseFault
  dsimp only
  split
  · exact absurd ‹_› hkind
  · rfl
  · rfl

/-- R177: a repeat and an append raise FAULT for every session. -/
theorem State.raiseFault_pendingFault_of_entered {s : State} {n : Half} (hkind : s.raiseKind n ≠ .full) (o : Origin)
    (r : Half) (q : Port) :
    ((s.raiseFault n o r).attention.get q).map (fun a => a.pending &&& 32) = (s.attention.get q).map fun _ => 32 := by
  have hkept := congrArg (Option.map fun _ : CauseSet => (32 : CauseSet)) (s.writeFaults_pendingFault n o r q)
  have hraised : ∀ a : AttentionRecord, (a.raise .fault .none).pending &&& 32 = 32 := fun a =>
    (congrArg (· &&& 32) (a.pending_raise .fault .none)).trans (CauseSet.or_and_self _ _)
  rw [State.raiseFault_of_entered hkind, State.attention_raiseFaultAttention]
  simpa only [Option.map_map, Function.comp_def, hraised] using hkept

/-! ## The list after a raise (R174) -/

@[simp] theorem State.raiseKind_qualify (s : State) (p : Port) (m n : Half) :
    (s.qualify p m).raiseKind n = s.raiseKind n := by
  unfold State.raiseKind State.hasFault
  rw [State.qualify_faults]

theorem State.hasFault_iff (s : State) (n : Half) : s.hasFault n = true ↔ ∃ f ∈ s.faults, f.number = n := by
  simp [State.hasFault]

section
variable {s : State} {n : Half}

theorem State.raiseKind_of_listed (hlisted : ∃ f ∈ s.faults, f.number = n) : s.raiseKind n = .repeated :=
  if_pos ((s.hasFault_iff n).2 hlisted)

theorem State.not_hasFault (hnew : ∀ f ∈ s.faults, f.number ≠ n) : ¬ s.hasFault n = true := by
  rw [State.hasFault_iff]
  rintro ⟨f, hf, hnumber⟩
  exact hnew f hf hnumber

theorem State.raiseKind_of_room (hnew : ∀ f ∈ s.faults, f.number ≠ n)
    (hroom : s.faults.length < Config.faultEntries) : s.raiseKind n = .append := by
  rw [State.raiseKind, if_neg (State.not_hasFault hnew), if_pos hroom]

theorem State.raiseKind_of_full (hnew : ∀ f ∈ s.faults, f.number ≠ n)
    (hfull : Config.faultEntries ≤ s.faults.length) : s.raiseKind n = .full := by
  rw [State.raiseKind, if_neg (State.not_hasFault hnew), if_neg (Nat.not_lt_of_le hfull)]

/-- R174: a repeat changes the one entry of the number, in its place. -/
theorem State.faults_enterFault_of_listed {before after : List FaultEntry} {e : FaultEntry}
    (hlist : s.faults = before ++ e :: after) (hnumber : e.number = n) (hother : ∀ f ∈ before ++ after, f.number ≠ n)
    (o : Origin) (r : Half) :
    (s.enterFault n o r).faults = before ++ e.again s.clock s.epoch :: after := by
  have hkept : ∀ l : List FaultEntry, (∀ f ∈ l, f.number ≠ n) →
      l.map (fun f => if f.number = n then f.again s.clock s.epoch else f) = l := fun l hl =>
    (List.map_congr_left fun f hf => if_neg (hl f hf)).trans (List.map_id l)
  obtain ⟨hbefore, hafter⟩ := List.forall_mem_append.1 hother
  have hkind : s.raiseKind n = .repeated := State.raiseKind_of_listed ⟨e, by simp [hlist], hnumber⟩
  simp only [State.enterFault, hkind, hlist, List.map_append, List.map_cons, hkept before hbefore, hkept after hafter,
    if_pos hnumber]

/-- R174: an append puts the new entry behind the others; it is the first-out one of an empty list. -/
theorem State.faults_enterFault_of_room (hkind : s.raiseKind n = .append) (o : Origin) (r : Half) :
    (s.enterFault n o r).faults = s.faults ++ [.new n o r s.clock s.epoch s.faults.isEmpty] := by
  simp only [State.enterFault, hkind]

/-- R174, R175: only a raise that the full list refuses is counted. -/
theorem State.overflow_enterFault_of_entered (hkind : s.raiseKind n ≠ .full) (o : Origin) (r : Half) :
    (s.enterFault n o r).overflow = s.overflow := by
  unfold State.enterFault
  split
  · rfl
  · rfl
  · exact absurd ‹_› hkind

theorem State.enterFault_of_full (hkind : s.raiseKind n = .full) (o : Origin) (r : Half) :
    s.enterFault n o r = { s with overflow := satInc s.overflow } := by
  simp only [State.enterFault, hkind]

/-! ## What the answer tells of the list (R175) -/

variable {before after : List FaultEntry} {e : FaultEntry} (hlist : s.faults = before ++ e :: after)
  (hnumber : e.number = n) (hbefore : ∀ f ∈ before, f.number ≠ n)
include hlist hnumber hbefore

theorem State.faultPlace_of_first : s.faultPlace n = before.length + 1 := by
  have hnone : before.findIdx (fun f => f.number == n) = before.length :=
    List.findIdx_eq_length_of_false fun f hf => beq_false_of_ne (hbefore f hf)
  rw [State.faultPlace, hlist, List.findIdx_append, hnone, if_neg (Nat.lt_irrefl _), List.findIdx_cons, hnumber]
  simp

theorem State.faultRepeats_of_first : s.faultRepeats n = e.repeats := by
  have hnone : before.find? (fun f => f.number == n) = none :=
    List.find?_eq_none.2 fun f hf => by simpa using hbefore f hf
  rw [State.faultRepeats, hlist, List.find?_append, hnone, Option.none_or, List.find?_cons_of_pos (by simpa using hnumber)]
  rfl

end

/-! ## The points of the list (R173) -/

/-- R25: the monitor's part writes none of the list's points. -/
theorem State.showsFaults_qualify {s : State} (hshows : s.showsFaults) (p : Port) (n : Half) :
    (s.qualify p n).showsFaults := by
  have hport := Port.index_lt p
  exact State.showsFaults_congr hshows
    (fun i hlow hhigh => State.qualify_bit s p n i (by omega) ⟨by omega, by omega, by omega⟩)
    (fun i hlow hhigh => State.qualify_word s p n i (by omega) (by omega)) (State.qualify_faults ..)
    (State.qualify_overflow ..)

/-- R173: bit 61 shows an entry that no port has acknowledged. -/
theorem State.showsFaults.bit_of_unacknowledged {s : State} (hshows : s.showsFaults) {e : FaultEntry} (he : e ∈ s.faults)
    (hack : e.acknowledged = 0) : s.bit 61 = true := by
  obtain ⟨⟨-, hbit, -⟩, -⟩ := hshows
  exact hbit.trans (List.any_eq_true.2 ⟨e, he, beq_iff_eq.2 hack⟩)

/-! ## RAISE_FAULT (R175) -/

theorem serviceOf_raiseFault (p : Port) (session : Half) (body : List Byte) :
    serviceOf .raiseFault p session body = fenced p session (serveRaiseFault · body) := rfl

theorem serveRaiseFault_of_length (who : SessionRef) {body : List Byte} (hlength : body.length ≠ 2) (s : State) :
    serveRaiseFault who body s = (s, .refuse .badRequest 0) := by
  unfold serveRaiseFault
  split
  · exact absurd rfl hlength
  · rfl

theorem serveRaiseFault_of_range (who : SessionRef) {n : Half} (hrange : n.toNat = 0 ∨ 4031 < n.toNat) (s : State) :
    serveRaiseFault who (halfBytes n) s = (s, .refuse .range 1) := by
  simp only [serveRaiseFault, halfBytes, half_halfBytes, if_pos hrange]

theorem serveRaiseFault_of_checks (who : SessionRef) {n : Half} (hlow : 1 ≤ n.toNat) (hhigh : n.toNat ≤ 4031)
    (s : State) :
    serveRaiseFault who (halfBytes n) s = s.decideRaise who n := by
  have hrange : ¬ (n.toNat = 0 ∨ 4031 < n.toNat) := by omega
  simp only [serveRaiseFault, halfBytes, half_halfBytes, if_neg hrange]

theorem State.decideRaise_of_full {s : State} {n : Half} (hkind : s.raiseKind n = .full) (who : SessionRef) :
    s.decideRaise who n =
      (s.raiseFault n (.port who.port) who.number,
        ⟨.listFull, (s.raiseFault n (.port who.port) who.number).overflow, []⟩) := by
  simp only [State.decideRaise, hkind]

/-- R175: a repeat and an append are answered in one way, from the entry that the raise leaves. -/
theorem State.decideRaise_of_entered {s : State} {n : Half} (hkind : s.raiseKind n ≠ .full) (who : SessionRef) :
    s.decideRaise who n =
      (s.raiseFault n (.port who.port) who.number,
        .done ((s.raiseFault n (.port who.port) who.number).faultRepeats n).toNat
          [natByte ((s.raiseFault n (.port who.port) who.number).faultPlace n)]) := by
  unfold State.decideRaise
  dsimp only
  split
  · exact absurd ‹_› hkind
  · rfl
  · rfl

section
variable {s : State} {p : Port} {m : Membership} (hserves : s.serves p m) (tag : Byte)
include hserves

theorem exec_raiseFault_refused {body : List Byte} {o : ReplyOutcome} {detail : Nat}
    (hrefuse : serveRaiseFault (m.on p) body (s.qualify p m.number) = (s.qualify p m.number, .refuse o detail)) :
    exec (.raiseFault p tag m.number body) s = .next (s.refused p m tag .raiseFault o detail) :=
  exec_of_refusal hserves .raiseFault tag body _ (serviceOf_raiseFault p m.number body) o detail hrefuse

variable {n : Half} (hlow : 1 ≤ n.toNat) (hhigh : n.toNat ≤ 4031)
include hlow hhigh

/-- R175: a RAISE_FAULT of a number in range is the raise with the requester's origin, and its answer. -/
theorem exec_raiseFault_of_checks {a : Answer}
    (hdecide : (s.qualify p m.number).decideRaise (m.on p) n =
      ((s.qualify p m.number).raiseFault n (.port p) m.number, a)) :
    exec (.raiseFault p tag m.number (halfBytes n)) s =
      .next (((s.qualify p m.number).raiseFault n (.port p) m.number).replied p (a.frame tag 0x50 1)) :=
  exec_of_answer hserves .raiseFault tag _ _ (serviceOf_raiseFault p m.number _) _ _
    ((serveRaiseFault_of_checks _ hlow hhigh _).trans hdecide) (congrArg (·.get p) (State.raiseFault_ports ..))

/-- R173 to R177: a RAISE_FAULT that is not refused, from the list in which the raise leaves the number's first entry, not
acknowledged: the overflow count, the points, the FAULT cause and the reply. -/
theorem exec_raiseFault_of_entered (hkind : s.raiseKind n ≠ .full) {before after : List FaultEntry} {e : FaultEntry}
    (henter : ((s.qualify p m.number).enterFault n (.port p) m.number).faults = before ++ e :: after)
    (hnumber : e.number = n) (hbefore : ∀ f ∈ before, f.number ≠ n) (hack : e.acknowledged = 0) :
    ∃ t, exec (.raiseFault p tag m.number (halfBytes n)) s = .next t ∧ t.faults = before ++ e :: after ∧
      t.overflow = s.overflow ∧ (s.showsFaults → t.showsFaults ∧ t.bit 61 = true) ∧
      (∀ q, (t.attention.get q).map (fun a => a.pending &&& 32) = (s.attention.get q).map fun _ => 32) ∧
      (t.links.get p).reply =
        some ((Answer.mk .done (natHalf e.repeats.toNat) [natByte (before.length + 1)]).frame tag 0x50 1) := by
  have hkind' : (s.qualify p m.number).raiseKind n ≠ .full := by rwa [State.raiseKind_qualify]
  have hlist : ((s.qualify p m.number).raiseFault n (.port p) m.number).faults = before ++ e :: after :=
    (State.raiseFault_faults ..).trans henter
  have hanswer := State.decideRaise_of_entered hkind' (m.on p)
  rw [State.faultRepeats_of_first hlist hnumber hbefore, State.faultPlace_of_first hlist hnumber hbefore] at hanswer
  refine ⟨_, exec_raiseFault_of_checks hserves tag hlow hhigh hanswer, hlist, ?overflow, ?points, ?attention, ?reply⟩
  case overflow =>
    rw [State.replied_overflow, State.raiseFault_overflow, State.overflow_enterFault_of_entered hkind',
      State.qualify_overflow]
  case points =>
    intro hshows
    have hshown := State.showsFaults_raiseFault (State.showsFaults_qualify hshows p m.number) n (.port p) m.number
    exact ⟨hshown, hshown.bit_of_unacknowledged (e := e) (by rw [hlist]; simp) hack⟩
  case attention =>
    intro q
    have hsessions := congrArg (Option.map fun _ : CauseSet => (32 : CauseSet)) (s.qualify_pendingFault p m.number q)
    rw [Option.map_map, Option.map_map] at hsessions
    exact (State.raiseFault_pendingFault_of_entered hkind' _ _ q).trans hsessions
  case reply =>
    rw [State.replied_link]
    rfl

end

/-- Settles O50: the fence and the two checks from the service; then the list decides. A repeat and an append leave an entry
of the number that no port has acknowledged, which `exec_raiseFault_of_entered` turns into points, attention and reply; a
full list leaves the count alone. -/
theorem raiseFaultRepeatsAppendsOrIsRefused : Obligations.RaiseFaultRepeatsAppendsOrIsRefused := by
  refine ⟨fencedOff_of_serviceOf (serve := fun body who => serveRaiseFault who body) serviceOf_raiseFault, ?_⟩
  intro s p m tag hserves
  refine ⟨fun body hlength => exec_raiseFault_refused hserves tag (serveRaiseFault_of_length _ hlength _),
    fun n hrange => exec_raiseFault_refused hserves tag (serveRaiseFault_of_range _ hrange _), ?_⟩
  intro n hlow hhigh
  have hfaults : (s.qualify p m.number).faults = s.faults := State.qualify_faults ..
  refine ⟨?repeats, ?appends, ?refused⟩
  case repeats =>
    intro before after e hlist hnumber hother
    have hkind : s.raiseKind n = .repeated := State.raiseKind_of_listed ⟨e, by simp [hlist], hnumber⟩
    have henter := State.faults_enterFault_of_listed (hfaults.trans hlist) hnumber hother (.port p) m.number
    rw [State.qualify_clock, State.qualify_epoch] at henter
    exact exec_raiseFault_of_entered hserves tag hlow hhigh (by simp [hkind]) henter hnumber
      (List.forall_mem_append.1 hother).1 rfl
  case appends =>
    intro hnew hroom
    have hkind : s.raiseKind n = .append := State.raiseKind_of_room hnew hroom
    have henter := State.faults_enterFault_of_room ((State.raiseKind_qualify s p m.number n).trans hkind) (.port p)
      m.number
    rw [State.qualify_clock, State.qualify_epoch, hfaults] at henter
    exact exec_raiseFault_of_entered hserves tag hlow hhigh (by simp [hkind]) henter rfl hnew rfl
  case refused =>
    intro hnew hfull
    have hkind : (s.qualify p m.number).raiseKind n = .full :=
      (State.raiseKind_qualify ..).trans (State.raiseKind_of_full hnew hfull)
    have henter := State.enterFault_of_full hkind (.port p) m.number
    have hoverflow : ((s.qualify p m.number).raiseFault n (.port p) m.number).overflow = satInc s.overflow := by
      rw [State.raiseFault_overflow, henter, State.qualify_overflow]
    have hanswer := State.decideRaise_of_full hkind (m.on p)
    rw [hoverflow] at hanswer
    refine ⟨_, exec_raiseFault_of_checks hserves tag hlow hhigh hanswer, ?list, hoverflow, ?points, ?attention, ?reply⟩
    case list =>
      rw [State.replied_faults, State.raiseFault_faults, henter]
      exact hfaults
    case points =>
      exact fun hshows => State.showsFaults_raiseFault (State.showsFaults_qualify hshows p m.number) n (.port p) m.number
    case attention => exact fun q => State.raiseFault_pendingFault_of_full hkind _ _ q
    case reply => rw [State.replied_link]

end Sys2Proof.Machine
end

section
/-! What every step keeps: the commands sorted into the few kinds of change that they make, so that a law of the state is proved
once for each kind and not once for each of the 54 rows. -/

namespace Sys2Proof.Machine

/-! ## A step, taken apart -/

/-- What makes every step that starts in `P` end in `R`: `P` holds up to the service of a request, `R` from then on. -/
structure StepKeeps (P R : State → Prop) : Prop where
  weaken : ∀ s, P s → R s
  linkBefore : ∀ s p l, P s → P (s.setLink p l)
  monitor : ∀ s p n, P s → P (s.qualify p n)
  service : ∀ s k p n body, P s → R (serviceOf k p n body s).1
  link : ∀ s p l, R s → R (s.setLink p l)
  due : ∀ s d, R s → R (s.takeDue d)
  advance : ∀ s, R s → R { s.takeAllDue with clock := s.clock + 1, tickDue := true }
  phase : ∀ s ph, R s → R { s with phase := ph }
  warm : ∀ s, R s → R s.warmReset
  power : ∀ s ph links, R s → R (State.powerOn ph links s.freeDraws s.pending)
  freeWord : ∀ s, R s →
    R ({ s with freeWordDue := false }.writeSystem ⟨[], [(54, natHalf s.exchange.free.length)]⟩)

namespace StepKeeps
variable {P R : State → Prop} (h : StepKeeps P R)
include h

/-- R11, R12: an arrival: the monitor's part, the service, the reply. -/
theorem dispose (s : State) (p : Port) (r : Request) (serve : State → State × Answer)
    (hserve : ∀ s, P s → R (serve s).1) (hs : P s) : R (s.dispose p r serve) := by
  unfold State.dispose
  split
  · exact h.link _ _ _ (h.weaken _ hs)
  · exact h.link _ _ _ (hserve _ (h.monitor _ _ _ hs))

/-- R11: a request row. -/
theorem request (s : State) (p : Port) (r : Request) (serve : State → State × Answer)
    (hserve : ∀ s, P s → R (serve s).1) (hs : P s) : R (s.request p r serve) := by
  unfold State.request
  split
  · exact h.dispose s p r serve hserve hs
  · exact h.weaken s hs

theorem command (s : State) (k : Kind) (p : Port) (tag : Byte) (n : Half) (body : List Byte) (hs : P s) :
    R (s.request p ⟨tag, k.code, n, body⟩ (serviceOf k p n body)) :=
  h.request s p _ _ (fun u hu => h.service u k p n body hu) hs

/-- R6: the end of a SELECTED selection may carry any request. -/
theorem endSelection (s : State) (p : Port) (hs : P s) : R (s.endSelection p) := by
  have hidle := h.linkBefore s p (s.links.get p).removeReply.toIdle hs
  unfold State.endSelection
  dsimp only
  split
  · exact h.weaken _ hidle
  · split
    · exact h.link _ _ _ (h.weaken _ hidle)
    · rename_i r _
      refine h.dispose _ p r _ (fun u hu => ?_) hidle
      cases hkind : Kind.ofCode r.kind with
      | some k => simpa only [serveRequest, hkind] using h.service u k p r.session r.body hu
      | none =>
        simp only [serveRequest, hkind]
        exact h.weaken u hu

/-- The next state of every command. -/
theorem exec (c : Instr) (s t : State) (hs : P s) (ht : Machine.exec c s = .next t) : R t := by
  have hR := h.weaken s hs
  have request : ∀ k p tag n body, Machine.exec (Kind.command k p tag n body) s = .next t → R t := by
    intro k p tag n body hk
    rw [exec_command] at hk
    cases hk
    exact h.command s k p tag n body hs
  have due : ∀ d : Due, Machine.exec d.command s = .next t → R t := by
    intro d hd
    have htaken : t = s.takeDue d := by cases d <;> (cases hd; rfl)
    exact htaken ▸ h.due s d hR
  cases c
  case selectionStart p =>
    cases ht
    split
    · split <;> exact h.link _ _ _ hR
    · exact hR
    · exact hR
  case statusByteComplete p =>
    cases ht
    split
    · exact h.link _ _ _ hR
    · exact hR
    · exact hR
    · exact hR
  case selectionEnd p =>
    cases ht
    split
    · exact h.endSelection s p hs
    · exact hR
    · exact hR
  case byteShifted p b =>
    cases ht
    split
    · exact h.link _ _ _ hR
    · exact hR
    · exact hR
  case ignoredSelectionEnd p =>
    cases ht
    split
    · exact h.link _ _ _ hR
    · exact hR
    · exact hR
  case unknownKind p tag kind n body =>
    cases ht
    exact h.request s p _ _ (fun u hu => h.weaken u hu) hs
  case cellClockAdvance =>
    cases ht
    split
    · exact h.advance s hR
    · exact hR
  case warmReset =>
    cases ht
    split
    · exact h.warm s hR
    · exact hR
  case rstnRise =>
    cases ht
    split
    · exact h.phase s _ hR
    · exact hR
  case powerOnReset sel =>
    cases ht
    exact h.power s _ _ hR
  case powerOnResetEnd low =>
    cases ht
    split
    · exact h.phase s _ hR
    · exact hR
  case freeBufferWordWrite =>
    cases ht
    split
    · exact h.freeWord s hR
    · exact hR
  case monitorFirstExpiry p => exact due (.first p) ht
  case monitorSecondExpiry p => exact due (.second p) ht
  case takeoverDeadlineExpiry z => exact due (.takeover z) ht
  case holdDeadlineExpiry n => exact due (.hold n) ht
  case coalesceDeadlineExpiry p => exact due (.coalesce p) ht
  case timerTick => exact due .tick ht
  case identify p tag n body => exact request .identify p tag n body ht
  case join p tag n body => exact request .join p tag n body ht
  case leave p tag n body => exact request .leave p tag n body ht
  case ping p tag n body => exact request .ping p tag n body ht
  case defineZone p tag n body => exact request .defineZone p tag n body ht
  case retireZone p tag n body => exact request .retireZone p tag n body ht
  case setZonePolicy p tag n body => exact request .setZonePolicy p tag n body ht
  case loadSafeImage p tag n body => exact request .loadSafeImage p tag n body ht
  case queryZone p tag n body => exact request .queryZone p tag n body ht
  case publish p tag n body => exact request .publish p tag n body ht
  case snapshot p tag n body => exact request .snapshot p tag n body ht
  case readPoints p tag n body => exact request .readPoints p tag n body ht
  case claim p tag n body => exact request .claim p tag n body ht
  case release p tag n body => exact request .release p tag n body ht
  case handOver p tag n body => exact request .handOver p tag n body ht
  case acquire p tag n body => exact request .acquire p tag n body ht
  case releaseToken p tag n body => exact request .releaseToken p tag n body ht
  case cancelWait p tag n body => exact request .cancelWait p tag n body ht
  case setTokenLimit p tag n body => exact request .setTokenLimit p tag n body ht
  case queryTokens p tag n body => exact request .queryTokens p tag n body ht
  case setTimer p tag n body => exact request .setTimer p tag n body ht
  case resetTimer p tag n body => exact request .resetTimer p tag n body ht
  case freeTimer p tag n body => exact request .freeTimer p tag n body ht
  case queryTimer p tag n body => exact request .queryTimer p tag n body ht
  case send p tag n body => exact request .send p tag n body ht
  case receive p tag n body => exact request .receive p tag n body ht
  case flushQueue p tag n body => exact request .flushQueue p tag n body ht
  case setCoalesce p tag n body => exact request .setCoalesce p tag n body ht
  case setWatch p tag n body => exact request .setWatch p tag n body ht
  case clearWatch p tag n body => exact request .clearWatch p tag n body ht
  case readAttention p tag n body => exact request .readAttention p tag n body ht
  case setAttentionMask p tag n body => exact request .setAttentionMask p tag n body ht
  case raiseFault p tag n body => exact request .raiseFault p tag n body ht
  case clearFault p tag n body => exact request .clearFault p tag n body ht
  case ackFault p tag n body => exact request .ackFault p tag n body ht
  case readFaults p tag n body => exact request .readFaults p tag n body ht

/-- Every step. -/
theorem step (hpending : ∀ s q, P s → P { s with pending := q }) (s t : State) (hs : P s) (ht : Machine.step s = .next t) : R t := by
  unfold Machine.step at ht
  split at ht
  · cases ht
    exact h.weaken s hs
  · exact h.exec _ _ t (hpending s _ hs) ht

end StepKeeps
end Sys2Proof.Machine
end

section
/-! The laws of the tokens (R100, R101, R106): what a change of a token, of all tokens or of the sessions asks to keep them. -/

namespace Sys2Proof.Machine

/-! ## A port's current session -/

theorem State.session_port {s : State} {p : Port} {w : SessionRef} (h : s.session p = some w) : w.port = p := by
  obtain ⟨m, -, rfl⟩ := Option.map_eq_some_iff.mp h
  rfl

theorem State.session_of_ports {s : State} {p : Port} {m : Membership} (h : (s.ports.get p).session = some m) :
    s.session (m.on p).port = some (m.on p) := congrArg (Option.map fun m : Membership => m.on p) h

/-! ## Tokens that give out nothing but their own wait lists -/

/-- R100, R101, R103: a token's record after an event: FREE without waiters, or HELD by a current session, and not broken; its
waiters are waiters that it had; its holder's port is that of the holder it had, or no one waits, or a waiter was granted. -/
structure Token.Follows (session : Port → Option SessionRef) (k k' : Token) : Prop where
  free : k'.hold = none → k'.waiters = []
  held : ∀ h, k'.hold = some h → k'.broken = false ∧ session h.holder.port = some h.holder
  waiters : k'.waiters.Sublist k.waiters
  current : ∀ w ∈ k'.waiters, session w.port = some w
  holder : ∀ h', k'.hold = some h' → (∃ h, k.hold = some h ∧ h.holder.port = h'.holder.port) ∨ k'.waiters = [] ∨
    (h'.holder ∈ k.waiters ∧ h'.holder ∉ k'.waiters)

/-- R106: links to ports that wait for nothing close no cycle. -/
theorem acyclic_of_sinks {α : Type} {old new : α → α → Prop} (hold : ∀ a, ¬ Relation.TransGen old a a)
    (hnew : ∀ a b, new a b → old a b ∨ ∀ c, ¬ new b c) (a : α) : ¬ Relation.TransGen new a a := by
  have hchain : ∀ {a b}, Relation.TransGen new a b → Relation.TransGen old a b ∨ ∀ c, ¬ new b c := by
    intro a b hab
    induction hab with
    | single hlink => exact (hnew _ _ hlink).imp .single id
    | tail _ hlink ih =>
      refine (hnew _ _ hlink).imp_left fun hback => ?_
      rcases ih with ih | ih
      · exact ih.tail hback
      · exact absurd hlink (ih _)
  intro hcycle
  rcases hchain hcycle with h | h
  · exact hold a h
  · obtain ⟨c, hfirst, -⟩ := Relation.TransGen.head'_iff.1 hcycle
    exact h c hfirst

/-- R100, R101, R106: tokens that follow lawful ones are lawful. -/
theorem State.tokensLawful.of_follows {s t : State} (hs : s.tokensLawful)
    (h : ∀ i, i < Config.tokenCount → (s.token i).Follows t.session (t.token i)) : t.tokensLawful := by
  obtain ⟨hlaws, honce, hacyclic⟩ := hs
  refine ⟨fun i hi => ⟨(h i hi).free, (h i hi).held, (h i hi).current, ?_⟩, fun i j hi hj hne w hw v hv => ?_,
    acyclic_of_sinks hacyclic fun p q hlink => ?_⟩
  · obtain ⟨-, -, -, hnodup⟩ := hlaws i hi
    exact hnodup.sublist ((h i hi).waiters.map _)
  · exact honce i j hi hj hne w ((h i hi).waiters.subset hw) v ((h j hj).waiters.subset hv)
  · obtain ⟨i, h', hi, ⟨w, hw, rfl⟩, hheld, rfl⟩ := hlink
    rcases (h i hi).holder h' hheld with ⟨g, hg, hport⟩ | hnone | ⟨hgranted, hgone⟩
    · exact .inl ⟨i, g, hi, ⟨w, (h i hi).waiters.subset hw, rfl⟩, hg, hport⟩
    · rw [hnone] at hw
      cases hw
    · refine .inr fun c ⟨j, _, hj, ⟨v, hv, hsame⟩, _⟩ => ?_
      have hv' := (h j hj).waiters.subset hv
      by_cases hij : i = j
      · subst hij
        obtain ⟨-, -, -, hnodup⟩ := hlaws i hi
        rw [List.inj_on_of_nodup_map hnodup hv' hgranted hsame] at hv
        exact hgone hv
      · exact honce i j hi hj hij _ hgranted v hv' hsame.symm

/-- Every lawful token follows itself while its sessions are current. -/
theorem State.tokensLawful.refl {s : State} (hs : s.tokensLawful) {t : State}
    (hsession : ∀ p w, s.session p = some w → t.session p = some w) {i : Nat} (hi : i < Config.tokenCount) :
    (s.token i).Follows t.session (s.token i) := by
  obtain ⟨hlaws, -, -⟩ := hs
  obtain ⟨hfree, hheld, hcurrent, -⟩ := hlaws i hi
  exact ⟨hfree, fun h hh => ⟨(hheld h hh).1, hsession _ _ (hheld h hh).2⟩, .refl _, fun w hw => hsession _ _ (hcurrent w hw),
    fun h hh => .inl ⟨h, hh, rfl⟩⟩

/-- R101: the tokens stand, and no current session goes. -/
theorem State.tokensLawful.of_session {s t : State} (hs : s.tokensLawful) (htokens : t.tokens = s.tokens)
    (hsession : ∀ p w, s.session p = some w → t.session p = some w) : t.tokensLawful := by
  refine hs.of_follows fun i hi => ?_
  rw [show t.token i = s.token i from congrArg (Memory.read Token.powerOn · i) htokens]
  exact hs.refl hsession hi

theorem State.tokensLawful.congr {s t : State} (hs : s.tokensLawful) (htokens : t.tokens = s.tokens) (hports : t.ports = s.ports) :
    t.tokensLawful :=
  hs.of_session htokens fun p w hw => by rwa [State.session, hports]

/-- One token changed. -/
theorem State.tokensLawful.setToken {s : State} (hs : s.tokensLawful) (n : Nat) (k : Token)
    (hk : n < Config.tokenCount → (s.token n).Follows s.session k) : (s.setToken n k).tokensLawful := by
  refine hs.of_follows fun i hi => ?_
  rw [State.token_setToken]
  split
  · subst_vars
    exact hk hi
  · exact hs.refl (fun _ _ h => h) hi

/-! ## The events of a token -/

namespace State.tokensLawful
variable {s : State} (hs : s.tokensLawful) {n : Nat} (hn : n < Config.tokenCount)
include hs hn

/-- R109: the limit. -/
theorem follows_limit (limit : Byte) : (s.token n).Follows s.session { s.token n with limit := limit } :=
  have hsame := hs.refl (t := s) (fun _ _ h => h) hn
  ⟨hsame.free, hsame.held, hsame.waiters, hsame.current, hsame.holder⟩

/-- R108: a waiter taken out. -/
theorem follows_dropWaiter (who : SessionRef) : (s.token n).Follows s.session ((s.token n).dropWaiter who) := by
  have hsame := hs.refl (t := s) (fun _ _ h => h) hn
  exact ⟨fun hfree => by rw [Token.dropWaiter, hsame.free hfree]; rfl, hsame.held, List.filter_sublist,
    fun w hw => hsame.current w (List.mem_of_mem_filter hw), fun h hh => .inl ⟨h, hh, rfl⟩⟩

/-- R103, R105: a FREE token granted. -/
theorem follows_grant {who : SessionRef} (hwho : s.session who.port = some who) (hfree : (s.token n).hold = none) (clock : Clock) :
    (s.token n).Follows s.session ((s.token n).grant who clock) := by
  have hsame := hs.refl (t := s) (fun _ _ h => h) hn
  refine ⟨fun h => (nomatch h), fun h hh => ?_, .refl _, hsame.current, fun _ _ => .inr (.inl (hsame.free hfree))⟩
  cases hh
  exact ⟨rfl, hwho⟩

end State.tokensLawful

/-- R107, R111, R113: a token handed on, from a wait list of current sessions that it had. -/
theorem Token.follows_handOn {t : State} {k u : Token} (hsub : u.waiters.Sublist k.waiters)
    (hnodup : (u.waiters.map SessionRef.port).Nodup) (hcurrent : ∀ w ∈ u.waiters, t.session w.port = some w) (broken : Bool)
    (clock : Clock) : k.Follows t.session (u.handOn broken clock) := by
  cases hwaiters : u.waiters with
  | nil =>
    rw [Token.handOn_nil hwaiters]
    have hnone : ∀ w ∈ ({ u with hold := none, broken := broken } : Token).waiters, False := fun w hw => by
      rw [show ({ u with hold := none, broken := broken } : Token).waiters = u.waiters from rfl, hwaiters] at hw
      cases hw
    exact ⟨fun _ => hwaiters, fun _ hh => (nomatch hh), hsub, fun w hw => (hnone w hw).elim, fun _ hh => (nomatch hh)⟩
  | cons w rest =>
    rw [Token.handOn_cons hwaiters]
    rw [hwaiters] at hsub hnodup hcurrent
    obtain ⟨hhead, htail⟩ := List.forall_mem_cons.1 hcurrent
    have hgone : w ∉ rest := fun hmem => (List.nodup_cons.1 hnodup).1 (List.mem_map_of_mem hmem)
    refine ⟨fun h => (nomatch h), fun h hh => ?_, (List.sublist_cons_self w rest).trans hsub, htail, fun h hh => ?_⟩
    · cases hh
      exact ⟨rfl, hhead⟩
    · cases hh
      exact .inr (.inr ⟨hsub.subset List.mem_cons_self, hgone⟩)

/-- R107, R111: a token handed on. -/
theorem State.tokensLawful.handOn {s : State} (hs : s.tokensLawful) {n : Nat} (broken : Bool) (clock : Clock) :
    (s.setToken n ((s.token n).handOn broken clock)).tokensLawful := by
  refine hs.setToken _ _ fun hn => ?_
  obtain ⟨hlaws, -, -⟩ := hs
  obtain ⟨-, -, hcurrent, hnodup⟩ := hlaws n hn
  exact Token.follows_handOn (.refl _) hnodup hcurrent broken clock

/-! ## A wait (R105, R106) -/

/-- R106: one link more closes no cycle where nothing leads back from its end. -/
theorem acyclic_of_link {α : Type} {old new : α → α → Prop} {x y : α} (hold : ∀ a, ¬ Relation.TransGen old a a)
    (hnew : ∀ a b, new a b → old a b ∨ (a = x ∧ b = y)) (hne : y ≠ x) (hback : ¬ Relation.TransGen old y x) (a : α) :
    ¬ Relation.TransGen new a a := by
  have hchain : ∀ {a b}, Relation.TransGen new a b →
      Relation.TransGen old a b ∨ (Relation.ReflTransGen old a x ∧ Relation.ReflTransGen old y b) := by
    intro a b hab
    induction hab with
    | single hlink =>
      rcases hnew _ _ hlink with h | ⟨rfl, rfl⟩
      · exact .inl (.single h)
      · exact .inr ⟨.refl, .refl⟩
    | tail _ hlink ih =>
      rcases hnew _ _ hlink with h | ⟨rfl, rfl⟩
      · exact ih.imp (fun hab => hab.tail h) fun ⟨hax, hyb⟩ => ⟨hax, hyb.tail h⟩
      · exact .inr ⟨ih.elim Relation.TransGen.to_reflTransGen And.left, .refl⟩
  intro hcycle
  rcases hchain hcycle with h | ⟨hax, hya⟩
  · exact hold a h
  · rcases Relation.reflTransGen_iff_eq_or_transGen.1 (hya.trans hax) with h | h
    · exact hne h.symm
    · exact hback h

/-- R105, R106: a session that waits for nothing joins the wait list of a token that another holds, where no chain leads back. -/
theorem State.tokensLawful.queue {s : State} (hs : s.tokensLawful) {n : Nat} {who : SessionRef} {h : Hold}
    (hwho : s.session who.port = some who) (hheld : (s.token n).hold = some h) (hother : h.holder ≠ who)
    (hquiet : s.waitsFor who.port = none) (hopen : s.deadlock who.port 4 h.holder.port = none) :
    (s.setToken n { s.token n with waiters := (s.token n).waiters ++ [who] }).tokensLawful := by
  by_cases hn : n < Config.tokenCount
  case neg =>
    refine hs.of_follows fun i hi => ?_
    rw [State.token_setToken, if_neg (by rintro rfl; exact hn hi)]
    exact hs.refl (fun _ _ h => h) hi
  obtain ⟨hlaws, honce, hacyclic⟩ := id hs
  have hnot : ∀ i, i < Config.tokenCount → ∀ w ∈ (s.token i).waiters, w.port ≠ who.port := by
    intro i hi w hw hport
    rw [hs.waitsFor ⟨hi, w, hw, hport⟩] at hquiet
    cases hquiet
  have hsame : ∀ i, i ≠ n → (s.setToken n { s.token n with waiters := (s.token n).waiters ++ [who] }).token i = s.token i :=
    fun i hi => by rw [State.token_setToken, if_neg hi]
  obtain ⟨hfree, hholds, hcurrent, hnodup⟩ := hlaws n hn
  have hports : h.holder.port ≠ who.port := by
    intro hport
    have hholder := (hholds h hheld).2
    rw [hport, hwho] at hholder
    exact hother (Option.some.inj hholder).symm
  have hback : ¬ Relation.TransGen s.waitsOn h.holder.port who.port := by
    intro hchain
    obtain ⟨last, hchain', d, g, hd, hwaiter, hg, hclosed⟩ := Relation.TransGen.tail'_iff.1 hchain
    rw [State.deadlock_of_chain hs ⟨hd, hwaiter⟩ hg hclosed hchain' (upstream := []) (by simp) (by simp) (by simp)] at hopen
    cases hopen
  refine ⟨fun i hi => ?_, fun i j hi hj hne w hw v hv => ?_, acyclic_of_link hacyclic (fun p q hlink => ?_) hports hback⟩
  · by_cases hin : i = n
    · subst hin
      rw [State.token_setToken_same]
      refine ⟨fun hnone => (nomatch hheld.symm.trans hnone), hholds, fun w hw => ?_, ?_⟩
      · rcases List.mem_append.1 hw with hw | hw
        · exact hcurrent w hw
        · rw [List.mem_singleton.1 hw]
          exact hwho
      · rw [List.map_append, List.nodup_append]
        refine ⟨hnodup, List.nodup_singleton _, fun a ha b hb => ?_⟩
        obtain ⟨w, hw, rfl⟩ := List.mem_map.1 ha
        rw [List.mem_singleton.1 hb]
        exact hnot i hi w hw
    · rw [hsame i hin]
      exact hlaws i hi
  · have hmem : ∀ l x, x ∈ ((s.setToken n { s.token n with waiters := (s.token n).waiters ++ [who] }).token l).waiters →
        x ∈ (s.token l).waiters ∨ (l = n ∧ x = who) := by
      intro l x hx
      by_cases hl : l = n
      · subst hl
        rw [State.token_setToken_same] at hx
        exact (List.mem_append.1 hx).imp_right fun hx => ⟨rfl, List.mem_singleton.1 hx⟩
      · rw [hsame l hl] at hx
        exact .inl hx
    rcases hmem i w hw with hw' | ⟨hin, rfl⟩
    · rcases hmem j v hv with hv' | ⟨-, rfl⟩
      · exact honce i j hi hj hne w hw' v hv'
      · exact hnot i hi w hw'
    · rcases hmem j v hv with hv' | ⟨hjn, -⟩
      · exact (hnot j hj v hv').symm
      · exact absurd (hin.trans hjn.symm) hne
  · obtain ⟨i, g, hi, ⟨w, hw, rfl⟩, hg, rfl⟩ := hlink
    by_cases hin : i = n
    · subst hin
      rw [State.token_setToken_same] at hw hg
      rcases List.mem_append.1 hw with hw | hw
      · exact .inl ⟨i, g, hi, ⟨w, hw, rfl⟩, hg, rfl⟩
      · rw [List.mem_singleton.1 hw]
        cases hheld.symm.trans hg
        exact .inr ⟨rfl, rfl⟩
    · rw [hsame i hin] at hw hg
      exact .inl ⟨i, g, hi, ⟨w, hw, rfl⟩, hg, rfl⟩

/-! ## The end of a session (R113) -/

/-- R113: the session that held a token or waited for it is gone; the others stand. -/
theorem State.tokensLawful.follows_atEnd {s t : State} (hs : s.tokensLawful) {n : Nat} (hn : n < Config.tokenCount)
    {ended : SessionRef} (hsession : ∀ p w, s.session p = some w → w ≠ ended → t.session p = some w) (broken : Bool)
    (clock : Clock) : (s.token n).Follows t.session ((s.token n).atEnd ended broken clock) := by
  obtain ⟨hlaws, -, -⟩ := hs
  obtain ⟨hfree, hheld, hcurrent, hnodup⟩ := hlaws n hn
  have hsub : ((s.token n).waiters.filter fun w => w != ended).Sublist (s.token n).waiters := List.filter_sublist
  have hleft : ∀ w ∈ (s.token n).waiters.filter fun w => w != ended, t.session w.port = some w := by
    intro w hw
    obtain ⟨hmem, hne⟩ := List.mem_filter.1 hw
    exact hsession _ _ (hcurrent w hmem) (by simpa using hne)
  unfold Token.atEnd
  dsimp only
  split
  · exact Token.follows_handOn hsub (hnodup.sublist (hsub.map _)) hleft broken clock
  · rename_i hother
    refine ⟨fun h => ?_, fun h hh => ⟨(hheld h hh).1, hsession _ _ (hheld h hh).2 fun hend => hother ?_⟩, hsub, hleft,
      fun h hh => .inl ⟨h, hh, rfl⟩⟩
    · dsimp only
      rw [hfree h]
      rfl
    · rw [Token.heldBy_iff, hh, ← hend]
      rfl

/-- R113: the tokens after the end of a port's session. -/
theorem State.tokensLawful.tokensAtEnd {s t : State} (hs : s.tokensLawful) {p : Port} {m : Membership}
    (htokens : t.tokens = s.tokens) (hm : (s.ports.get p).session = some m) (hgone : t.session p = none)
    (hothers : ∀ q, q ≠ p → t.session q = s.session q) (broken : Bool) :
    (t.tokensAtEnd ⟨p, m.number⟩ broken).tokensLawful := by
  refine hs.of_follows fun i hi => ?_
  rw [State.token_tokensAtEnd, if_pos hi, show t.token i = s.token i from congrArg (Memory.read Token.powerOn · i) htokens]
  refine hs.follows_atEnd hi (fun q w hw hne => ?_) broken _
  rw [State.tokensAtEnd_session]
  by_cases hq : q = p
  · subst hq
    rw [State.session, hm] at hw
    exact absurd (Option.some.inj hw).symm hne
  · rw [hothers q hq]
    exact hw

end Sys2Proof.Machine
end

section
/-! The laws of the message exchange (R136 to R139): references accounted for by the entries in the queues and those in hand, and
quotas by the buffers sent, through each of the exchange's operations. -/

namespace Sys2Proof.Machine

/-! ## Counting entries and buffers -/

/-- How many of the entries name buffer `b`. -/
def naming (b : Nat) (es : List Entry) : Nat := (es.filter fun e => e.buffer == b).length

theorem naming_append (b : Nat) (es fs : List Entry) : naming b (es ++ fs) = naming b es + naming b fs := by
  rw [naming, List.filter_append, List.length_append]
  rfl

theorem naming_cons (b : Nat) (e : Entry) (es : List Entry) : naming b (e :: es) = naming b [e] + naming b es :=
  naming_append b [e] es

theorem naming_singleton (b : Nat) (e : Entry) : naming b [e] = if e.buffer = b then 1 else 0 := by
  rw [naming, List.filter_singleton]
  by_cases h : e.buffer = b
  · rw [h, beq_self_eq_true, cond_true, if_pos rfl]
    rfl
  · rw [beq_eq_false_iff_ne.2 h, cond_false, if_neg h]
    rfl

/-- A sum over the ports where one summand changes. -/
theorem sum_ports_update {f g : Port → Nat} (p : Port) (h : ∀ q, q ≠ p → f q = g q) :
    (Port.all.map f).sum + g p = (Port.all.map g).sum + f p := by
  have hA := h .A
  have hB := h .B
  have hC := h .C
  have hD := h .D
  cases p <;> simp only [ne_eq, reduceCtorEq, not_true_eq_false, not_false_eq_true, forall_const] at hA hB hC hD <;>
  · simp only [Port.all, List.map_cons, List.map_nil, List.sum_cons, List.sum_nil]
    omega

/-- A count over distinct numbers where one number's answer changes. -/
theorem length_filter_update {l : List Nat} (hl : l.Nodup) {b : Nat} (hb : b ∈ l) {f g : Nat → Bool} (h : ∀ i, i ≠ b → f i = g i) :
    (l.filter f).length + (if g b then 1 else 0) = (l.filter g).length + if f b then 1 else 0 := by
  induction l with
  | nil => cases hb
  | cons a rest ih =>
    obtain ⟨hnew, hrest⟩ := List.nodup_cons.1 hl
    by_cases hab : a = b
    · subst hab
      have hsame : rest.filter f = rest.filter g := List.filter_congr fun i hi => h i fun hia => hnew (hia ▸ hi)
      cases hf : f a <;> cases hg : g a <;> simp [hf, hg, hsame]
    · have ih' := ih hrest ((List.mem_cons.1 hb).resolve_left fun hba => hab hba.symm)
      simp only [List.filter_cons, h a hab]
      split
      · simp only [List.length_cons]
        omega
      · exact ih'

/-! ## The law, with entries in hand -/

/-- R136 to R138: the buffers, the free list and the queues, while the entries in hand have left the queues and their buffers are
still referenced. -/
structure State.Accounts (s : State) (es : List Entry) : Prop where
  used : ∀ b k, s.buffer b = some k →
    b < Config.bufferCount ∧ 1 ≤ k.references ∧ k.references ≤ 3 ∧ k.references = s.entriesOf b + naming b es
  unused : ∀ b, s.buffer b = none → s.entriesOf b = 0 ∧ naming b es = 0
  nodup : s.exchange.free.Nodup
  free : ∀ b, b ∈ s.exchange.free ↔ b < Config.bufferCount ∧ s.buffer b = none
  quiet : ∀ p, s.session p = none → s.exchange.urgent.get p = [] ∧ s.exchange.normal.get p = []

/-- R139: each session's quota is the number of buffers in use that it sent, at most 24. -/
def State.Quotas (s : State) : Prop :=
  ∀ p r e, s.session p = some r → s.exchange.sessions.get p = some e → e.quota = s.sentBy r ∧ e.quota ≤ Config.sessionBuffers

theorem State.exchangeLawful_iff (s : State) : s.exchangeLawful ↔ s.Accounts [] ∧ s.Quotas := by
  constructor
  · intro ⟨hused, hunused, ⟨hnodup, hfree⟩, hquiet, hquotas⟩
    exact ⟨⟨hused, fun b hb => ⟨hunused b hb, rfl⟩, hnodup, hfree, hquiet⟩, hquotas⟩
  · intro ⟨haccounts, hquotas⟩
    exact ⟨haccounts.used, fun b hb => (haccounts.unused b hb).1, ⟨haccounts.nodup, haccounts.free⟩, haccounts.quiet, hquotas⟩

theorem State.entriesOf_congr {s t : State} (hurgent : t.exchange.urgent = s.exchange.urgent)
    (hnormal : t.exchange.normal = s.exchange.normal) (b : Nat) : t.entriesOf b = s.entriesOf b := by
  unfold State.entriesOf
  rw [hurgent, hnormal]

theorem State.sentBy_congr {s t : State} (r : SessionRef)
    (h : ∀ b, (t.buffer b).map Buffer.sender = (s.buffer b).map Buffer.sender) : t.sentBy r = s.sentBy r := by
  have hany : ∀ b, ((t.buffer b).any fun k => k.sender == r) = (s.buffer b).any fun k => k.sender == r := fun b => by
    have := congrArg (Option.any fun x => x == r) (h b)
    simpa only [Option.any_map] using this
  simp only [State.sentBy, hany]

/-- The law asks nothing but the exchange and the sessions. -/
theorem State.Accounts.congr {s t : State} {es : List Entry} (h : s.Accounts es) (hexchange : t.exchange = s.exchange)
    (hsession : ∀ p, t.session p = none → s.session p = none) : t.Accounts es := by
  obtain ⟨hused, hunused, hnodup, hfree, hquiet⟩ := h
  have hbuffer : ∀ b, t.buffer b = s.buffer b := fun b => by rw [State.buffer, hexchange, State.buffer]
  have hentries : ∀ b, t.entriesOf b = s.entriesOf b := State.entriesOf_congr (by rw [hexchange]) (by rw [hexchange])
  refine ⟨fun b k hb => ?_, fun b hb => ?_, hexchange ▸ hnodup, fun b => ?_, fun p hp => ?_⟩
  · rw [hentries]
    exact hused b k (hbuffer b ▸ hb)
  · rw [hentries]
    exact hunused b (hbuffer b ▸ hb)
  · rw [hexchange, hbuffer]
    exact hfree b
  · rw [hexchange]
    exact hquiet p (hsession p hp)

theorem State.Quotas.congr {s t : State} (h : s.Quotas)
    (hbuffer : ∀ b, (t.buffer b).map Buffer.sender = (s.buffer b).map Buffer.sender)
    (hsessions : ∀ p, (t.exchange.sessions.get p).map MessageSession.quota = (s.exchange.sessions.get p).map MessageSession.quota)
    (hsession : ∀ p r, t.session p = some r → s.session p = some r) : t.Quotas := by
  intro p r e hr he
  obtain ⟨e', he', hquota⟩ := Option.map_eq_some_iff.1 ((hsessions p).symm.trans (congrArg _ he))
  rw [State.sentBy_congr r hbuffer, ← hquota]
  exact h p r e' (hsession p r hr) he'

theorem State.exchangeLawful.congr {s t : State} (h : s.exchangeLawful) (hexchange : t.exchange = s.exchange)
    (hsession : ∀ p, t.session p = s.session p) : t.exchangeLawful := by
  rw [State.exchangeLawful_iff] at h ⊢
  exact ⟨h.1.congr hexchange fun p hp => hsession p ▸ hp,
    h.2.congr (fun b => by rw [State.buffer, hexchange, State.buffer]) (fun p => by rw [hexchange]) fun p r hr => hsession p ▸ hr⟩

/-! ## A change of one session's settings -/

theorem State.quota_mapMessages (s : State) (p : Port) {f : MessageSession → MessageSession} (hf : ∀ e, (f e).quota = e.quota)
    (q : Port) : ((s.mapMessages p f).exchange.sessions.get q).map MessageSession.quota =
      (s.exchange.sessions.get q).map MessageSession.quota := by
  rw [State.mapMessages_exchange]
  dsimp only
  rw [PerPort.get_set]
  split
  · subst_vars
    rw [Option.map_map]
    exact congrArg (fun g => Option.map g _) (funext hf)
  · rfl

theorem State.Accounts.mapMessages {s : State} {es : List Entry} (h : s.Accounts es) (p : Port)
    (f : MessageSession → MessageSession) : (s.mapMessages p f).Accounts es :=
  ⟨h.used, h.unused, h.nodup, h.free, h.quiet⟩

theorem State.Quotas.mapMessages {s : State} (h : s.Quotas) (p : Port) {f : MessageSession → MessageSession}
    (hf : ∀ e, (f e).quota = e.quota) : (s.mapMessages p f).Quotas :=
  h.congr (fun _ => rfl) (s.quota_mapMessages p hf) fun _ _ hr => hr

/-! ## Entries that come and go (R138) -/

theorem State.entriesOf_appendEntry (s : State) (p : Port) (u : Bool) (e : Entry) (b : Nat) :
    (s.appendEntry p u e).entriesOf b = s.entriesOf b + naming b [e] := by
  have hqueues : ∀ q, naming b ((s.appendEntry p u e).exchange.urgent.get q ++ (s.appendEntry p u e).exchange.normal.get q) =
      naming b (s.exchange.urgent.get q ++ s.exchange.normal.get q) + if q = p then naming b [e] else 0 := by
    intro q
    rw [State.appendEntry_urgent, State.appendEntry_normal]
    simp only [naming_append]
    by_cases hq : q = p
    · cases u <;> simp only [hq, and_true, Bool.false_eq_true, reduceCtorEq, if_true, if_false] <;> simp [naming] <;> omega
    · simp [hq, naming]
  have hsum := sum_ports_update (f := fun q => naming b ((s.appendEntry p u e).exchange.urgent.get q ++
    (s.appendEntry p u e).exchange.normal.get q)) (g := fun q => naming b (s.exchange.urgent.get q ++ s.exchange.normal.get q)) p
    fun q hq => by rw [hqueues, if_neg hq, Nat.add_zero]
  rw [hqueues p, if_pos rfl] at hsum
  show (Port.all.map fun q => naming b _).sum = (Port.all.map fun q => naming b _).sum + _
  omega

theorem State.appendEntry_quota (s : State) (p : Port) (u : Bool) (e : Entry) (q : Port) :
    ((s.appendEntry p u e).exchange.sessions.get q).map MessageSession.quota =
      (s.exchange.sessions.get q).map MessageSession.quota := by
  have hpush : ((s.pushEntry p u e).exchange.sessions.get q).map MessageSession.quota =
      (s.exchange.sessions.get q).map MessageSession.quota := by
    unfold State.pushEntry
    split <;> rfl
  unfold State.appendEntry
  dsimp only
  split
  · rw [State.raise_exchange]
    exact hpush
  · split
    · exact hpush
    · split
      · rw [State.raise_exchange]
        exact (State.quota_mapMessages _ _ (f := fun m => { m with deadline := none }) (fun _ => rfl) q).trans hpush
      · split
        · exact (State.quota_mapMessages _ _ (f := fun m => { m with deadline := some (msAfter (s.pushEntry p u e).clock m.time.toNat) })
            (fun _ => rfl) q).trans hpush
        · exact hpush

/-- R138: an entry in hand joins the queue of a port with a session. -/
theorem State.Accounts.append {s : State} {e e' : Entry} {es : List Entry} (h : s.Accounts (e :: es)) (hbuffer : e'.buffer = e.buffer)
    {p : Port} (hp : s.session p ≠ none) (u : Bool) : (s.appendEntry p u e').Accounts es := by
  have hcount : ∀ b, (s.appendEntry p u e').entriesOf b + naming b es = s.entriesOf b + naming b (e :: es) := fun b => by
    rw [State.entriesOf_appendEntry, naming_cons b e, naming_singleton, naming_singleton, hbuffer]
    omega
  refine ⟨fun b k hb => ?_, fun b hb => ?_, ?_, fun b => ?_, fun q hq => ?_⟩
  · rw [State.appendEntry_buffer] at hb
    rw [hcount]
    exact h.used b k hb
  · rw [State.appendEntry_buffer] at hb
    have := h.unused b hb
    have := hcount b
    omega
  · rw [State.appendEntry_free]
    exact h.nodup
  · rw [State.appendEntry_free, State.appendEntry_buffer]
    exact h.free b
  · rw [State.appendEntry_session] at hq
    have hne : q ≠ p := fun hqp => hp (hqp ▸ hq)
    rw [State.appendEntry_urgent, State.appendEntry_normal, if_neg fun h => hne h.2, if_neg fun h => hne h.2, List.append_nil,
      List.append_nil]
    exact h.quiet q hq

theorem State.Quotas.append {s : State} (h : s.Quotas) (p : Port) (u : Bool) (e : Entry) : (s.appendEntry p u e).Quotas :=
  h.congr (fun b => by rw [State.appendEntry_buffer]) (s.appendEntry_quota p u e) fun q r hr => by
    rwa [State.appendEntry_session] at hr

/-- R138, R147, R148: entries taken out of one port's queues. -/
theorem State.Accounts.take {s t : State} {es : List Entry} (h : s.Accounts []) (p : Port)
    (hbuffer : ∀ b, t.buffer b = s.buffer b) (hfree : t.exchange.free = s.exchange.free)
    (hothers : ∀ q, q ≠ p → t.exchange.urgent.get q = s.exchange.urgent.get q ∧ t.exchange.normal.get q = s.exchange.normal.get q)
    (htaken : ∀ b, naming b (t.exchange.urgent.get p ++ t.exchange.normal.get p) + naming b es =
      naming b (s.exchange.urgent.get p ++ s.exchange.normal.get p))
    (hquiet : ∀ q, t.session q = none → t.exchange.urgent.get q = [] ∧ t.exchange.normal.get q = []) : t.Accounts es := by
  have hcount : ∀ b, t.entriesOf b + naming b es = s.entriesOf b := fun b => by
    have hsum := sum_ports_update (f := fun q => naming b (t.exchange.urgent.get q ++ t.exchange.normal.get q))
      (g := fun q => naming b (s.exchange.urgent.get q ++ s.exchange.normal.get q)) p fun q hq => by
        rw [(hothers q hq).1, (hothers q hq).2]
    have := htaken b
    show (Port.all.map fun q => naming b _).sum + _ = (Port.all.map fun q => naming b _).sum
    omega
  refine ⟨fun b k hb => ?_, fun b hb => ?_, hfree ▸ h.nodup, fun b => ?_, hquiet⟩
  · rw [hcount]
    exact h.used b k (hbuffer b ▸ hb)
  · have := h.unused b (hbuffer b ▸ hb)
    have := hcount b
    omega
  · rw [hfree, hbuffer]
    exact h.free b

/-- R147, R148: the named queues emptied. -/
theorem State.Accounts.emptyQueues {s t : State} (h : s.Accounts []) (q : Port) (u n : Bool) (ht : t.exchange = s.exchange)
    (hsession : ∀ p, t.session p = none → s.session p = none ∨ (p = q ∧ u = true ∧ n = true)) :
    (t.emptyQueues q u n).Accounts (t.queued q u n) := by
  have hurgent : ∀ p, (t.emptyQueues q u n).exchange.urgent.get p =
      if u = true ∧ p = q then [] else s.exchange.urgent.get p := fun p => by
    cases u <;> simp [State.emptyQueues, PerPort.get_set, ht]
  have hnormal : ∀ p, (t.emptyQueues q u n).exchange.normal.get p =
      if n = true ∧ p = q then [] else s.exchange.normal.get p := fun p => by
    cases n <;> simp [State.emptyQueues, PerPort.get_set, ht]
  refine h.take q (fun b => ?_) (show t.exchange.free = s.exchange.free from congrArg Exchange.free ht) (fun p hp => ?_)
    (fun b => ?_) fun p hp => ?_
  · exact congrArg (fun e => Memory.read none e.buffers b) ht
  · rw [hurgent, hnormal, if_neg fun h => hp h.2, if_neg fun h => hp h.2]
    exact ⟨rfl, rfl⟩
  · rw [hurgent, hnormal, State.queued, ht]
    simp only [naming_append]
    cases u <;> cases n <;> simp [naming, Nat.add_comm]
  · rw [hurgent, hnormal]
    rcases hsession p hp with hgone | ⟨rfl, rfl, rfl⟩
    · obtain ⟨hu, hn⟩ := h.quiet p hgone
      rw [hu, hn]
      exact ⟨ite_self _, ite_self _⟩
    · simp

/-! ## A reference released (R137, R144) -/

/-- R144: the last reference frees the buffer. -/
theorem State.Accounts.release {s : State} {e : Entry} {es : List Entry} (h : s.Accounts (e :: es)) :
    (s.releaseBuffer e.buffer).Accounts es := by
  obtain ⟨hurgent, hnormal, -⟩ := s.releaseBuffer_queues e.buffer
  have hentries : ∀ b, (s.releaseBuffer e.buffer).entriesOf b = s.entriesOf b := State.entriesOf_congr hurgent hnormal
  have hcons : ∀ b, naming b (e :: es) = (if e.buffer = b then 1 else 0) + naming b es := fun b => by
    rw [naming_cons, naming_singleton]
  have hsession : ∀ p, (s.releaseBuffer e.buffer).session p = s.session p := fun p => by
    rw [State.session, State.releaseBuffer_ports, State.session]
  have hquiet : ∀ p, (s.releaseBuffer e.buffer).session p = none → (s.releaseBuffer e.buffer).exchange.urgent.get p = [] ∧
      (s.releaseBuffer e.buffer).exchange.normal.get p = [] := fun p hp => by
    rw [hurgent, hnormal]
    exact h.quiet p (hsession p ▸ hp)
  have hmine : s.buffer e.buffer ≠ none := by
    intro hnone
    have := (h.unused _ hnone).2
    rw [hcons, if_pos rfl] at this
    omega
  obtain ⟨k, hk⟩ := Option.ne_none_iff_exists'.1 hmine
  obtain ⟨hlow, hpos, hthree, hrefs⟩ := h.used _ k hk
  rw [hcons, if_pos rfl] at hrefs
  by_cases hlast : k.references ≤ 1
  · obtain ⟨hbuffer, hfree⟩ := s.releaseBuffer_last e.buffer k hk hlast
    refine ⟨fun b j hb => ?_, fun b hb => ?_, ?_, fun b => ?_, hquiet⟩
    · rw [hbuffer] at hb
      split at hb
      · cases hb
      · rename_i hne
        have hused := h.used b j hb
        rw [hcons, if_neg fun h => hne h.symm, Nat.zero_add] at hused
        rw [hentries]
        exact hused
    · rw [hentries]
      by_cases hbe : b = e.buffer
      · subst hbe
        omega
      · rw [hbuffer, if_neg hbe] at hb
        have hunused := h.unused b hb
        rwa [hcons, if_neg fun h => hbe h.symm, Nat.zero_add] at hunused
    · rw [hfree, List.nodup_append]
      refine ⟨h.nodup, List.nodup_singleton _, fun a ha b hb => ?_⟩
      rw [List.mem_singleton.1 hb]
      rintro rfl
      exact hmine ((h.free _).1 ha).2
    · rw [hfree, hbuffer, List.mem_append, List.mem_singleton, h.free]
      by_cases hbe : b = e.buffer
      · simp [hbe, hlow]
      · simp [hbe]
  · have hbuffer : ∀ b, (s.releaseBuffer e.buffer).buffer b =
        if b = e.buffer then some { k with references := k.references - 1 } else s.buffer b := fun b => by
      rw [State.releaseBuffer_shared s _ k hk (by omega), State.buffer_setBuffer]
    have hfree : (s.releaseBuffer e.buffer).exchange.free = s.exchange.free := by
      rw [State.releaseBuffer_shared s _ k hk (by omega)]
      rfl
    refine ⟨fun b j hb => ?_, fun b hb => ?_, hfree ▸ h.nodup, fun b => ?_, hquiet⟩
    · rw [hentries]
      rw [hbuffer] at hb
      split at hb
      · subst_vars
        cases hb
        dsimp only
        omega
      · rename_i hne
        have hused := h.used b j hb
        rwa [hcons, if_neg fun h => hne h.symm, Nat.zero_add] at hused
    · rw [hentries]
      rw [hbuffer] at hb
      split at hb
      · cases hb
      · rename_i hne
        have hunused := h.unused b hb
        rwa [hcons, if_neg fun h => hne h.symm, Nat.zero_add] at hunused
    · rw [hfree, hbuffer, h.free]
      by_cases hbe : b = e.buffer
      · simp [hbe, hk]
      · simp [hbe]

theorem State.sentBy_update {s t : State} {b : Nat} (hb : b < Config.bufferCount) (hothers : ∀ c, c ≠ b → t.buffer c = s.buffer c)
    (r : SessionRef) :
    t.sentBy r + (if (s.buffer b).any fun k => k.sender == r then 1 else 0) =
      s.sentBy r + if (t.buffer b).any fun k => k.sender == r then 1 else 0 :=
  length_filter_update (f := fun c => (t.buffer c).any fun k : Buffer => k.sender == r)
    (g := fun c => (s.buffer c).any fun k : Buffer => k.sender == r) List.nodup_range (List.mem_range.2 hb) fun c hc => by rw [hothers c hc]

/-- R139: a freed buffer leaves the quota of its sender. -/
theorem State.Quotas.freeBuffer {s : State} (h : s.Quotas) {b : Nat} {k : Buffer} (hb : b < Config.bufferCount)
    (hk : s.buffer b = some k) : (s.freeBuffer b k).Quotas := by
  have hbuffer : ∀ c, (s.freeBuffer b k).buffer c = if c = b then none else s.buffer c := fun c => by
    unfold State.freeBuffer
    dsimp only
    split
    · exact State.buffer_setBuffer s b c none
    · exact State.buffer_setBuffer s b c none
  have hsent : ∀ r, (s.freeBuffer b k).sentBy r + (if k.sender = r then 1 else 0) = s.sentBy r := fun r => by
    have hupdate := State.sentBy_update (s := s) (t := s.freeBuffer b k) hb (fun c hc => by rw [hbuffer, if_neg hc]) r
    rw [hbuffer, if_pos rfl, hk] at hupdate
    simpa using hupdate
  have hsessions : ∀ p, (s.freeBuffer b k).exchange.sessions.get p =
      if s.isCurrent k.sender = true ∧ p = k.sender.port then
        (s.exchange.sessions.get p).map fun e => { e with quota := e.quota - 1 } else s.exchange.sessions.get p := fun p => by
    unfold State.freeBuffer
    dsimp only
    split
    · rename_i hcurrent
      rw [State.mapMessages_exchange]
      dsimp only
      rw [PerPort.get_set]
      by_cases hp : p = k.sender.port
      · subst hp
        simp only [hcurrent, and_self, if_true]
        rfl
      · simp only [hp, and_false, if_false]
        rfl
    · rename_i hother
      simp only [hother, Bool.false_eq_true, false_and, if_false]
      rfl
  intro p r e hr he
  rw [State.session, State.freeBuffer_ports] at hr
  have hport : r.port = p := State.session_port hr
  have hcurrent : s.isCurrent r = true := by
    rw [State.isCurrent, hport]
    exact beq_iff_eq.2 hr
  have hsame : (s.isCurrent k.sender = true ∧ p = k.sender.port) ↔ k.sender = r := by
    constructor
    · rintro ⟨hcur, rfl⟩
      rw [State.isCurrent, beq_iff_eq] at hcur
      exact Option.some.inj (hcur.symm.trans hr)
    · rintro rfl
      exact ⟨hcurrent, hport.symm⟩
  rw [hsessions] at he
  have hsent' := hsent r
  by_cases hmine : k.sender = r
  · rw [if_pos (hsame.2 hmine)] at he
    obtain ⟨e', he', rfl⟩ := Option.map_eq_some_iff.1 he
    obtain ⟨hquota, hlimit⟩ := h p r e' hr he'
    rw [if_pos hmine] at hsent'
    dsimp only
    omega
  · rw [if_neg fun hcase => hmine (hsame.1 hcase)] at he
    rw [if_neg hmine] at hsent'
    obtain ⟨hquota, hlimit⟩ := h p r e hr he
    omega

theorem State.Quotas.release {s : State} (h : s.Quotas) {b : Nat} (hb : s.buffer b ≠ none → b < Config.bufferCount) :
    (s.releaseBuffer b).Quotas := by
  unfold State.releaseBuffer
  split
  · exact h
  · rename_i k hk
    split
    · exact h.freeBuffer (hb (hk ▸ Option.some_ne_none k)) hk
    · refine h.congr (fun c => ?_) (fun _ => rfl) fun _ _ hr => hr
      rw [State.buffer_setBuffer]
      split
      · subst_vars
        rw [hk]
        rfl
      · rfl

/-! ## Undelivered handling (R146) -/

theorem State.undelivered_keeps {s : State} {e : Entry} {es : List Entry} (h : s.Accounts (e :: es)) (hq : s.Quotas) (q : Port) :
    (s.undelivered q e).1.Accounts es ∧ (s.undelivered q e).1.Quotas := by
  have hdiscard : (s.discardEntry e).Accounts es ∧ (s.discardEntry e).Quotas := by
    have haccounts := h.release
    have hquotas : (s.releaseBuffer e.buffer).Quotas := hq.release fun hne => by
      obtain ⟨k, hk⟩ := Option.ne_none_iff_exists'.1 hne
      exact (h.used _ k hk).1
    exact ⟨⟨haccounts.used, haccounts.unused, haccounts.nodup, haccounts.free, haccounts.quiet⟩, hquotas⟩
  unfold State.undelivered
  split
  · rename_i k _
    split
    · rename_i hreturns
      simp only [State.returns, State.isCurrent, Bool.and_eq_true, beq_iff_eq] at hreturns
      obtain ⟨⟨-, hcurrent⟩, -⟩ := hreturns
      exact ⟨h.append (e' := ⟨e.buffer, .returned⟩) rfl (by rw [hcurrent]; exact Option.some_ne_none _) _,
        State.Quotas.append hq _ _ _⟩
    · exact hdiscard
  · exact hdiscard

theorem State.undeliverAll_keeps {s : State} (q : Port) {es : List Entry} (h : s.Accounts es) (hq : s.Quotas) :
    (s.undeliverAll q es).1.Accounts [] ∧ (s.undeliverAll q es).1.Quotas := by
  induction es generalizing s with
  | nil => exact ⟨h, hq⟩
  | cons e rest ih =>
    obtain ⟨haccounts, hquotas⟩ := State.undelivered_keeps h hq q
    exact ih haccounts hquotas

/-! ## The requests -/

/-- R148: the named queues of a port emptied. -/
theorem State.exchangeLawful.drain {s : State} (h : s.exchangeLawful) (q : Port) (u n : Bool) : (s.drain q u n).1.exchangeLawful := by
  rw [State.exchangeLawful_iff] at h ⊢
  exact State.undeliverAll_keeps q (h.1.emptyQueues q u n rfl fun _ hp => .inl hp)
    (h.2.congr (fun _ => rfl) (fun _ => rfl) fun _ _ hr => hr)

theorem State.exchangeLawful.mapMessages {s : State} (h : s.exchangeLawful) (p : Port) {f : MessageSession → MessageSession}
    (hf : ∀ e, (f e).quota = e.quota) : (s.mapMessages p f).exchangeLawful := by
  rw [State.exchangeLawful_iff] at h ⊢
  exact ⟨h.1.mapMessages p f, h.2.mapMessages p hf⟩

/-- R145: the head entry taken. -/
theorem State.exchangeLawful.receive {s : State} (h : s.exchangeLawful) {p : Port} {e : Entry} {urgent normal : List Entry}
    (htaken : s.exchange.urgent.get p ++ s.exchange.normal.get p = e :: (urgent ++ normal)) :
    ((s.setQueues p urgent normal).releaseBuffer e.buffer).exchangeLawful := by
  rw [State.exchangeLawful_iff] at h ⊢
  have haccounts : (s.setQueues p urgent normal).Accounts [e] := by
    refine h.1.take p (fun _ => rfl) rfl (fun q hq => ?_) (fun b => ?_) fun q hq => ?_
    · simp [State.setQueues, hq]
    · rw [htaken, naming_cons b e (urgent ++ normal), Nat.add_comm]
      simp only [State.setQueues, PerPort.get_set_same]
    · obtain ⟨hu, hn⟩ := h.1.quiet q hq
      have hne : q ≠ p := by
        rintro rfl
        rw [hu, hn] at htaken
        cases htaken
      simp [State.setQueues, hne, hu, hn]
  have hquotas : (s.setQueues p urgent normal).Quotas := h.2.congr (fun _ => rfl) (fun _ => rfl) fun _ _ hr => hr
  refine ⟨haccounts.release, hquotas.release fun hne => ?_⟩
  obtain ⟨k, hk⟩ := Option.ne_none_iff_exists'.1 hne
  exact (haccounts.used _ k hk).1

/-- R143: one entry for each port of the destination. -/
theorem State.appends_keeps {b : Nat} (ps : List Port) (u : Bool) {s : State}
    (h : s.Accounts (ps.map fun _ => ⟨b, .direct⟩)) (hps : ∀ q ∈ ps, s.session q ≠ none) :
    let t := ps.foldl (fun (s : State) q => s.appendEntry q u ⟨b, .direct⟩) s
    t.Accounts [] ∧ (∀ c, t.buffer c = s.buffer c) ∧ t.ports = s.ports ∧
      ∀ q, (t.exchange.sessions.get q).map MessageSession.quota = (s.exchange.sessions.get q).map MessageSession.quota := by
  induction ps generalizing s with
  | nil => exact ⟨h, fun _ => rfl, rfl, fun _ => rfl⟩
  | cons p rest ih =>
    obtain ⟨hp, hrest⟩ := List.forall_mem_cons.1 hps
    obtain ⟨haccounts, hbuffer, hports, hquota⟩ := ih (h.append (e' := ⟨b, .direct⟩) rfl hp u) fun q hq => by
      rw [State.appendEntry_session]
      exact hrest q hq
    exact ⟨haccounts, fun c => (hbuffer c).trans (State.appendEntry_buffer ..), hports.trans (State.appendEntry_ports ..),
      fun q => (hquota q).trans (State.appendEntry_quota ..)⟩

/-- R142, R143: at least one port and at most three, each with a session. -/
theorem State.destinations_bounds (s : State) (requester : Port) (d : Option Port) :
    (s.destinations requester d).length ≤ 3 ∧ ∀ q ∈ s.destinations requester d, s.session q ≠ none := by
  cases d with
  | some q =>
    unfold State.destinations
    dsimp only
    split
    · rename_i hsome
      refine ⟨(by decide : 1 ≤ 3), fun p hp => ?_⟩
      rw [List.mem_singleton.1 hp]
      exact Option.isSome_iff_ne_none.1 hsome
    · exact ⟨by decide, fun _ hp => absurd hp List.not_mem_nil⟩
  | none =>
    refine ⟨(List.length_filter_le ..).trans (by cases requester <;> decide), fun p hp => ?_⟩
    exact Option.isSome_iff_ne_none.1 (List.mem_filter.1 hp).2

/-- R143: a message's buffer taken from the free list, before its entries are queued. -/
theorem State.Accounts.takeBuffer {s : State} (h : s.Accounts []) {b : Nat} {rest : List Nat} (hfree : s.exchange.free = b :: rest)
    (number : Half) (k : Buffer) {ps : List Port} (hsome : ps ≠ []) (hthree : ps.length ≤ 3) (hrefs : k.references = ps.length) :
    ({ s with exchange := { s.exchange with counter := number, free := rest } }.setBuffer b (some k)).Accounts
      (ps.map fun _ => ⟨b, .direct⟩) := by
  have hbuffer : ∀ c, ({ s with exchange := { s.exchange with counter := number, free := rest } }.setBuffer b (some k)).buffer c =
      if c = b then some k else s.buffer c := fun c => State.buffer_setBuffer ..
  have hentries : ∀ c, ({ s with exchange := { s.exchange with counter := number, free := rest } }.setBuffer b
      (some k)).entriesOf c = s.entriesOf c := State.entriesOf_congr rfl rfl
  have hnaming : ∀ c, naming c (ps.map fun _ => (⟨b, .direct⟩ : Entry)) = if c = b then ps.length else 0 := fun c => by
    by_cases hc : c = b
    · simp [naming, hc]
    · simp [naming, hc, Ne.symm hc]
  have hmem := (h.free b).1 (hfree ▸ List.mem_cons_self)
  have hnodup := h.nodup
  rw [hfree, List.nodup_cons] at hnodup
  have hpos := List.length_pos_iff.2 hsome
  refine ⟨fun c j hc => ?_, fun c hc => ?_, hnodup.2, fun c => ?_, h.quiet⟩
  · rw [hentries, hnaming]
    rw [hbuffer] at hc
    split at hc
    · subst_vars
      cases hc
      have := h.unused _ hmem.2
      rw [if_pos rfl]
      exact ⟨hmem.1, by omega, by omega, by omega⟩
    · rename_i hne
      rw [if_neg hne]
      exact h.used c j hc
  · rw [hentries, hnaming]
    rw [hbuffer] at hc
    split at hc
    · cases hc
    · rename_i hne
      rw [if_neg hne]
      exact ⟨(h.unused c hc).1, rfl⟩
  · rw [hbuffer]
    have hc := h.free c
    rw [hfree, List.mem_cons] at hc
    show c ∈ rest ↔ _
    by_cases hcb : c = b
    · subst hcb
      simp [hnodup.1]
    · rw [if_neg hcb, ← hc]
      simp [hcb]

/-- R139, R143: a buffer taken counts on its sender's quota. -/
theorem State.Quotas.post {s t : State} (h : s.Quotas) {b : Nat} {k : Buffer} (hb : b < Config.bufferCount)
    (hunused : s.buffer b = none) (hwho : s.session k.sender.port = some k.sender)
    (hroom : s.quota k.sender.port < Config.sessionBuffers)
    (hbuffer : ∀ c, t.buffer c = if c = b then some k else s.buffer c) (hports : t.ports = s.ports)
    (hquota : ∀ p, (t.exchange.sessions.get p).map MessageSession.quota = (s.exchange.sessions.get p).map MessageSession.quota) :
    (t.mapMessages k.sender.port fun m => { m with quota := m.quota + 1 }).Quotas := by
  have hsent : ∀ r, t.sentBy r = s.sentBy r + if k.sender = r then 1 else 0 := fun r => by
    have hupdate := State.sentBy_update (s := s) (t := t) hb (fun c hc => by rw [hbuffer, if_neg hc]) r
    rw [hbuffer, if_pos rfl, hunused] at hupdate
    simpa using hupdate
  intro p r e hr he
  have hr' : s.session p = some r := by
    rw [State.mapMessages_session, State.session, hports] at hr
    exact hr
  show e.quota = t.sentBy r ∧ _
  rw [hsent]
  rw [State.mapMessages_exchange] at he
  dsimp only at he
  by_cases hp : p = k.sender.port
  · subst hp
    cases hwho.symm.trans hr'
    rw [PerPort.get_set_same] at he
    obtain ⟨e', he', rfl⟩ := Option.map_eq_some_iff.1 he
    obtain ⟨e'', he'', hsame⟩ := Option.map_eq_some_iff.1 ((hquota _).symm.trans (congrArg _ he'))
    obtain ⟨hcount, -⟩ := h _ _ e'' hr' he''
    rw [State.quota, he''] at hroom
    simp only [Option.elim_some] at hroom
    rw [if_pos rfl]
    dsimp only
    omega
  · rw [PerPort.get_set_ne _ _ _ _ hp] at he
    obtain ⟨e'', he'', hsame⟩ := Option.map_eq_some_iff.1 ((hquota _).symm.trans (congrArg _ he))
    obtain ⟨hcount, hlimit⟩ := h p r e'' hr' he''
    have hne : k.sender ≠ r := by
      rintro rfl
      exact hp (State.session_port hr').symm
    rw [if_neg hne]
    omega

/-- R143: the message posted. -/
theorem State.exchangeLawful.post {s : State} (h : s.exchangeLawful) {k : Buffer} {destination : Option Port}
    (hrefs : k.references = (s.destinations k.sender.port destination).length) (hwho : s.session k.sender.port = some k.sender)
    {b : Nat} {rest : List Nat} (hfree : s.exchange.free = b :: rest) (hsome : s.destinations k.sender.port destination ≠ [])
    (hroom : s.quota k.sender.port < Config.sessionBuffers) (number : Half) (urgent : Bool) :
    (((s.destinations k.sender.port destination).foldl (fun (s : State) q => s.appendEntry q urgent ⟨b, .direct⟩)
      ({ s with exchange := { s.exchange with counter := number, free := rest } }.setBuffer b (some k))).mapMessages
        k.sender.port fun m => { m with quota := m.quota + 1 }).exchangeLawful := by
  obtain ⟨hthree, hcurrent⟩ := s.destinations_bounds k.sender.port destination
  rw [State.exchangeLawful_iff] at h ⊢
  have hmem := (h.1.free b).1 (hfree ▸ List.mem_cons_self)
  obtain ⟨haccounts, hbuffer, hports, hquota⟩ :=
    State.appends_keeps _ urgent (h.1.takeBuffer hfree number k hsome hthree hrefs) hcurrent
  exact ⟨haccounts.mapMessages _ _, h.2.post hmem.1 hmem.2 hwho hroom
    (fun c => (hbuffer c).trans (State.buffer_setBuffer ..)) hports hquota⟩

/-! ## Sessions that begin and end -/

/-- R147: the end of a port's session, where the port's record already shows it gone. -/
theorem State.exchangeLawful.messagesAtEnd {s t : State} (h : s.exchangeLawful) {p : Port} (hexchange : t.exchange = s.exchange)
    (hgone : t.session p = none) (hothers : ∀ q, q ≠ p → t.session q = s.session q) : (t.messagesAtEnd p).exchangeLawful := by
  rw [State.exchangeLawful_iff] at h
  have hbuffer : ∀ b, t.buffer b = s.buffer b := fun b => by rw [State.buffer, hexchange, State.buffer]
  have hempty : (t.emptyQueues p true true).Accounts (t.queued p true true) := h.1.emptyQueues p true true hexchange fun q hq => by
    by_cases hqp : q = p
    · exact .inr ⟨hqp, rfl, rfl⟩
    · exact .inl (hothers q hqp ▸ hq)
  have hquotas : (t.emptyQueues p true true).Quotas := h.2.congr (fun b => by rw [← hbuffer b]; rfl)
    (fun q => by rw [← hexchange]; rfl) fun q r hr => by
      have hr' : t.session q = some r := hr
      by_cases hqp : q = p
      · rw [hqp, hgone] at hr'
        cases hr'
      · rwa [← hothers q hqp]
  obtain ⟨haccounts, hquotas'⟩ := State.undeliverAll_keeps p hempty hquotas
  have hsession : ∀ q, (t.drain p true true).1.session q = t.session q := fun q => State.drain_session ..
  rw [State.exchangeLawful_iff]
  refine ⟨⟨haccounts.used, haccounts.unused, haccounts.nodup, haccounts.free, haccounts.quiet⟩, fun q r e hr he => ?_⟩
  have hr' : (t.drain p true true).1.session q = some r := hr
  have hqp : q ≠ p := by
    rintro rfl
    rw [hsession, hgone] at hr'
    cases hr'
  refine hquotas' q r e hr' ?_
  rwa [State.messagesAtEnd, PerPort.get_set_ne _ _ _ _ hqp] at he

/-- R22, R139: a session begins under a number that no message in use bears. -/
theorem State.exchangeLawful.begins {s t : State} (h : s.exchangeLawful) {p : Port} {r : SessionRef}
    (hexchange : t.exchange = { s.exchange with sessions := s.exchange.sessions.set p (some .start) })
    (hmine : t.session p = some r) (hothers : ∀ q, q ≠ p → t.session q = s.session q)
    (hfresh : ∀ b k, s.buffer b = some k → k.sender ≠ r) : t.exchangeLawful := by
  rw [State.exchangeLawful_iff] at h ⊢
  have hbuffer : ∀ b, t.buffer b = s.buffer b := fun b => by rw [State.buffer, hexchange, State.buffer]
  have hentries : ∀ b, t.entriesOf b = s.entriesOf b := State.entriesOf_congr (by rw [hexchange]) (by rw [hexchange])
  have hsent : ∀ x, t.sentBy x = s.sentBy x := fun x => State.sentBy_congr x fun b => by rw [hbuffer]
  refine ⟨⟨fun b k hb => ?_, fun b hb => ?_, hexchange ▸ h.1.nodup, fun b => ?_, fun q hq => ?_⟩, fun q x e hx he => ?_⟩
  · rw [hentries]
    exact h.1.used b k (hbuffer b ▸ hb)
  · rw [hentries]
    exact h.1.unused b (hbuffer b ▸ hb)
  · rw [hexchange, hbuffer]
    exact h.1.free b
  · have hqp : q ≠ p := by
      rintro rfl
      rw [hmine] at hq
      cases hq
    rw [hexchange]
    exact h.1.quiet q (hothers q hqp ▸ hq)
  · rw [hsent]
    rw [hexchange] at he
    by_cases hqp : q = p
    · subst hqp
      cases hmine.symm.trans hx
      dsimp only at he
      rw [PerPort.get_set_same] at he
      cases he
      refine ⟨?_, Nat.zero_le _⟩
      rw [State.sentBy, List.filter_eq_nil_iff.2 fun b _ => ?_]
      · rfl
      · cases hb : s.buffer b with
        | none => simp
        | some k => simpa using hfresh b k hb
    · dsimp only at he
      rw [PerPort.get_set_ne _ _ _ _ hqp] at he
      exact h.2 q x e (hothers q hqp ▸ hx) he

/-- R155, R156: the exchange at its reset values. -/
theorem State.exchangeLawful_reset {s : State} (h : s.exchange = .reset) : s.exchangeLawful := by
  have hbuffer : ∀ b, s.buffer b = none := fun b => by rw [State.buffer, h]; rfl
  have hqueues : ∀ p, s.exchange.urgent.get p = [] ∧ s.exchange.normal.get p = [] := fun p => by
    rw [h]
    exact ⟨PerPort.get_fill .., PerPort.get_fill ..⟩
  have hentries : ∀ b, s.entriesOf b = 0 := fun b => by simp [State.entriesOf, hqueues, Port.all]
  refine ⟨fun b k hb => (nomatch (hbuffer b).symm.trans hb), fun b _ => hentries b, ⟨?_, fun b => ?_⟩, fun p _ => hqueues p,
    fun p r e _ he => ?_⟩
  · rw [h]
    exact List.nodup_range
  · rw [h, hbuffer]
    simp [Exchange.reset]
  · rw [h, Exchange.reset, PerPort.get_fill] at he
    cases he

end Sys2Proof.Machine
end

section
/-! The changes that the commands are made of, and what each asks of a law of the state: a law that meets `Kept` is kept by every
service, every expiry and every step. -/

namespace Sys2Proof.Machine

/-! ## The changes -/

/-- R23, R44, R80, R102: points of the session monitor, the zone table and the token arbiter, away from those of the timer
array, the fault list and the message exchange. -/
def Points.plain (w : Points) : Prop :=
  (∀ b ∈ w.bits, (32 ≤ b.1 ∧ b.1 < 60) ∨ (64 ≤ b.1 ∧ b.1 < 128)) ∧ ∀ x ∈ w.words, (32 ≤ x.1 ∧ x.1 < 52) ∨ x.1 = 59

/-- R140: words of the message exchange. -/
def Points.ofExchange (w : Points) : Prop := w.bits = [] ∧ ∀ x ∈ w.words, 54 ≤ x.1 ∧ x.1 ≤ 58

/-- A zone's record after a change that keeps its ranges and does not make its owner's port its standby (R41, R45). -/
def ZoneRecord.succeeds (r' r : ZoneRecord) : Prop :=
  (r'.bitFirst = r.bitFirst ∧ r'.bitCount = r.bitCount ∧ r'.wordFirst = r.wordFirst ∧ r'.wordCount = r.wordCount) ∧
    (r.standbyOff = true → r'.standbyOff = true)

/-- R45: the owner that a session end gives a zone is not on the standby's port. -/
def ZoneMove.standbyOff (m : ZoneMove) : Prop := ∀ owner, m.status = .owned owner → m.standby ≠ some owner.port

/-- R48: the checks that a definition has passed. -/
structure Definable (s : State) (z bitFirst bitCount wordFirst wordCount : Nat) : Prop where
  low : 1 ≤ z
  high : z ≤ 31
  bits : bitRangeMeets bitFirst bitCount = true
  words : wordRangeMeets wordFirst wordCount = true
  apart : s.overlapping bitFirst bitCount wordFirst wordCount = none

/-- A change of a timer that is no run of it: its count and its done stand (R118). -/
def Armed.sameRun (f : Armed → Armed) : Prop := ∀ a, (f a).count = a.count ∧ (f a).done = a.done

/-- A port's record in another state, of the same session, its monitor restarted at the clock (R25, R31). -/
def PortRecord.continues (r' r : PortRecord) (c : Clock) : Prop :=
  ∃ m, r.session = some m ∧ r'.session.map Membership.number = some m.number ∧
    ∀ m', r'.session = some m' → m'.monitorTime = m.monitorTime ∧ m'.deadline = monitorDeadline c m.monitorTime

/-- R45, R90: a zone's record after a change that begins no takeover. -/
def ZoneRecord.changes (r' r : ZoneRecord) : Prop :=
  r'.succeeds r ∧ ∀ d, r'.status = .handover d → r.status = .handover d

/-- R103: a token's record whose hold deadline is the one it had, or one that its limit sets at the clock. -/
def Token.timesHold (k' k : Token) (c : Clock) : Prop :=
  ∀ g d, k'.hold = some g → g.deadline = some d →
    (∃ g', k.hold = some g' ∧ g'.deadline = some d) ∨ ∃ limit : Byte, limit ≠ 0 ∧ d = msAfter c (limit.toNat * 100)

/-- R150: a coalesce deadline is the one that stood, or one set at the clock. -/
def State.setsCoalesce (s : State) (before after : Option Clock) : Prop :=
  ∀ d, after = some d → before = some d ∨ ∃ time : Byte, time ≠ 0 ∧ d = msAfter s.clock time.toNat

/-- R150: a change of the exchange's state of a port's session, as its coalesce deadline sees it. -/
def State.retimes (s : State) (p : Port) (f : MessageSession → MessageSession) : Prop :=
  ∀ e, s.exchange.sessions.get p = some e → s.setsCoalesce e.deadline (f e).deadline

/-- Attention records with causes and details added, level with their causes (R159, R160). -/
def State.toldMore (s t : State) : Prop :=
  ∀ p, (t.attention.get p).isSome = (s.attention.get p).isSome ∧
    ∀ r', t.attention.get p = some r' →
      ∃ r, s.attention.get p = some r ∧ r'.slots = r.slots ∧ (r.levelled → r'.levelled)

/-- A change of the message exchange that begins and ends no session, with the attention that it raises. -/
structure ExchangeStep (s t : State) : Prop where
  frame : t = { s with exchange := t.exchange, attention := t.attention }
  sessions : ∀ p, (t.exchange.sessions.get p).isSome = (s.exchange.sessions.get p).isSome
  buffers : Memory.wf none s.exchange.buffers → Memory.wf none t.exchange.buffers
  attention : s.toldMore t
  deadlines : ∀ p e', t.exchange.sessions.get p = some e' →
    ∃ e, s.exchange.sessions.get p = some e ∧ s.setsCoalesce e.deadline e'.deadline

/-- R28: the membership of a session that begins while the clock reads `c`. -/
def Membership.startsAt (m : Membership) (c : Clock) : Prop :=
  m.monitorTime ≠ 0 ∧ m.deadline = monitorDeadline c m.monitorTime

/-- R171: at most 16 entries of distinct numbers, and at most one with the first-out mark. -/
def lawfulFaultList (l : List FaultEntry) : Prop :=
  l.length ≤ Config.faultEntries ∧ (l.map FaultEntry.number).Nodup ∧ (l.filter FaultEntry.firstOut).length ≤ 1

/-- What each change but the clock's advance and the beginning of a session asks of a law of the state. -/
structure Kept (P : State → Prop) : Prop where
  draws : ∀ s n, P s → P { s with freeDraws := n }
  phase : ∀ s ph, P s → P { s with phase := ph }
  link : ∀ s p l, P s → P (s.setLink p l)
  port : ∀ s p r, r.continues (s.ports.get p) s.clock → P s → P (s.setPort p r)
  ends : ∀ s p m r cause monitor, (s.ports.get p).session = some m → r.session = none →
    (∀ a ∈ List.flatten monitor, (∃ w, a = Action.system w ∧ w.plain) ∨ ∃ n, a = Action.raise n) → P s →
    P ((s.setPort p r).endSession ⟨p, m.number⟩ cause monitor)
  points : ∀ s w, w.plain → P s → P (s.writeSystem w)
  raise : ∀ s c d p, P s → P (s.raise c d p)
  ownership : ∀ s zs, P s → P (s.fireOwnership zs)
  defines : ∀ s z who bf bc wf wc rights c e, Definable s z bf bc wf wc → P s →
    P (s.setZone z (some (.define who bf bc wf wc rights c e)))
  zone : ∀ s z r r', s.zone z = some r → r'.changes r → P s → P (s.setZone z (some r'))
  retires : ∀ s z, P s → P (s.setZone z none)
  timers : ∀ s f, Armed.sameRun f → P s → P (s.mapTimers f)
  unwatch : ∀ s z, P s → P (s.removeWatches z)
  clearing : ∀ s u z r, P u → u.zone z = some r → P s → P (s.writeClearing r.zeros)
  writes : ∀ s zs w, (∀ b ∈ w.bits, ∃ z, s.bitHolder b.1 = .zone z) → (∀ x ∈ w.words, ∃ z, s.wordHolder x.1 = .zone z) →
    P s → P (s.writeZones zs w)
  token : ∀ s n k, (s.tokensLawful → (s.setToken n k).tokensLawful) ∧ k.timesHold (s.token n) s.clock → P s → P (s.setToken n k)
  timer : ∀ s n t, P s → P (s.changeTimer n t)
  tick : ∀ s, P s → P s.tickEvent
  exchange : ∀ s t, ExchangeStep s t → (s.exchangeLawful → t.exchangeLawful) → P s → P (s.writeExchange t)
  settings : ∀ s p f, (∀ e : MessageSession, (f e).quota = e.quota) ∧ s.retimes p f → P s → P (s.mapMessages p f)
  attend : ∀ s p r, (s.ports.get p).session.isSome → ((s.record p).levelled → r.levelled) →
    (Memory.wf none (s.record p).slots → Memory.wf none r.slots) → P s → P (s.setRecord p r)
  faults : ∀ s fs o, (lawfulFaultList s.faults → lawfulFaultList fs) → P s →
    P (s.writeFaults { s with faults := fs, overflow := o })
  warm : ∀ s, P s → P s.warmReset
  power : ∀ s ph links, P s → P (State.powerOn ph links s.freeDraws s.pending)
  freeWord : ∀ s, P s →
    P ({ s with freeWordDue := false }.writeSystem ⟨[], [(54, natHalf s.exchange.free.length)]⟩)

/-- R17, R22, R36: what each change asks, the clock's advance and the beginning of a session among them. -/
structure KeptByJoin (P : State → Prop) : Prop extends Kept P where
  clock : ∀ s c, P s → P { s with clock := c, tickDue := true }
  begins : ∀ s p number m, (s.ports.get p).session = none ∧ m.startsAt s.clock → P s →
    P { s with
      sessionCounter := number, ports := s.ports.set p (.online m), attention := s.attention.set p (some .start),
      exchange := { s.exchange with sessions := s.exchange.sessions.set p (some .start) } }

/-! ## The fault list (R171) -/

theorem lawfulFaultList.filter {l : List FaultEntry} (h : lawfulFaultList l) (keep : FaultEntry → Bool) :
    lawfulFaultList (l.filter keep) := by
  obtain ⟨hlength, hnumbers, hfirst⟩ := h
  refine ⟨(List.length_filter_le ..).trans hlength, (List.filter_sublist.map _).nodup hnumbers, ?_⟩
  rw [List.filter_comm]
  exact (List.length_filter_le ..).trans hfirst

/-- R174, R179: the entries changed but for their numbers and marks. -/
theorem lawfulFaultList.map {l : List FaultEntry} (h : lawfulFaultList l) (f : FaultEntry → FaultEntry)
    (hf : ∀ e, (f e).number = e.number ∧ (f e).firstOut = e.firstOut) : lawfulFaultList (l.map f) := by
  obtain ⟨hlength, hnumbers, hfirst⟩ := h
  refine ⟨(List.length_map f).symm ▸ hlength, ?_, ?_⟩
  · rwa [List.map_map, show FaultEntry.number ∘ f = FaultEntry.number from funext fun e => (hf e).1]
  · rwa [List.filter_map, List.length_map, show FaultEntry.firstOut ∘ f = FaultEntry.firstOut from funext fun e => (hf e).2]

/-- R174: the first entry of an empty list is the first-out one; later ones are not. -/
theorem lawfulFaultList.append {l : List FaultEntry} (h : lawfulFaultList l) {e : FaultEntry}
    (hroom : l.length < Config.faultEntries) (hnew : ∀ f ∈ l, f.number ≠ e.number) (hmark : e.firstOut = l.isEmpty) :
    lawfulFaultList (l ++ [e]) := by
  obtain ⟨hlength, hnumbers, hfirst⟩ := h
  refine ⟨by simpa using hroom, ?_, ?_⟩
  · rw [List.map_append, List.nodup_append]
    refine ⟨hnumbers, List.nodup_singleton _, fun a ha b hb => ?_⟩
    obtain ⟨f, hf, rfl⟩ := List.mem_map.1 ha
    rw [List.mem_singleton.1 hb]
    exact hnew f hf
  · cases l with
    | nil => exact List.length_filter_le _ [e]
    | cons f rest =>
      rw [List.filter_append, List.filter_singleton, hmark, List.isEmpty_cons, cond_false, List.append_nil]
      exact hfirst

/-- R174: a raise in the list. -/
theorem State.lawfulFaultList_enterFault (s : State) (n : Half) (o : Origin) (r : Half) (h : lawfulFaultList s.faults) :
    lawfulFaultList (s.enterFault n o r).faults := by
  unfold State.enterFault
  cases hraised : s.raiseKind n with
  | repeated =>
    exact h.map _ fun e => by split <;> exact ⟨rfl, rfl⟩
  | append =>
    unfold State.raiseKind at hraised
    split at hraised
    · cases hraised
    · rename_i hnew
      split at hraised
      · rename_i hroom
        refine h.append hroom (fun f hf heq => hnew ?_) rfl
        exact List.any_eq_true.2 ⟨f, hf, beq_iff_eq.2 heq⟩
      · cases hraised
  | full => exact h

/-! ## The points of the blocks -/

theorem zonePoints_plain (s t : State) : (zonePoints s t).plain := by
  refine ⟨fun b hb => ?_, fun x hx => ?_⟩
  · simp only [zonePoints, List.mem_append, List.mem_filterMap] at hb
    rcases hb with ⟨z, hz, h⟩ | ⟨z, hz, h⟩ <;>
    · have := (mem_zoneNumbers z).mp hz
      split at h
      · exact absurd h (by simp)
      · obtain rfl := Option.some.inj h
        dsimp only
        omega
  · simp only [zonePoints] at hx
    split at hx
    · exact absurd hx (by simp)
    · simp only [List.mem_singleton] at hx
      exact .inr (by rw [hx])

theorem tokenPoints_plain (s t : State) : (tokenPoints s t).plain := by
  refine ⟨fun b hb => .inl ?_, fun x hx => .inl ?_⟩
  · simp only [tokenPoints, List.mem_map, List.mem_filter, List.mem_range, Config.tokenCount] at hb
    obtain ⟨n, ⟨hn, -⟩, rfl⟩ := hb
    dsimp only
    omega
  · simp only [tokenPoints, List.mem_map, List.mem_filter, List.mem_range, Config.tokenCount] at hx
    obtain ⟨n, ⟨hn, -⟩, rfl⟩ := hx
    dsimp only
    omega

theorem monitorPoints_plain (p : Port) (r : PortRecord) : (monitorPoints p r).plain := by
  have hp := Port.index_lt p
  constructor
  · simp only [monitorPoints, List.forall_mem_cons, List.not_mem_nil, IsEmpty.forall_iff, implies_true, and_true]
    omega
  · simp only [monitorPoints, List.forall_mem_cons, List.not_mem_nil, IsEmpty.forall_iff, implies_true, and_true]
    omega

theorem exchangePoints_ofExchange (s t : State) : (exchangePoints s t).ofExchange := by
  refine ⟨rfl, fun x hx => ?_⟩
  have hx' := (List.mem_filter.mp hx).1
  simp only [exchangeWords, List.mem_cons, List.mem_map] at hx'
  rcases hx' with rfl | ⟨p, -, rfl⟩
  · simp
  · have := Port.index_lt p
    dsimp only
    omega

/-! ## The exchange's operations are changes of the exchange -/

theorem State.toldMore.refl (s : State) : s.toldMore s := fun _ => ⟨rfl, fun r hr => ⟨r, hr, rfl, id⟩⟩

theorem State.toldMore.trans {s t u : State} (h : s.toldMore t) (h' : t.toldMore u) : s.toldMore u := by
  refine fun p => ⟨(h' p).1.trans (h p).1, fun r'' hr'' => ?_⟩
  obtain ⟨r', hr', hslots', hlevel'⟩ := (h' p).2 r'' hr''
  obtain ⟨r, hr, hslots, hlevel⟩ := (h p).2 r' hr'
  exact ⟨r, hr, hslots'.trans hslots, hlevel' ∘ hlevel⟩

theorem State.toldMore.of_eq {s t : State} (h : t.attention = s.attention) : s.toldMore t := by
  intro p
  rw [h]
  exact ⟨rfl, fun r hr => ⟨r, hr, rfl, id⟩⟩

theorem State.toldMore_raise (s : State) (c : Cause) (d : Detail) (p : Port) : s.toldMore (s.raise c d p) := by
  intro q
  rw [State.attention_raise]
  split
  · refine ⟨by simp, fun r' hr' => ?_⟩
    obtain ⟨r, hr, rfl⟩ := Option.map_eq_some_iff.mp hr'
    exact ⟨r, hr, r.slots_raise c d, fun _ => r.levelled_raise c d⟩
  · exact ⟨rfl, fun r hr => ⟨r, hr, rfl, id⟩⟩

/-- A change that leaves the coalesce deadline, or stops it. -/
theorem State.retimes_of (s : State) (p : Port) {f : MessageSession → MessageSession}
    (hf : ∀ e, (f e).deadline = e.deadline ∨ (f e).deadline = none) : s.retimes p f := by
  intro e _ d hd
  rcases hf e with h | h
  · exact .inl (h ▸ hd)
  · nomatch h.symm.trans hd

/-- R150: a coalesce timer started with a time that is not 0. -/
theorem State.retimes_start {s : State} {p : Port} {m : MessageSession} (hm : s.exchange.sessions.get p = some m)
    (htime : m.time ≠ 0) : s.retimes p fun e => { e with deadline := some (msAfter s.clock e.time.toNat) } := by
  intro e he d hd
  obtain rfl : m = e := Option.some.inj (hm.symm.trans he)
  exact .inr ⟨m.time, htime, (Option.some.inj hd).symm⟩

namespace ExchangeStep

theorem refl (s : State) : ExchangeStep s s := ⟨rfl, fun _ => rfl, id, .refl s, fun _ e he => ⟨e, he, fun _ => .inl⟩⟩

theorem trans {s t u : State} (h : ExchangeStep s t) (h' : ExchangeStep t u) : ExchangeStep s u where
  frame := by
    rw [h'.frame, h.frame]
  sessions p := (h'.sessions p).trans (h.sessions p)
  buffers := h'.buffers ∘ h.buffers
  attention := h.attention.trans h'.attention
  deadlines p e'' he'' := by
    obtain ⟨e', he', hset'⟩ := h'.deadlines p e'' he''
    obtain ⟨e, he, hset⟩ := h.deadlines p e' he'
    have hclock : t.clock = s.clock := by rw [h.frame]
    refine ⟨e, he, fun d hd => ?_⟩
    rcases hset' d hd with hd' | hfresh
    · exact hset d hd'
    · exact .inr (hclock ▸ hfresh)

/-- A change of the exchange that leaves its state of every session. -/
theorem of_exchange {s : State} {e : Exchange} (hsessions : e.sessions = s.exchange.sessions)
    (hbuffers : Memory.wf none s.exchange.buffers → Memory.wf none e.buffers) :
    ExchangeStep s { s with exchange := e } :=
  ⟨rfl, fun p => by rw [hsessions], hbuffers, .of_eq rfl, fun p e' he' => ⟨e', by rwa [← hsessions], fun _ => .inl⟩⟩

theorem raise (s : State) (c : Cause) (d : Detail) (p : Port) : ExchangeStep s (s.raise c d p) where
  frame := by rw [State.raise_frame]
  sessions q := by rw [State.raise_frame]
  buffers h := by rwa [State.raise_frame]
  attention := s.toldMore_raise c d p
  deadlines q e' he' := ⟨e', by rwa [State.raise_frame] at he', fun _ => .inl⟩

/-- R143: the counter's next number and the free list's head taken. -/
theorem takeBuffer (s : State) (number : Half) (rest : List Nat) :
    ExchangeStep s { s with exchange := { s.exchange with counter := number, free := rest } } :=
  of_exchange rfl id

theorem mapMessages (s : State) (p : Port) {f : MessageSession → MessageSession} (hf : s.retimes p f) :
    ExchangeStep s (s.mapMessages p f) where
  frame := rfl
  sessions q := by
    rw [State.mapMessages, PerPort.get_set]
    split <;> simp_all
  buffers := id
  attention := .of_eq rfl
  deadlines q e' he' := by
    rw [State.mapMessages, PerPort.get_set] at he'
    split at he'
    · subst_vars
      obtain ⟨e, he, rfl⟩ := Option.map_eq_some_iff.1 he'
      exact ⟨e, he, hf e he⟩
    · exact ⟨e', he', fun _ => .inl⟩

theorem setBuffer (s : State) (b : Nat) (k : Option Buffer) : ExchangeStep s (s.setBuffer b k) :=
  of_exchange rfl (fun h => Memory.wf_write none h b k)

theorem pushEntry (s : State) (p : Port) (u : Bool) (e : Entry) : ExchangeStep s (s.pushEntry p u e) := by
  unfold State.pushEntry
  split
  · exact of_exchange rfl id
  · exact of_exchange rfl id

theorem appendEntry (s : State) (p : Port) (u : Bool) (e : Entry) : ExchangeStep s (s.appendEntry p u e) := by
  have hpush := pushEntry s p u e
  unfold State.appendEntry
  dsimp only
  split
  · exact hpush.trans (raise ..)
  · split
    · exact hpush
    · rename_i m hm
      split
      · exact hpush.trans ((mapMessages _ p (State.retimes_of _ p fun _ => .inr rfl)).trans (raise ..))
      · split
        · rename_i hstart
          have hsessions : (s.pushEntry p u e).exchange.sessions.get p = some m := by
            unfold State.pushEntry
            split <;> exact hm
          refine hpush.trans (mapMessages _ p (State.retimes_start hsessions ?_))
          simpa using (Bool.and_eq_true_iff.1 hstart).2
        · exact hpush

theorem freeBuffer (s : State) (b : Nat) (k : Buffer) : ExchangeStep s (s.freeBuffer b k) := by
  have hfreed : ExchangeStep s { s.setBuffer b none with
      exchange := { (s.setBuffer b none).exchange with free := (s.setBuffer b none).exchange.free ++ [b] } } :=
    (setBuffer s b none).trans (of_exchange rfl id)
  unfold State.freeBuffer
  dsimp only
  split
  · exact hfreed.trans (mapMessages _ _ (State.retimes_of _ _ fun _ => .inl rfl))
  · exact hfreed

theorem releaseBuffer (s : State) (b : Nat) : ExchangeStep s (s.releaseBuffer b) := by
  unfold State.releaseBuffer
  split
  · exact refl s
  · split
    · exact freeBuffer ..
    · exact setBuffer ..

theorem discardEntry (s : State) (e : Entry) : ExchangeStep s (s.discardEntry e) :=
  (releaseBuffer s e.buffer).trans (of_exchange rfl id)

theorem undelivered (s : State) (q : Port) (e : Entry) : ExchangeStep s (s.undelivered q e).1 := by
  unfold State.undelivered
  split
  · split
    · exact appendEntry ..
    · exact discardEntry ..
  · exact discardEntry ..

theorem undeliverAll (q : Port) (es : List Entry) (s : State) : ExchangeStep s (s.undeliverAll q es).1 := by
  induction es generalizing s with
  | nil => exact refl s
  | cons e es ih => exact (undelivered s q e).trans (ih _)

theorem drain (s : State) (q : Port) (u n : Bool) : ExchangeStep s (s.drain q u n).1 :=
  (of_exchange rfl id : ExchangeStep s (s.emptyQueues q u n)).trans (undeliverAll ..)

theorem appends (ps : List Port) (u : Bool) (e : Entry) (s : State) :
    ExchangeStep s (ps.foldl (fun s q => s.appendEntry q u e) s) := by
  induction ps generalizing s with
  | nil => exact refl s
  | cons p ps ih => exact (appendEntry s p u e).trans (ih _)

end ExchangeStep

end Sys2Proof.Machine
end

section
/-! A law that meets `Kept` is kept by every service, by every expiry and by every step. -/

namespace Sys2Proof.Machine

/-- R24: what a fenced service keeps on the port's current session, the fence keeps. -/
theorem fenced_keeps {P : State → Prop} (p : Port) (n : Half) (serve : SessionRef → State → State × Answer) (s : State)
    (h : ∀ m, (s.ports.get p).session = some m → m.number = n → P (serve (m.on p) s).1) (hs : P s) :
    P (fenced p n serve s).1 := by
  unfold fenced
  split
  · exact hs
  · rename_i who hwho
    obtain ⟨m, hm, rfl⟩ := Option.map_eq_some_iff.mp hwho
    split
    · exact h m hm ‹_›
    · exact hs

/-- R51, R54, R55, R82, R84, R85: a zone that the checks let pass is the table's. -/
theorem State.zone_of_definedZone {s : State} {n : Byte} {z : Nat} {r : ZoneRecord}
    (hz : s.definedZone n = .ok (z, r)) : s.zone z = some r ∧ 1 ≤ z ∧ z ≤ 31 := by
  unfold State.definedZone at hz
  split at hz
  · cases hz
  · rename_i hrange
    split at hz
    · cases hz
    · rename_i hr
      cases hz
      simp only [Config.zoneCount] at hrange
      exact ⟨hr, by omega, by omega⟩

/-- R27: a JOIN finds the port without a session, once the old one has ended. -/
theorem State.session_replaceSession (s : State) (p : Port) : ((s.replaceSession p).ports.get p).session = none := by
  unfold State.replaceSession
  split
  · rw [State.endSession_ports, State.setPort_ports, PerPort.get_set_same]
    rfl
  · rename_i hnone
    exact Option.map_eq_none_iff.mp hnone

/-- R161, R162: a slot written leaves the slots canonical (entry 14). -/
theorem AttentionRecord.slots_fill (slot : Nat) (w : Option Watch) {r : AttentionRecord} (hwf : Memory.wf none r.slots) :
    Memory.wf none (r.fill slot w).slots := Memory.wf_write none hwf _ _

/-- R45, R83, R86, R93: a zone passes without its new owner's port as standby. -/
theorem ZoneRecord.succeeds_passTo (r : ZoneRecord) (owner : SessionRef) : (r.passTo owner).succeeds r := by
  refine ⟨⟨rfl, rfl, rfl, rfl⟩, fun _ => ?_⟩
  simp only [ZoneRecord.passTo, ZoneRecord.standbyOff]
  split <;> simp_all

/-- R45: a zone that no session owns has no owner's port. -/
theorem ZoneRecord.succeeds_of_status {r' r : ZoneRecord}
    (hranges : r'.bitFirst = r.bitFirst ∧ r'.bitCount = r.bitCount ∧ r'.wordFirst = r.wordFirst ∧ r'.wordCount = r.wordCount)
    (hstatus : ∀ owner, r'.status ≠ .owned owner) : r'.succeeds r := by
  refine ⟨hranges, fun _ => ?_⟩
  unfold ZoneRecord.standbyOff
  split
  · exact absurd ‹_› (hstatus _)
  · rfl

/-- R103: a hold that stands keeps its deadline. -/
theorem Token.timesHold_of_hold {k' k : Token} {c : Clock} (hhold : k'.hold = k.hold) : k'.timesHold k c :=
  fun g _ hg hd => .inl ⟨g, hhold ▸ hg, hd⟩

/-- R103: a grant sets the hold deadline by the token's limit. -/
theorem Token.timesHold_grant (k k' : Token) (holder : SessionRef) (c : Clock) : (k.grant holder c).timesHold k' c := by
  intro g d hg hd
  obtain rfl := Option.some.inj hg
  dsimp only at hd
  split at hd
  · nomatch hd
  · rename_i hlimit
    exact .inr ⟨k.limit, hlimit, (Option.some.inj hd).symm⟩

theorem Token.timesHold_handOn (k k' : Token) (broken : Bool) (c : Clock) : (k.handOn broken c).timesHold k' c := by
  unfold Token.handOn
  split
  · exact fun _ _ hg => nomatch hg
  · exact Token.timesHold_grant _ k' _ c

/-- R152: a read restarts the coalesce timer of a session whose time is not 0. -/
theorem State.messageRead_restart {s : State} {p : Port} (h : s.messageRead p = .restart) :
    ∃ e, s.exchange.sessions.get p = some e ∧ e.time ≠ 0 := by
  unfold State.messageRead at h
  dsimp only at h
  split at h
  · nomatch h
  · split at h
    · nomatch h
    · split at h
      · rename_i hdepth
        cases he : s.exchange.sessions.get p with
        | none =>
          rw [he] at hdepth
          exact absurd rfl hdepth.2
        | some e =>
          rw [he] at hdepth
          exact ⟨e, rfl, hdepth.2⟩
      · nomatch h

namespace Kept
variable {P : State → Prop} (h : Kept P)
include h

/-! ## Operations that several services share -/

theorem raiseFor (c : Cause) (d : Detail) (ps : List Port) (s : State) (hs : P s) : P (s.raiseFor c d ps) := by
  induction ps generalizing s with
  | nil => exact hs
  | cons p ps ih => exact ih _ (h.raise s c d p hs)

theorem raisePeer (s : State) (p : Port) (hs : P s) : P (s.raisePeer p) := h.raiseFor _ _ _ s hs

theorem raiseGrant (s : State) (n : Nat) (k : Token) (b : Bool) (hs : P s) : P (s.raiseGrant n k b) := by
  unfold State.raiseGrant
  split
  · exact h.raise _ _ _ _ hs
  · exact hs

theorem writeMonitor (s : State) (p : Port) (hs : P s) : P (s.writeMonitor p) := h.points s _ (monitorPoints_plain ..) hs

theorem enterFault (s : State) (n : Half) (o : Origin) (r : Half) (hs : P s) : P (s.writeFaults (s.enterFault n o r)) := by
  have hlawful := s.lawfulFaultList_enterFault n o r
  rw [State.enterFault_frame] at hlawful ⊢
  exact h.faults s _ _ hlawful hs

theorem raiseFault (s : State) (n : Half) (o : Origin) (r : Half) (hs : P s) : P (s.raiseFault n o r) := by
  have hwritten := h.enterFault s n o r hs
  unfold State.raiseFault
  dsimp only
  split
  · exact hwritten
  · exact h.raiseFor _ _ _ _ hwritten
  · exact h.raiseFor _ _ _ _ hwritten

/-- The write events and raises that a request or an expiry of one zone or one token makes in a free order. -/
theorem actFreely (s : State) (blocks : List (List Action))
    (ha : ∀ a ∈ blocks.flatten, (∃ w, a = .system w ∧ w.plain) ∨ (∃ n, a = .raise n) ∨
      ∃ u z r, P u ∧ u.zone z = some r ∧ a = .clearing r.zeros) (hs : P s) : P (s.actFreely blocks) := by
  refine State.actFreely_keeps P s blocks (fun n => h.draws s n hs) fun a ha' t ht => ?_
  rcases ha a ha' with ⟨w, rfl, hw⟩ | ⟨n, rfl⟩ | ⟨u, z, r, hu, hr, rfl⟩
  · exact h.points t w hw ht
  · exact h.raiseFault t _ _ _ ht
  · exact h.clearing t u z r hu hr ht

/-! ## The session monitor -/

theorem qualify (s : State) (p : Port) (n : Half) (hs : P s) : P (s.qualify p n) := by
  have hport : ∀ m, (s.ports.get p).session = some m → P (s.setPort p (.online { m with deadline := monitorDeadline s.clock m.monitorTime })) :=
    fun m hm => h.port s p _ ⟨m, hm, rfl, fun m' hm' => by cases hm'; exact ⟨rfl, rfl⟩⟩ hs
  unfold State.qualify
  split
  · rename_i m hm
    split
    · exact hport m (by rw [hm]; rfl)
    · exact hs
  · rename_i m hm
    split
    · exact h.raisePeer _ p (h.writeMonitor _ p (hport m (by rw [hm]; rfl)))
    · exact hs
  · exact hs
  · exact hs

theorem replaceSession (s : State) (p : Port) (hs : P s) :
    P (s.replaceSession p) := by
  unfold State.replaceSession
  split
  · rename_i who hwho
    obtain ⟨m, hm, rfl⟩ := Option.map_eq_some_iff.mp hwho
    exact h.ends s p m _ _ _ hm rfl (by simp) hs
  · exact hs

theorem serveIdentify (p : Port) (body : List Byte) (s : State) (hs : P s) : P (Machine.serveIdentify p body s).1 := by
  unfold Machine.serveIdentify
  split
  · exact hs
  · split
    · exact h.link _ _ _ hs
    · exact hs

theorem serveLeave (p : Port) (m : Membership) (body : List Byte) (s : State) (hm : (s.ports.get p).session = some m)
    (hs : P s) : P (Machine.serveLeave (m.on p) body s).1 := by
  unfold Machine.serveLeave
  split
  · refine h.raisePeer _ p (h.ends s p m _ _ _ hm rfl (fun a ha => .inl ?_) hs)
    simp only [List.flatten_cons, List.flatten_nil, List.append_nil, List.mem_singleton] at ha
    exact ⟨_, ha, monitorPoints_plain ..⟩
  · exact hs

theorem firstExpiry (s : State) (p : Port) (hs : P s) : P (s.firstExpiry p) := by
  unfold State.firstExpiry
  split
  · rename_i m hm
    split
    · rename_i hdue
      have hclock : m.deadline = s.clock := eq_of_beq hdue
      exact h.raisePeer _ p (h.writeMonitor _ p (h.port s p _ ⟨m, by rw [hm]; rfl, rfl,
        fun m' hm' => by cases hm'; exact ⟨rfl, by rw [← hclock]; rfl⟩⟩ hs))
    · exact hs
  · exact hs
  · exact hs
  · exact hs

theorem secondExpiry (s : State) (p : Port) (hs : P s) : P (s.secondExpiry p) := by
  unfold State.secondExpiry
  split
  · rename_i m hm
    split
    · refine h.raisePeer _ p (h.ends s p m _ _ _ (by rw [hm]; rfl) rfl (fun a ha => ?_) hs)
      simp only [List.flatten_cons, List.flatten_nil, List.append_nil, List.mem_append, List.mem_singleton] at ha
      rcases ha with rfl | rfl
      · exact .inl ⟨_, rfl, monitorPoints_plain ..⟩
      · exact .inr ⟨_, rfl⟩
    · exact hs
  · exact hs
  · exact hs
  · exact hs

/-! ## The zone table, the image store and ownership -/

theorem serveDefineZone (who : SessionRef) (body : List Byte) (s : State) (hs : P s) :
    P (Machine.serveDefineZone who body s).1 := by
  have hdefine : ∀ z bf bc wf wc rights c e, Definable s z bf bc wf wc →
      P (s.defineZone z (.define who bf bc wf wc rights c e) who.port) := fun z bf bc wf wc rights c e hd =>
    h.raise _ _ _ _ (h.points _ _ (zonePoints_plain ..)
      (h.timers _ _ (fun a => by split <;> exact ⟨rfl, rfl⟩) (h.defines s z who bf bc wf wc rights c e hd hs)))
  unfold Machine.serveDefineZone
  split
  · dsimp only
    split
    · exact hs
    · split
      · exact hs
      · split
        · exact hs
        · rename_i hnumber
          split
          · exact hs
          · rename_i hbits
            split
            · exact hs
            · rename_i hwords
              split
              · exact hs
              · rename_i z hz
                split
                · exact hs
                · rename_i hapart
                  refine hdefine z _ _ _ _ _ _ _ ?_
                  have hzone : 1 ≤ z ∧ z ≤ 31 := by
                    unfold State.freeZone at hz
                    split at hz
                    · exact (mem_zoneNumbers z).mp (List.mem_of_find?_eq_some hz)
                    · split at hz
                      · obtain rfl := Option.some.inj hz
                        simp only [Config.zoneCount] at hnumber
                        omega
                      · exact absurd hz (by simp)
                  exact ⟨hzone.1, hzone.2, by simpa using hbits, by simpa using hwords, hapart⟩
  · exact hs

theorem retireZone (s : State) (z : Nat) (r : ZoneRecord) (hr : s.zone z = some r) (hs : P s) : P (s.retireZone z r) := by
  refine h.actFreely _ _ (fun a ha => ?_)
    (h.unwatch _ z (h.timers _ _ (fun a => by split <;> exact ⟨rfl, rfl⟩) (h.retires s z hs)))
  simp only [List.flatten_cons, List.flatten_nil, List.append_nil, List.mem_append, List.mem_singleton] at ha
  rcases ha with rfl | ha
  · exact .inr (.inr ⟨s, z, r, hs, hr, rfl⟩)
  · exact .inl ⟨_, mem_systemAction _ _ ha, zonePoints_plain ..⟩

theorem serveRetireZone (who : SessionRef) (body : List Byte) (s : State) (hs : P s) :
    P (Machine.serveRetireZone who body s).1 := by
  unfold Machine.serveRetireZone
  split
  · split
    · exact hs
    · rename_i z r hz
      split
      · exact hs
      · exact h.retireZone s z r (State.zone_of_definedZone hz).1 hs
  · exact hs

theorem serveSetZonePolicy (who : SessionRef) (body : List Byte) (s : State) (hs : P s) :
    P (Machine.serveSetZonePolicy who body s).1 := by
  unfold Machine.serveSetZonePolicy
  split
  · split
    · split
      · exact hs
      · rename_i z r hz
        dsimp only
        split
        · exact hs
        · rename_i howned
          split
          · exact hs
          · rename_i hstandby
            split
            · exact hs
            · split
              · exact hs
              · refine h.zone s z r _ (State.zone_of_definedZone hz).1 ⟨⟨⟨rfl, rfl, rfl, rfl⟩, fun _ => ?_⟩, fun _ => id⟩ hs
                have hstatus : r.status = .owned who := (r.ownedBy_iff who).1 (by simpa using howned)
                simp only [ZoneRecord.standbyOff, hstatus]
                simp only [Option.any_eq_true, not_exists, not_and, Bool.not_eq_true, Bool.or_eq_false_iff] at hstandby
                exact bne_iff_ne.2 fun heq => by simpa using (hstandby _ heq).2
    · exact hs
  · exact hs

theorem serveLoadSafeImage (who : SessionRef) (body : List Byte) (s : State) (hs : P s) :
    P (Machine.serveLoadSafeImage who body s).1 := by
  unfold Machine.serveLoadSafeImage
  split
  · split
    · exact hs
    · rename_i z r hz
      split
      · exact hs
      · split
        · exact hs
        · split
          · exact hs
          · exact h.zone s z r _ (State.zone_of_definedZone hz).1 ⟨⟨⟨rfl, rfl, rfl, rfl⟩, id⟩, fun _ => id⟩ hs
  · exact hs

theorem servePublish (who : SessionRef) (body : List Byte) (s : State) (hs : P s) :
    P (Machine.servePublish who body s).1 := by
  unfold Machine.servePublish
  split
  · exact hs
  · split
    · exact hs
    · split
      · exact hs
      · split
        · exact hs
        · rename_i items _ _ _ _ howned
          have hheld : ∀ item ∈ items, ∀ g ∈ s.holders item, ∃ z, g = .zone z := by
            intro item hitem g hg
            simp only [firstItem, Option.map_eq_none_iff, List.findIdx?_eq_none_iff] at howned
            have hg' := List.any_eq_false.1 (howned item hitem) g hg
            cases g with
            | nothing => exact absurd rfl hg'
            | system => exact absurd rfl hg'
            | zone z => exact ⟨z, rfl⟩
          refine h.writes s _ _ (fun b hb => ?_) (fun x hx => ?_) hs
          · obtain ⟨item, hitem, hb⟩ := List.mem_flatMap.1 hb
            exact hheld item hitem _ (List.mem_append_left _ (List.mem_map_of_mem hb))
          · obtain ⟨item, hitem, hx⟩ := List.mem_flatMap.1 hx
            exact hheld item hitem _ (List.mem_append_right _ (List.mem_map_of_mem hx))

theorem changeZone (s : State) (z : Nat) (r r' : ZoneRecord) (hr : s.zone z = some r) (hr' : r'.changes r) (hs : P s) :
    P (s.changeZone z r') := h.points _ _ (zonePoints_plain ..) (h.ownership _ _ (h.zone s z r r' hr hr' hs))

theorem giveZone (s : State) (z : Nat) (r : ZoneRecord) (owner : SessionRef) (hr : s.zone z = some r) (hs : P s) :
    P (s.giveZone z r owner) := h.raise _ _ _ _ (h.changeZone s z r _ hr ⟨r.succeeds_passTo owner, fun _ hd => nomatch hd⟩ hs)

theorem serveClaim (who : SessionRef) (body : List Byte) (s : State) (hs : P s) : P (Machine.serveClaim who body s).1 := by
  have hdecide : ∀ z r, s.zone z = some r → P (s.decideClaim who z r).1 := by
    intro z r hr
    have hgiven := h.giveZone s z r who hr hs
    unfold State.decideClaim
    split
    · exact hgiven
    · exact hgiven
    · split
      · exact hgiven
      · exact hs
    · split <;> exact hs
  unfold Machine.serveClaim
  split
  · split
    · exact hs
    · rename_i z r hz
      split
      · exact hdecide z r (State.zone_of_definedZone hz).1
      · exact hs
  · exact hs

theorem serveRelease (who : SessionRef) (body : List Byte) (s : State) (hs : P s) :
    P (Machine.serveRelease who body s).1 := by
  unfold Machine.serveRelease
  split
  · split
    · exact hs
    · rename_i z r hz
      split
      · exact h.raiseFor _ _ _ _ (h.changeZone s z r _ (State.zone_of_definedZone hz).1
          ⟨ZoneRecord.succeeds_of_status ⟨rfl, rfl, rfl, rfl⟩ (by simp), fun _ hd => nomatch hd⟩ hs)
      · exact hs
  · exact hs

theorem serveHandOver (who : SessionRef) (body : List Byte) (s : State) (hs : P s) :
    P (Machine.serveHandOver who body s).1 := by
  have hdecide : ∀ z r target, s.zone z = some r → P (s.decideHandOver who z r target).1 := by
    intro z r target hr
    unfold State.decideHandOver
    split
    · exact hs
    · split
      · exact hs
      · split
        · exact hs
        · split
          · split
            · exact h.giveZone s z r _ hr hs
            · exact hs
          · exact hs
  unfold Machine.serveHandOver
  split
  · split
    · exact hs
    · split
      · exact hs
      · rename_i z r hz
        exact hdecide z r _ (State.zone_of_definedZone hz).1
  · exact hs

theorem takeoverExpiry (s : State) (z : Nat) (hs : P s) : P (s.takeoverExpiry z) := by
  unfold State.takeoverExpiry
  split
  · exact hs
  · rename_i r hr
    split
    · split
      · unfold State.takeover
        split
        · exact h.giveZone s z r _ hr hs
        · refine h.actFreely _ _ (fun a ha => ?_) (h.raiseFor _ _ _ _ (h.ownership _ _ (h.zone s z r _ hr
            ⟨ZoneRecord.succeeds_of_status ⟨rfl, rfl, rfl, rfl⟩ (by simp), fun _ hd => nomatch hd⟩ hs)))
          simp only [List.flatten_cons, List.flatten_nil, List.append_nil, List.mem_append, List.mem_singleton] at ha
          rcases ha with ha | rfl
          · exact .inl ⟨_, mem_systemAction _ _ ha, zonePoints_plain ..⟩
          · exact .inr (.inl ⟨_, rfl⟩)
      · exact hs
    · exact hs
    · exact hs
    · exact hs

/-! ## The token arbiter -/

theorem changeToken (s : State) (n : Nat) (k : Token) (hk : s.tokensLawful → (s.setToken n k).tokensLawful)
    (htime : k.timesHold (s.token n) s.clock) (hs : P s) : P (s.changeToken n k) :=
  h.points _ _ (tokenPoints_plain ..) (h.token s n k ⟨hk, htime⟩ hs)

theorem serveAcquire (who : SessionRef) (body : List Byte) (s : State) (hwho : s.session who.port = some who) (hs : P s) :
    P (Machine.serveAcquire who body s).1 := by
  have hdecide : ∀ n wait, P (s.decideAcquire who n wait).1 := by
    intro n wait
    unfold State.decideAcquire
    dsimp only
    split
    · rename_i hfree
      exact h.changeToken s _ _ (fun hlaws => hlaws.setToken _ _ fun hn => hlaws.follows_grant hn hwho hfree _)
        (Token.timesHold_grant _ _ _ _) hs
    · rename_i hheld
      split
      · exact hs
      · rename_i hother
        split
        · exact hs
        · split
          · exact hs
          · rename_i hquiet
            split
            · exact hs
            · rename_i hopen
              exact h.token s _ _ ⟨fun hlaws => hlaws.queue hwho hheld hother hquiet hopen, Token.timesHold_of_hold rfl⟩ hs
  unfold Machine.serveAcquire
  split
  · split
    · exact hs
    · split
      · exact hs
      · exact hdecide _ _
  · exact hs

theorem serveReleaseToken (who : SessionRef) (body : List Byte) (s : State) (hs : P s) :
    P (Machine.serveReleaseToken who body s).1 := by
  unfold Machine.serveReleaseToken
  split
  · split
    · exact hs
    · split
      · exact h.raiseGrant _ _ _ _ (h.changeToken s _ _ (·.handOn _ _) (Token.timesHold_handOn _ _ _ _) hs)
      · exact hs
  · exact hs

theorem serveCancelWait (who : SessionRef) (body : List Byte) (s : State) (hs : P s) :
    P (Machine.serveCancelWait who body s).1 := by
  unfold Machine.serveCancelWait
  split
  · split
    · exact hs
    · exact h.token s _ _ ⟨fun hlaws => hlaws.setToken _ _ fun hn => hlaws.follows_dropWaiter hn who,
        Token.timesHold_of_hold rfl⟩ hs
  · exact hs

theorem serveSetTokenLimit (who : SessionRef) (body : List Byte) (s : State) (hs : P s) :
    P (Machine.serveSetTokenLimit who body s).1 := by
  unfold Machine.serveSetTokenLimit
  split
  · split
    · exact hs
    · exact h.token s _ _ ⟨fun hlaws => hlaws.setToken _ _ fun hn => hlaws.follows_limit hn _,
        Token.timesHold_of_hold rfl⟩ hs
  · exact hs

theorem holdExpiry (s : State) (n : Nat) (hs : P s) : P (s.holdExpiry n) := by
  unfold State.holdExpiry
  split
  · exact hs
  · split
    · exact hs
    · split
      · refine h.actFreely _ _ (fun a ha => ?_) (h.raiseGrant _ _ _ _ (h.raise _ _ _ _ (h.token s _ _
          ⟨(·.handOn _ _), Token.timesHold_handOn _ _ _ _⟩ hs)))
        simp only [List.flatten_cons, List.flatten_nil, List.append_nil, List.mem_append, List.mem_singleton] at ha
        rcases ha with ha | rfl
        · exact .inl ⟨_, mem_systemAction _ _ ha, tokenPoints_plain ..⟩
        · exact .inr (.inl ⟨_, rfl⟩)
      · exact hs

/-! ## The timer array -/

theorem serveSetTimer (who : SessionRef) (body : List Byte) (s : State) (hs : P s) :
    P (Machine.serveSetTimer who body s).1 := by
  have hdecide : ∀ n kind base preset source resetBit,
      P (s.decideSetTimer who n kind base preset source resetBit).1 := by
    intro n kind base preset source resetBit
    unfold State.decideSetTimer
    split
    · exact hs
    · split
      · exact hs
      · split
        · exact hs
        · split
          · exact hs
          · split
            · exact hs
            · split
              · exact hs
              · split
                · exact hs
                · split
                  · exact hs
                  · exact h.timer s _ _ hs
  unfold Machine.serveSetTimer
  split
  · split
    · exact hdecide ..
    · exact hs
  · exact hs

theorem serveResetTimer (who : SessionRef) (body : List Byte) (s : State) (hs : P s) :
    P (Machine.serveResetTimer who body s).1 := by
  unfold Machine.serveResetTimer
  split
  · split
    · exact hs
    · split
      · exact hs
      · split
        · exact hs
        · exact h.timer s _ _ hs
  · exact hs

theorem serveFreeTimer (who : SessionRef) (body : List Byte) (s : State) (hs : P s) :
    P (Machine.serveFreeTimer who body s).1 := by
  unfold Machine.serveFreeTimer
  split
  · split
    · exact hs
    · split
      · exact hs
      · split
        · exact hs
        · exact h.timer s _ _ hs
  · exact hs

/-! ## The message exchange -/

theorem serveSend (who : SessionRef) (body : List Byte) (s : State) (hwho : s.session who.port = some who) (hs : P s) :
    P (Machine.serveSend who body s).1 := by
  unfold Machine.serveSend
  split
  · split
    · unfold State.decideSend
      split
      · exact hs
      · split
        · exact hs
        · rename_i hsome
          split
          · exact hs
          · rename_i hroom
            split
            · exact hs
            · rename_i hfree
              exact h.exchange s _ ((((ExchangeStep.takeBuffer s _ _).trans (.setBuffer ..)).trans (.appends ..)).trans
                (.mapMessages _ _ (State.retimes_of _ _ fun _ => .inl rfl))) (fun hlaws => hlaws.post rfl hwho hfree hsome (Nat.lt_of_not_le hroom) _ _) hs
    · exact hs
  · exact hs

theorem receiveEntry (s : State) (p : Port) (e : Entry) (urgent normal : List Entry)
    (htaken : s.exchange.urgent.get p ++ s.exchange.normal.get p = e :: (urgent ++ normal)) (hs : P s) :
    P (s.receiveEntry p e urgent normal).1 := by
  have hstep : ExchangeStep s ((s.setQueues p urgent normal).releaseBuffer e.buffer) :=
    (ExchangeStep.of_exchange rfl id : ExchangeStep s (s.setQueues p urgent normal)).trans (.releaseBuffer ..)
  refine h.exchange s _ ?_ (fun hlaws => ?_) hs
  · split
    · exact hstep.trans (.mapMessages _ _ (State.retimes_of _ _ fun _ => .inr rfl))
    · exact hstep
  · split
    · exact (hlaws.receive htaken).mapMessages _ fun _ => rfl
    · exact hlaws.receive htaken

theorem serveReceive (who : SessionRef) (body : List Byte) (s : State) (hs : P s) :
    P (Machine.serveReceive who body s).1 := by
  unfold Machine.serveReceive
  split
  · split
    · rename_i hurgent
      exact h.receiveEntry s _ _ _ _ (by rw [hurgent, List.cons_append]) hs
    · rename_i hurgent hnormal
      exact h.receiveEntry s _ _ _ _ (by rw [hurgent, hnormal]; rfl) hs
    · exact hs
  · exact hs

theorem serveFlushQueue (who : SessionRef) (body : List Byte) (s : State) (hs : P s) :
    P (Machine.serveFlushQueue who body s).1 := by
  have hflush : ∀ p urgent normal, P (s.flush p urgent normal).1 := by
    intro p urgent normal
    refine h.exchange s _ ?_ (fun hlaws => ?_) hs
    · split
      · exact (ExchangeStep.drain ..).trans (.mapMessages _ _ (State.retimes_of _ _ fun _ => .inr rfl))
      · exact .drain ..
    · split
      · exact (hlaws.drain ..).mapMessages _ fun _ => rfl
      · exact hlaws.drain ..
  unfold Machine.serveFlushQueue
  split
  · split
    · exact hs
    · exact hflush ..
  · exact hs

theorem serveSetCoalesce (who : SessionRef) (body : List Byte) (s : State) (hs : P s) :
    P (Machine.serveSetCoalesce who body s).1 := by
  have hset : ∀ p threshold time, P (s.recoalesce p threshold time) := by
    intro p threshold time
    have hmapped := h.settings s p (fun m => { m with threshold := threshold, time := time, deadline := none })
      ⟨fun _ => rfl, s.retimes_of p fun _ => .inr rfl⟩ hs
    unfold State.recoalesce
    dsimp only
    split
    · exact h.raise _ _ _ _ hmapped
    · split
      · rename_i hstart
        have htime : time ≠ 0 := by simpa using (Bool.and_eq_true_iff.1 hstart).2
        refine h.settings _ _ _ ⟨fun _ => rfl, fun e he d hd => .inr ⟨time, htime, ?_⟩⟩ hmapped
        rw [State.mapMessages, PerPort.get_set_same] at he
        obtain ⟨m, -, rfl⟩ := Option.map_eq_some_iff.1 he
        exact (Option.some.inj hd).symm
      · exact hmapped
  unfold Machine.serveSetCoalesce
  split
  · split
    · exact hs
    · exact hset ..
  · exact hs

theorem coalesceExpiry (s : State) (p : Port) (hs : P s) : P (s.coalesceExpiry p) := by
  have hstopped : P (s.stopCoalesce p) := h.settings s p _ ⟨fun _ => rfl, s.retimes_of p fun _ => .inr rfl⟩ hs
  unfold State.coalesceExpiry
  split
  · exact hs
  · split
    · unfold State.coalesceExpires
      split
      · exact hstopped
      · exact h.raise _ _ _ _ hstopped
    · exact hs

/-! ## The attention unit -/

section
variable (p : Port) (m : Membership) (body : List Byte) (s : State) (hm : (s.ports.get p).session = some m) (hs : P s)
include hm hs

theorem serveSetWatch : P (Machine.serveSetWatch (m.on p) body s).1 := by
  have hsome : (s.ports.get p).session.isSome := by rw [hm]; rfl
  unfold Machine.serveSetWatch
  split
  · split
    · exact hs
    · split
      · exact hs
      · split
        · exact hs
        · split
          · exact hs
          · split
            · exact hs
            · exact h.attend s p _ hsome id (AttentionRecord.slots_fill _ _) hs
  · exact hs

theorem serveClearWatch : P (Machine.serveClearWatch (m.on p) body s).1 := by
  have hsome : (s.ports.get p).session.isSome := by rw [hm]; rfl
  unfold Machine.serveClearWatch
  split
  · split
    · exact hs
    · split
      · exact hs
      · exact h.attend s p _ hsome id (AttentionRecord.slots_fill _ _) hs
  · exact hs

theorem serveReadAttention : P (Machine.serveReadAttention (m.on p) body s).1 := by
  have hsome : (s.ports.get p).session.isSome := by rw [hm]; rfl
  have hcleared : ∀ (u : State) c, u.ports = s.ports → u.attention = s.attention → P u →
      P (u.setRecord p ((s.record p).cleared c)) := by
    intro u c hports hattention hu
    have hrecord : u.record p = s.record p := by rw [State.record, hattention]; rfl
    refine h.attend u p _ (by rw [hports]; exact hsome) (fun _ => AttentionRecord.levelled_cleared ..) (fun hwf => ?_) hu
    rw [hrecord] at hwf
    exact Memory.wf_mapValues none hwf _ (by intro v hv; cases v <;> simp_all)
  unfold Machine.serveReadAttention
  split
  · dsimp only
    unfold State.readAttention
    split
    · unfold State.afterMessageRead
      split
      · exact hcleared s _ rfl rfl hs
      · rename_i hrestart
        obtain ⟨e, he, htime⟩ := State.messageRead_restart hrestart
        exact hcleared _ _ rfl rfl (h.settings s _ _ ⟨fun _ => rfl, State.retimes_start he htime⟩ hs)
      · exact hcleared _ _ rfl rfl (h.settings s _ _ ⟨fun _ => rfl, s.retimes_of p fun _ => .inr rfl⟩ hs)
    · exact hcleared s _ rfl rfl hs
  · exact hs

theorem serveSetAttentionMask : P (Machine.serveSetAttentionMask (m.on p) body s).1 := by
  have hsome : (s.ports.get p).session.isSome := by rw [hm]; rfl
  unfold Machine.serveSetAttentionMask
  split
  · split
    · exact hs
    · exact h.attend s p _ hsome (fun _ => AttentionRecord.levelled_relevel _) id hs
  · exact hs

end

/-! ## The fault list -/

theorem serveRaiseFault (who : SessionRef) (body : List Byte) (s : State) (hs : P s) :
    P (Machine.serveRaiseFault who body s).1 := by
  have hraised := fun n => h.raiseFault s n (.port who.port) who.number hs
  unfold Machine.serveRaiseFault
  split
  · dsimp only
    split
    · exact hs
    · unfold State.decideRaise
      dsimp only
      split
      · exact hraised _
      · exact hraised _
      · exact hraised _
  · exact hs

theorem serveClearFault (who : SessionRef) (body : List Byte) (s : State) (hs : P s) :
    P (Machine.serveClearFault who body s).1 := by
  unfold Machine.serveClearFault
  split
  · dsimp only
    split
    · exact hs
    · split
      · exact hs
      · split
        · exact hs
        · split
          · exact hs
          · exact h.raiseFor _ _ _ _ (h.faults s _ _ (fun hlist => hlist.filter _) hs)
  · exact hs

theorem serveAckFault (who : SessionRef) (body : List Byte) (s : State) (hs : P s) :
    P (Machine.serveAckFault who body s).1 := by
  unfold Machine.serveAckFault
  split
  · dsimp only
    split
    · exact hs
    · split
      · exact hs
      · exact h.faults s _ _ (fun hlist => hlist.map _ fun e => by split <;> exact ⟨rfl, rfl⟩) hs
  · exact hs

/-! ## Every step -/

theorem serviceOf (k : Kind) (hk : k ≠ .join) (p : Port) (n : Half) (body : List Byte) (s : State) (hs : P s) :
    P (Machine.serviceOf k p n body s).1 := by
  cases k
  case identify => exact h.serveIdentify p body s hs
  case join => exact absurd rfl hk
  all_goals refine fenced_keeps p n _ s (fun m hm _ => ?_) hs
  case leave => exact h.serveLeave p m body s hm hs
  case ping => rw [servePing_fst]; exact hs
  case defineZone => exact h.serveDefineZone _ body s hs
  case retireZone => exact h.serveRetireZone _ body s hs
  case setZonePolicy => exact h.serveSetZonePolicy _ body s hs
  case loadSafeImage => exact h.serveLoadSafeImage _ body s hs
  case queryZone => rw [serveQueryZone_fst]; exact hs
  case publish => exact h.servePublish _ body s hs
  case snapshot => rw [serveSnapshot_fst]; exact hs
  case readPoints => rw [serveReadPoints_fst]; exact hs
  case claim => exact h.serveClaim _ body s hs
  case release => exact h.serveRelease _ body s hs
  case handOver => exact h.serveHandOver _ body s hs
  case acquire => exact h.serveAcquire _ body s (State.session_of_ports hm) hs
  case releaseToken => exact h.serveReleaseToken _ body s hs
  case cancelWait => exact h.serveCancelWait _ body s hs
  case setTokenLimit => exact h.serveSetTokenLimit _ body s hs
  case queryTokens => rw [serveQueryTokens_fst]; exact hs
  case setTimer => exact h.serveSetTimer _ body s hs
  case resetTimer => exact h.serveResetTimer _ body s hs
  case freeTimer => exact h.serveFreeTimer _ body s hs
  case queryTimer => rw [serveQueryTimer_fst]; exact hs
  case send => exact h.serveSend _ body s (State.session_of_ports hm) hs
  case receive => exact h.serveReceive _ body s hs
  case flushQueue => exact h.serveFlushQueue _ body s hs
  case setCoalesce => exact h.serveSetCoalesce _ body s hs
  case setWatch => exact h.serveSetWatch p m body s hm hs
  case clearWatch => exact h.serveClearWatch p m body s hm hs
  case readAttention => exact h.serveReadAttention p m body s hm hs
  case setAttentionMask => exact h.serveSetAttentionMask p m body s hm hs
  case raiseFault => exact h.serveRaiseFault _ body s hs
  case clearFault => exact h.serveClearFault _ body s hs
  case ackFault => exact h.serveAckFault _ body s hs
  case readFaults => rw [serveReadFaults_fst]; exact hs

theorem takeDue (s : State) (d : Due) (hs : P s) : P (s.takeDue d) := by
  cases d
  case first p => exact h.firstExpiry s p hs
  case second p => exact h.secondExpiry s p hs
  case takeover z => exact h.takeoverExpiry s z hs
  case hold n => exact h.holdExpiry s n hs
  case coalesce p => exact h.coalesceExpiry s p hs
  case tick => exact h.tick s hs

/-- R17: the advance. -/
theorem takeAllDue (s : State) (hs : P s) : P s.takeAllDue :=
  State.takeAllDue_keeps P s (fun n => h.draws s n hs) fun u d _ hu => h.takeDue u d hu

/-- What is kept up to the beginning of a session, and `Kept` from then on, makes every step. -/
theorem stepsFrom {Q : State → Prop} (hadvance : ∀ s, P s → P { s.takeAllDue with clock := s.clock + 1, tickDue := true })
    (hweaken : ∀ s, Q s → P s) (hlink : ∀ s p l, Q s → Q (s.setLink p l))
    (hmonitor : ∀ s p n, Q s → Q (s.qualify p n))
    (hjoin : ∀ s p n body, Q s → P (Machine.serviceOf .join p n body s).1) : StepKeeps Q P where
  weaken := hweaken
  linkBefore := hlink
  monitor := hmonitor
  service s k p n body hs := by
    by_cases hk : k = .join
    · rw [hk]
      exact hjoin s p n body hs
    · exact h.serviceOf k hk p n body s (hweaken s hs)
  link := h.link
  due := h.takeDue
  advance := hadvance
  phase := h.phase
  warm := h.warm
  power := h.power
  freeWord := h.freeWord

/-- R28: a law that the beginning of a session keeps. -/
theorem beginSession (hbegins : ∀ s p number m, (s.ports.get p).session = none ∧ m.startsAt s.clock → P s →
      P { s with
        sessionCounter := number, ports := s.ports.set p (.online m), attention := s.attention.set p (some .start),
        exchange := { s.exchange with sessions := s.exchange.sessions.set p (some .start) } })
    (s : State) (p : Port) {time : Byte} (hp : (s.ports.get p).session = none) (htime : time ≠ 0) (hs : P s) :
    P (s.beginSession p time) := h.raisePeer _ p (h.writeMonitor _ p (hbegins s p _ _ ⟨hp, htime, rfl⟩ hs))

end Kept

namespace KeptByJoin
variable {P : State → Prop} (h : KeptByJoin P)
include h

theorem serveJoin (p : Port) (n : Half) (body : List Byte) (s : State) (hs : P s) :
    P (Machine.serviceOf .join p n body s).1 := by
  unfold Machine.serviceOf Machine.serveJoin
  dsimp only
  split
  · split
    · rename_i htime
      exact h.toKept.beginSession h.begins _ p (State.session_replaceSession s p) htime.2 (h.replaceSession s p hs)
    · exact hs
  · exact hs

/-- A law that meets `KeptByJoin` is kept by every step. -/
theorem steps : StepKeeps P P :=
  h.stepsFrom (fun s hs => h.clock _ _ (h.takeAllDue s hs)) (fun _ hs => hs) h.link h.qualify fun s p n body hs => h.serveJoin p n body s hs

end KeptByJoin
end Sys2Proof.Machine
end

section
/-! Laws that take no notice of what a write event stores, and the end of a session as records followed by write events (R34). -/

namespace Sys2Proof.Machine

/-! ## Write events -/

/-- What a law that asks nothing of the points written is kept by: the parts of a write event. -/
structure KeptByWrites (P : State → Prop) : Prop where
  store : ∀ s w, P s → P (s.store w)
  systemZone : ∀ s z, P s → P { s with systemZone := z }
  count : ∀ s z, P s → P (s.countZone z)
  fire : ∀ s n, P s → P (s.fireChange n)
  run : ∀ s f, P s → P (s.mapTimers f)

namespace KeptByWrites
variable {P : State → Prop} (h : KeptByWrites P)
include h

theorem storeSystem (s : State) (w : Points) (hs : P s) : P (s.storeSystem w).1 := by
  rw [State.storeSystem_fst]
  exact h.systemZone _ _ (h.store s w hs)

theorem storeCounted (s : State) (zs : List Nat) (w : Points) (hs : P s) : P (s.storeCounted zs w).1 :=
  List.foldlRecOn zs State.countZone (h.store s w hs) fun t ht z _ => h.count t z ht

theorem deliver (k : Nat) (s : State) (n : Notice) (hs : P s) : P (s.deliver k n) :=
  State.deliver_keeps P h.fire (fun t _ ht => h.storeSystem _ _ (h.run t _ ht)) k s n hs

theorem writeSystem (s : State) (w : Points) (hs : P s) : P (s.writeSystem w) :=
  h.deliver _ _ _ (h.storeSystem s w hs)

theorem writeZones (s : State) (zs : List Nat) (w : Points) (hs : P s) : P (s.writeZones zs w) :=
  h.deliver _ _ _ (h.storeCounted s zs w hs)

theorem writeClearing (s : State) (w : Points) (hs : P s) : P (s.writeClearing w) := h.deliver _ _ _ (h.store s w hs)

theorem writePolicy (s : State) (z : Nat) (hs : P s) : P (s.writePolicy z) := by
  unfold State.writePolicy
  split
  · exact h.writeZones s _ _ hs
  · exact hs

theorem tickEvent (htick : ∀ s b, P s → P { s with tickDue := b }) (s : State) (hs : P s) : P s.tickEvent := by
  unfold State.tickEvent
  split
  · exact h.writeSystem _ _ (h.run _ _ (htick s false hs))
  · exact hs

/-- R135: the timer array's part of a warm reset. -/
theorem timersWarmReset (s : State) (hs : P s) : P s.timersWarmReset := h.writeSystem _ _ (h.run s _ hs)

/-- R98: the zone table's part of a warm reset. -/
theorem zonesWarmReset (hzone : ∀ s z, P s → P (s.setZone z ((s.zone z).map ZoneRecord.warmReset))) (zs : List Nat)
    (s : State) (hs : P s) : P (zs.foldl State.zoneWarmReset s) := by
  refine List.foldlRecOn zs State.zoneWarmReset hs fun t ht z _ => ?_
  unfold State.zoneWarmReset
  split
  · exact ht
  · dsimp only
    split
    · exact hzone _ z (h.storeCounted t _ _ ht)
    · exact hzone _ z ht

/-- R19: a warm reset: the records, then each block's points. -/
theorem warmReset (hzone : ∀ s z, P s → P (s.setZone z ((s.zone z).map ZoneRecord.warmReset)))
    (htoken : ∀ s n k, P s → P (s.setToken n k)) (hfault : ∀ s, P s → P s.resetFault) (s : State)
    (hs : P s.resetClock.endAllSessions) : P s.warmReset := by
  have htokens : ∀ u : State, P u → P u.tokensWarmReset := fun u hu =>
    List.foldlRecOn _ _ hu fun t ht n _ => htoken t n _ ht
  exact h.timersWarmReset _ (h.storeSystem _ _ (hfault _ (h.storeSystem _ _ (h.storeSystem _ _ (htokens _
    (h.storeSystem _ _ (h.storeSystem _ _ (h.zonesWarmReset hzone _ _ hs))))))))

end KeptByWrites

/-! ## The end of a session (R34) -/

/-- R34: the records of the blocks after the end of a session, before the write events. -/
def State.endRecords (s : State) (ended : SessionRef) (cause : EndCause) : State :=
  (((s.dropAttention ended.port).mapTimers (Armed.detach ended)).tokensAtEnd ended cause.isLoss).messagesAtEnd ended.port

/-- R88 to R92: the zone table's sequence at a session end. -/
def State.zoneEvents (s : State) (ended : SessionRef) (cause : EndCause) : List Action × Nat :=
  let s1 := (s.dropAttention ended.port).mapTimers (Armed.detach ended)
  s1.zoneActions (s1.zoneMoves ended cause) (s.endRecords ended cause).freeDraws

theorem State.endSession_eq (s : State) (ended : SessionRef) (cause : EndCause) (monitor : List (List Action)) :
    s.endSession ended cause monitor =
      { s.endRecords ended cause with freeDraws := (s.zoneEvents ended cause).2 }.actFreely
        (monitor ++ [(s.zoneEvents ended cause).1,
          systemAction (tokenPoints ((s.dropAttention ended.port).mapTimers (Armed.detach ended))
            (((s.dropAttention ended.port).mapTimers (Armed.detach ended)).tokensAtEnd ended cause.isLoss)),
          systemAction (exchangePoints (((s.dropAttention ended.port).mapTimers (Armed.detach ended)).tokensAtEnd ended cause.isLoss)
            (s.endRecords ended cause))]) := rfl

/-- R34: the write events and moves after the records leave the exchange and the tokens. -/
theorem State.endSession_exchange (s : State) (ended : SessionRef) (cause : EndCause) (monitor : List (List Action)) :
    (s.endSession ended cause monitor).exchange = (s.endRecords ended cause).exchange := by
  rw [State.endSession_eq, State.actFreely_exchange]

theorem State.endSession_buffer (s : State) (ended : SessionRef) (cause : EndCause) (monitor : List (List Action)) (b : Nat) :
    (s.endSession ended cause monitor).buffer b = (s.endRecords ended cause).buffer b :=
  congrArg (fun e : Exchange => Memory.read none e.buffers b) (s.endSession_exchange ended cause monitor)

theorem State.endSession_tokens (s : State) (ended : SessionRef) (cause : EndCause) (monitor : List (List Action)) :
    (s.endSession ended cause monitor).tokens = (s.endRecords ended cause).tokens := by
  rw [State.endSession_eq, State.actFreely_tokens]

/-- R113: what the token arbiter does to each token, it does to all. -/
theorem State.tokensAtEnd_keeps {P : State → Prop} (htoken : ∀ s n k, P s → P (s.setToken n k))
    (hraise : ∀ s c d p, P s → P (s.raise c d p)) (s : State) (ended : SessionRef) (broken : Bool) (hs : P s) :
    P (s.tokensAtEnd ended broken) := by
  refine List.foldlRecOn _ _ hs fun t ht n _ => ?_
  dsimp only
  split
  · unfold State.raiseGrant
    split
    · exact hraise _ _ _ _ (htoken t n _ ht)
    · exact htoken t n _ ht
  · exact htoken t n _ ht

/-- R45, R89 to R91: no move makes a zone's new owner's port its standby. -/
theorem State.standbyOff_of_zoneAtEnd {s : State} {ended : SessionRef} {cause : EndCause} {z : Nat} {m : ZoneMove}
    (hm : s.zoneAtEnd ended cause z = some m) : m.standbyOff := by
  have hpass : ∀ (r : ZoneRecord) (owner : SessionRef), (r.passTo owner).standby ≠ some owner.port := by
    intro r owner
    simp only [ZoneRecord.passTo]
    split <;> simp_all
  unfold State.zoneAtEnd at hm
  split at hm
  · cases hm
  · split at hm
    · split at hm
      · cases hm
        intro owner howner
        unfold State.ownedAtEnd at howner ⊢
        split at howner
        · split at howner
          · simp only [ZoneRecord.passTo, ZoneStatus.owned.injEq] at howner
            subst howner
            simp only [*, if_true]
            exact hpass _ _
          · cases howner
        · split at howner <;> cases howner
      · cases hm
    · split at hm
      · cases hm
        exact fun _ howner => nomatch howner
      · cases hm
    · cases hm
    · cases hm

/-- The write events, moves and raises of the blocks but the exchange that follow the records of a session end. -/
inductive Action.FollowsEnd (monitor : List (List Action)) : Action → Prop where
  | monitor {a : Action} (ha : a ∈ monitor.flatten) : FollowsEnd monitor a
  | points {w : Points} (hw : w.plain) : FollowsEnd monitor (.system w)
  | policy (z : Nat) : FollowsEnd monitor (.policy z)
  | raise (n : Nat) : FollowsEnd monitor (.raise n)
  | move {ms : List ZoneMove} (hms : ∀ m ∈ ms, m.standbyOff) : FollowsEnd monitor (.move ms)

theorem State.followsEnd_zoneActions (monitor : List (List Action)) (s : State) (ended : SessionRef) (cause : EndCause) (n : Nat)
    {a : Action} (ha : a ∈ (s.zoneActions (s.zoneMoves ended cause) n).1) : a.FollowsEnd monitor := by
  rw [State.mem_zoneActions] at ha
  rcases ha with ⟨m, -, -, rfl⟩ | ha | ha | ⟨m, -, -, rfl⟩
  · exact .policy _
  · rw [mem_moveAction _ _ ha]
    refine .move fun m hm => ?_
    obtain ⟨z, -, hz⟩ := List.mem_filterMap.1 hm
    exact State.standbyOff_of_zoneAtEnd hz
  · rw [mem_systemAction _ _ ha]
    exact .points (zonePoints_plain ..)
  · exact .raise _

/-- The actions of a session end: those of the other blocks, and the exchange's write. -/
theorem State.followsEnd_of_mem (monitor : List (List Action)) (s1 s2 s3 : State) (ended : SessionRef) (cause : EndCause) (n : Nat)
    {a : Action}
    (ha : a ∈ (monitor ++ [(s1.zoneActions (s1.zoneMoves ended cause) n).1, systemAction (tokenPoints s1 s2),
      systemAction (exchangePoints s2 s3)]).flatten) : a.FollowsEnd monitor ∨ a = .system (exchangePoints s2 s3) := by
  simp only [List.flatten_append, List.flatten_cons, List.flatten_nil, List.append_nil, List.mem_append] at ha
  rcases ha with ha | ha | ha | ha
  · exact .inl (.monitor ha)
  · exact .inl (State.followsEnd_zoneActions monitor _ ended cause _ ha)
  · rw [mem_systemAction _ _ ha]
    exact .inl (.points (tokenPoints_plain ..))
  · exact .inr (mem_systemAction _ _ ha)

/-- R34: what the records of a session end meet and every action that follows keeps holds after the end. -/
theorem State.endSession_keeps {P : State → Prop} (s : State) (ended : SessionRef) (cause : EndCause)
    (monitor : List (List Action)) (hrecords : ∀ n, P { s.endRecords ended cause with freeDraws := n })
    (hact : ∀ a, a.FollowsEnd monitor → ∀ t, P t → P (t.act a)) (hexchange : ∀ t w, w.ofExchange → P t → P (t.writeSystem w)) :
    P (s.endSession ended cause monitor) := by
  refine State.actFreely_keeps P _ _ (fun n => hrecords n) fun a ha t ht => ?_
  rcases State.followsEnd_of_mem monitor _ _ _ ended cause _ ha with ha | rfl
  · exact hact a ha t ht
  · exact hexchange t _ (exchangePoints_ofExchange ..) ht

/-- What the actions after the records of a session end ask of a law. -/
structure KeptByActions (P : State → Prop) : Prop where
  points : ∀ s w, w.plain → P s → P (s.writeSystem w)
  policy : ∀ s z, P s → P (s.writePolicy z)
  faults : ∀ s fs o, (lawfulFaultList s.faults → lawfulFaultList fs) → P s →
    P (s.writeFaults { s with faults := fs, overflow := o })
  raise : ∀ s c d p, P s → P (s.raise c d p)
  ownership : ∀ s zs, P s → P (s.fireOwnership zs)
  put : ∀ (s : State) (m : ZoneMove), m.standbyOff → P s → P (s.setZone m.zone ((s.zone m.zone).map m.apply))

namespace KeptByActions
variable {P : State → Prop} (h : KeptByActions P)
include h

theorem raiseFor (c : Cause) (d : Detail) (ps : List Port) (s : State) (hs : P s) : P (s.raiseFor c d ps) :=
  List.foldlRecOn ps _ hs fun t ht p _ => h.raise t c d p ht

theorem takeMoves (s : State) (ms : List ZoneMove) (hms : ∀ m ∈ ms, m.standbyOff) (hs : P s) : P (s.takeMoves ms) := by
  have hput : P (s.putMoves ms) := List.foldlRecOn ms _ hs fun t ht m hm => h.put t m (hms m hm) ht
  exact h.ownership _ _ (List.foldlRecOn ms _ hput fun t ht m _ => h.raiseFor _ _ _ t ht)

theorem raiseFault (s : State) (n : Half) (o : Origin) (r : Half) (hs : P s) : P (s.raiseFault n o r) := by
  have hwritten : P (s.writeFaults (s.enterFault n o r)) := by
    have hlawful := s.lawfulFaultList_enterFault n o r
    rw [State.enterFault_frame] at hlawful ⊢
    exact h.faults s _ _ hlawful hs
  unfold State.raiseFault
  dsimp only
  split
  · exact hwritten
  · exact h.raiseFor _ _ _ _ hwritten
  · exact h.raiseFor _ _ _ _ hwritten

theorem act {monitor : List (List Action)}
    (hmonitor : ∀ a ∈ List.flatten monitor, (∃ w, a = Action.system w ∧ w.plain) ∨ ∃ n, a = Action.raise n)
    (a : Action) (ha : a.FollowsEnd monitor) (s : State) (hs : P s) : P (s.act a) := by
  cases ha with
  | monitor ha =>
    rcases hmonitor a ha with ⟨w, rfl, hw⟩ | ⟨n, rfl⟩
    · exact h.points s w hw hs
    · exact h.raiseFault s _ _ _ hs
  | points hw => exact h.points s _ hw hs
  | policy z => exact h.policy s z hs
  | raise n => exact h.raiseFault s _ _ _ hs
  | move hms => exact h.takeMoves s _ hms hs

/-- R34: a law that the records of a session end meet. -/
theorem endSession {monitor : List (List Action)}
    (hmonitor : ∀ a ∈ List.flatten monitor, (∃ w, a = Action.system w ∧ w.plain) ∨ ∃ n, a = Action.raise n)
    (hexchange : ∀ t w, w.ofExchange → P t → P (t.writeSystem w)) (s : State) (ended : SessionRef) (cause : EndCause)
    (hrecords : ∀ n, P { s.endRecords ended cause with freeDraws := n }) : P (s.endSession ended cause monitor) :=
  State.endSession_keeps s ended cause monitor hrecords (h.act hmonitor) hexchange

end KeptByActions
end Sys2Proof.Machine
end

section
/-! Laws that take no notice of the points written: records for the sessions with level ATN (R139, R157, R160), tables in canonical
form (entry 14), and the zones' ranges and standbys (R41, R45, R48). -/

namespace Sys2Proof.Machine

/-! ## A record and an exchange state for each session, level with its causes (R139, R157, R160) -/

/-- Attention records for the same sessions, level where they were. -/
def State.levelsFrom (s t : State) : Prop :=
  ∀ p, (t.attention.get p).isSome = (s.attention.get p).isSome ∧
    ∀ r', t.attention.get p = some r' → ∃ r, s.attention.get p = some r ∧ (r.levelled → r'.levelled)

theorem State.toldMore.levelsFrom {s t : State} (h : s.toldMore t) : s.levelsFrom t := by
  refine fun p => ⟨(h p).1, fun r' hr' => ?_⟩
  obtain ⟨r, hr, -, hlevel⟩ := (h p).2 r' hr'
  exact ⟨r, hr, hlevel⟩

theorem State.levelsFrom_mapAttention (s : State) (f : AttentionRecord → AttentionRecord)
    (hf : ∀ r, r.levelled → (f r).levelled) : s.levelsFrom (s.mapAttention f) := by
  intro p
  rw [State.attention_mapAttention]
  refine ⟨by simp, fun r' hr' => ?_⟩
  obtain ⟨r, hr, rfl⟩ := Option.map_eq_some_iff.mp hr'
  exact ⟨r, hr, hf r⟩

theorem State.attentive.of_levels {s t : State} (h : s.attentive)
    (hports : ∀ p, (t.ports.get p).session.isSome = (s.ports.get p).session.isSome)
    (hsessions : ∀ p, (t.exchange.sessions.get p).isSome = (s.exchange.sessions.get p).isSome)
    (hlevels : s.levelsFrom t) : t.attentive := by
  intro p
  obtain ⟨hattention, hexchange, hlevel⟩ := h p
  refine ⟨by rw [(hlevels p).1, hattention, hports], by rw [hsessions, hexchange, hports], fun r' hr' => ?_⟩
  obtain ⟨r, hr, himp⟩ := (hlevels p).2 r' hr'
  exact himp (hlevel r hr)

/-- A change of the attention records alone. -/
theorem State.attentive.of_attention {s t : State} (h : s.attentive) (hports : t.ports = s.ports)
    (hexchange : t.exchange = s.exchange) (hlevels : s.levelsFrom t) : t.attentive :=
  h.of_levels (fun _ => by rw [hports]) (fun _ => by rw [hexchange]) hlevels

theorem attentive_raise (s : State) (c : Cause) (d : Detail) (p : Port) (h : s.attentive) : (s.raise c d p).attentive :=
  h.of_attention (State.raise_ports ..) (State.raise_exchange ..) (s.toldMore_raise c d p).levelsFrom

theorem attentive_ownership (s : State) (zs : List Nat) (h : s.attentive) : (s.fireOwnership zs).attentive :=
  h.of_attention rfl rfl (s.levelsFrom_mapAttention _ fun _ => AttentionRecord.levelled_fireWhere _)

/-- What a write event stores is nothing to the records of the sessions. -/
theorem attentive_writes : KeptByWrites State.attentive where
  store _ _ h := h
  systemZone _ _ h := h
  count s z h := by
    unfold State.countZone
    split <;> exact h
  fire s n h := h.of_attention rfl rfl (s.levelsFrom_mapAttention _ fun _ => AttentionRecord.levelled_fireWhere _)
  run _ _ h := h

theorem attentive_actions : KeptByActions State.attentive where
  points s w _ h := attentive_writes.writeSystem s w h
  policy := attentive_writes.writePolicy
  faults _ _ _ _ h := attentive_writes.writeSystem _ _ h
  raise := attentive_raise
  ownership := attentive_ownership
  put _ _ _ h := h

theorem attentive_exchange {s t : State} (hstep : ExchangeStep s t) (h : s.attentive) : t.attentive := by
  refine h.of_levels (fun p => ?_) hstep.sessions hstep.attention.levelsFrom
  rw [hstep.frame]

/-- R139, R157: a session's records end with it. -/
theorem attentive_endRecords {s : State} {p : Port} {m : Membership} {r : PortRecord} (cause : EndCause)
    (hgone : r.session = none) (h : s.attentive) : ((s.setPort p r).endRecords ⟨p, m.number⟩ cause).attentive := by
  have hbefore : ∀ q, q ≠ p → (((s.setPort p r).dropAttention p).attention.get q = s.attention.get q) := by
    intro q hq
    simp [State.dropAttention, hq]
  have htold : ((s.setPort p r).dropAttention p).toldMore ((s.setPort p r).endRecords ⟨p, m.number⟩ cause) := by
    refine .trans (t := (((s.setPort p r).dropAttention p).mapTimers (Armed.detach ⟨p, m.number⟩)).tokensAtEnd
      ⟨p, m.number⟩ cause.isLoss) ?_ (.trans (ExchangeStep.drain _ p true true).attention (.of_eq rfl))
    exact State.tokensAtEnd_keeps (P := State.toldMore _) (fun u n k hu => hu.trans (.of_eq rfl))
      (fun u c d q hu => hu.trans (u.toldMore_raise c d q)) _ _ _ (.of_eq rfl)
  have hports : ∀ q, ((s.setPort p r).endRecords ⟨p, m.number⟩ cause).ports.get q = if q = p then r else s.ports.get q := by
    intro q
    simp [State.endRecords, State.dropAttention, PerPort.get_set]
  have hsessions : ∀ q, (((s.setPort p r).endRecords ⟨p, m.number⟩ cause).exchange.sessions.get q).isSome =
      if q = p then false else (s.exchange.sessions.get q).isSome := by
    intro q
    simp only [State.endRecords, State.messagesAtEnd, PerPort.get_set]
    split
    · rfl
    · rw [(ExchangeStep.drain _ p true true).sessions q, State.tokensAtEnd_exchange]
      rfl
  intro q
  rw [hports, hsessions, (htold q).1]
  by_cases hq : q = p
  · subst hq
    have hnone : ((s.setPort q r).dropAttention q).attention.get q = none := by simp [State.dropAttention]
    refine ⟨by simp [hgone], by simp [hgone], fun a ha => ?_⟩
    obtain ⟨b, hb, -⟩ := (htold q).2 a ha
    rw [hnone] at hb
    cases hb
  · obtain ⟨hattention, hexchange, hlevel⟩ := h q
    rw [hbefore q hq, if_neg hq, if_neg hq]
    refine ⟨hattention, hexchange, fun a ha => ?_⟩
    obtain ⟨b, hb, -, himp⟩ := (htold q).2 a ha
    rw [hbefore q hq] at hb
    exact himp (hlevel b hb)

theorem attentive_of_fresh {s : State} (hports : s.ports = .fill .offline) (hattention : s.attention = .fill none)
    (hsessions : s.exchange.sessions = .fill none) : s.attentive := by
  intro p
  simp [hports, hattention, hsessions, PortRecord.session]

theorem attentive_kept : KeptByJoin State.attentive where
  draws _ _ h := h
  phase _ _ h := h
  clock _ _ h := h
  link _ _ _ h := h
  port s p r hr h := by
    obtain ⟨m, hm, hm', -⟩ := hr
    refine h.of_levels (fun q => ?_) (fun _ => rfl) fun q => ⟨rfl, fun a ha => ⟨a, ha, id⟩⟩
    rw [State.setPort_ports, PerPort.get_set]
    split
    · subst_vars
      rw [hm, ← Option.isSome_map (f := Membership.number), hm']
      rfl
    · rfl
  begins s p number m hp h := by
    intro q
    obtain ⟨hattention, hexchange, hlevel⟩ := h q
    simp only [PerPort.get_set]
    split
    · exact ⟨rfl, rfl, fun a ha => by cases ha; exact AttentionRecord.levelled_start⟩
    · exact ⟨hattention, hexchange, hlevel⟩
  ends s p m r cause monitor hm hgone hmonitor h :=
    attentive_actions.endSession hmonitor (fun t w _ => attentive_writes.writeSystem t w) _ _ _ fun n => attentive_endRecords cause hgone h
  points s w _ h := attentive_writes.writeSystem s w h
  raise := attentive_raise
  ownership := attentive_ownership
  defines _ _ _ _ _ _ _ _ _ _ _ h := h
  zone _ _ _ _ _ _ h := h
  retires _ _ h := h
  timers _ _ _ h := h
  unwatch s z h := h.of_attention rfl rfl (s.levelsFrom_mapAttention _ fun _ => AttentionRecord.levelled_zoneGone _)
  clearing s u z r _ _ h := attentive_writes.writeClearing s _ h
  writes s zs w _ _ h := attentive_writes.writeZones s zs w h
  token _ _ _ _ h := h
  timer s n t h := attentive_writes.writeSystem _ _ h
  tick := attentive_writes.tickEvent fun _ _ h => h
  exchange s t hstep _ h := attentive_writes.writeSystem _ _ (attentive_exchange hstep h)
  settings s p f hf h := attentive_exchange (.mapMessages s p hf.2) h
  attend s p r hsome hlevel _ h := by
    obtain ⟨hattention, -, hr⟩ := h p
    obtain ⟨a, ha⟩ := Option.isSome_iff_exists.1 (hattention.trans hsome)
    refine h.of_attention rfl rfl fun q => ?_
    simp only [State.setRecord, PerPort.get_set]
    split
    · subst_vars
      refine ⟨by rw [ha]; rfl, fun r' hr' => ⟨a, ha, fun _ => ?_⟩⟩
      obtain rfl := Option.some.inj hr'
      rw [State.record_of_some ha] at hlevel
      exact hlevel (hr a ha)
    · exact ⟨rfl, fun r' hr' => ⟨r', hr', id⟩⟩
  faults _ _ _ _ h := attentive_writes.writeSystem _ _ h
  warm s _ := attentive_writes.warmReset (fun _ _ h => h) (fun _ _ _ h => h)
    (fun s h => by rw [State.resetFault, State.enterFault_frame]; exact h) s (attentive_of_fresh rfl rfl rfl)
  power _ _ _ _ := attentive_of_fresh rfl rfl rfl
  freeWord _ h := attentive_writes.writeSystem _ _ h

/-! ## The sparse tables in canonical form (entry 14) -/

theorem State.canonical_mapAttention {s : State} (h : s.canonical) (f : AttentionRecord → AttentionRecord)
    (hf : ∀ r, Memory.wf none r.slots → Memory.wf none (f r).slots) : (s.mapAttention f).canonical := by
  obtain ⟨hzones, hbits, hwords, htokens, htimers, hbuffers, hslots⟩ := h
  refine ⟨hzones, hbits, hwords, htokens, htimers, hbuffers, fun p r hr => ?_⟩
  rw [State.attention_mapAttention] at hr
  obtain ⟨a, ha, rfl⟩ := Option.map_eq_some_iff.mp hr
  exact hf a (hslots p a ha)

theorem State.canonical.of_told {s t : State} (h : s.canonical) (ht : t = { s with exchange := t.exchange, attention := t.attention })
    (hbuffers : Memory.wf none s.exchange.buffers → Memory.wf none t.exchange.buffers) (htold : s.toldMore t) :
    t.canonical := by
  obtain ⟨hzones, hbits, hwords, htokens, htimers, hbuf, hslots⟩ := h
  rw [ht]
  refine ⟨hzones, hbits, hwords, htokens, htimers, hbuffers hbuf, fun p r hr => ?_⟩
  obtain ⟨a, ha, hsame, -⟩ := (htold p).2 r hr
  rw [hsame]
  exact hslots p a ha

theorem canonical_raise (s : State) (c : Cause) (d : Detail) (p : Port) (h : s.canonical) : (s.raise c d p).canonical :=
  h.of_told (ExchangeStep.raise s c d p).frame (ExchangeStep.raise s c d p).buffers (s.toldMore_raise c d p)

theorem canonical_setZone (s : State) (z : Nat) (r : Option ZoneRecord) (h : s.canonical) : (s.setZone z r).canonical :=
  ⟨Memory.wf_write none h.1 z r, h.2⟩

theorem canonical_setToken (s : State) (n : Nat) (k : Token) (h : s.canonical) : (s.setToken n k).canonical := by
  obtain ⟨hzones, hbits, hwords, htokens, hrest⟩ := h
  exact ⟨hzones, hbits, hwords, Memory.wf_write _ htokens n k, hrest⟩

theorem canonical_setTimer (s : State) (n : Nat) (t : Option Armed) (h : s.canonical) : (s.setTimer n t).canonical := by
  obtain ⟨hzones, hbits, hwords, htokens, htimers, hrest⟩ := h
  exact ⟨hzones, hbits, hwords, htokens, Memory.wf_write _ htimers n t, hrest⟩

theorem canonical_mapTimers (s : State) (f : Armed → Armed) (h : s.canonical) : (s.mapTimers f).canonical := by
  obtain ⟨hzones, hbits, hwords, htokens, htimers, hrest⟩ := h
  exact ⟨hzones, hbits, hwords, htokens,
    Memory.wf_mapValues none htimers _ (by intro v hv; cases v <;> simp_all), hrest⟩

theorem canonical_writes : KeptByWrites State.canonical where
  store s w h := by
    obtain ⟨hzones, hbits, hwords, hrest⟩ := h
    exact ⟨hzones, Memory.wf_writeAll _ _ hbits, Memory.wf_writeAll _ _ hwords, hrest⟩
  systemZone _ _ h := h
  count s z h := by
    unfold State.countZone
    split
    · exact canonical_setZone s z _ h
    · exact h
  fire s n h := s.canonical_mapAttention h _ fun _ => AttentionRecord.slots_fireWhere _
  run := canonical_mapTimers

theorem canonical_ownership (s : State) (zs : List Nat) (h : s.canonical) : (s.fireOwnership zs).canonical :=
  s.canonical_mapAttention h _ fun _ => AttentionRecord.slots_fireWhere _

theorem canonical_actions : KeptByActions State.canonical where
  points s w _ h := canonical_writes.writeSystem s w h
  policy := canonical_writes.writePolicy
  faults _ _ _ _ h := canonical_writes.writeSystem _ _ h
  raise := canonical_raise
  ownership := canonical_ownership
  put s _ _ h := canonical_setZone s _ _ h

theorem canonical_exchange {s t : State} (hstep : ExchangeStep s t) (h : s.canonical) : t.canonical :=
  h.of_told hstep.frame hstep.buffers hstep.attention

theorem canonical_setAttention (s : State) (p : Port) (r : Option AttentionRecord)
    (hr : ∀ a, r = some a → Memory.wf none a.slots) (h : s.canonical) :
    State.canonical { s with attention := s.attention.set p r } := by
  obtain ⟨hzones, hbits, hwords, htokens, htimers, hbuffers, hslots⟩ := h
  refine ⟨hzones, hbits, hwords, htokens, htimers, hbuffers, fun q a ha => ?_⟩
  simp only [PerPort.get_set] at ha
  split at ha
  · exact hr a ha
  · exact hslots q a ha

theorem canonical_endRecords (s : State) (ended : SessionRef) (cause : EndCause) (h : s.canonical) :
    (s.endRecords ended cause).canonical := by
  have hdropped : (s.dropAttention ended.port).canonical := canonical_setAttention s _ none (fun _ ha => nomatch ha) h
  have htokens := State.tokensAtEnd_keeps canonical_setToken canonical_raise _ ended cause.isLoss
    (canonical_mapTimers _ (Armed.detach ended) hdropped)
  have hdrained := canonical_exchange (.drain _ ended.port true true) htokens
  exact hdrained

theorem canonical_powerOn (ph : ResetPhase) (links : PerPort Link) (draws : Nat) (q : List Instr) :
    (State.powerOn ph links draws q).canonical := by
  refine ⟨Memory.wf_nil _, Memory.wf_nil _, Memory.wf_nil _, Memory.wf_nil _, Memory.wf_nil _, Memory.wf_nil _, fun p a ha => ?_⟩
  rw [State.powerOn, PerPort.get_fill] at ha
  cases ha

theorem canonical_kept : KeptByJoin State.canonical where
  draws _ _ h := h
  phase _ _ h := h
  clock _ _ h := h
  link _ _ _ h := h
  port _ _ _ _ h := h
  begins s p number m _ h := canonical_setAttention s p (some .start)
    (fun a ha => by cases ha; exact Memory.wf_nil none) h
  ends s p m r cause monitor _ _ hmonitor h :=
    canonical_actions.endSession hmonitor (fun t w _ => canonical_writes.writeSystem t w) _ _ _ fun n => canonical_endRecords _ _ _ h
  points s w _ h := canonical_writes.writeSystem s w h
  raise := canonical_raise
  ownership := canonical_ownership
  defines s z _ _ _ _ _ _ _ _ _ h := canonical_setZone s z _ h
  zone s z _ _ _ _ h := canonical_setZone s z _ h
  retires s z h := canonical_setZone s z _ h
  timers s f _ h := canonical_mapTimers s f h
  unwatch s z h := s.canonical_mapAttention h _ fun _ => AttentionRecord.slots_zoneGone _
  clearing s u z r _ _ h := canonical_writes.writeClearing s _ h
  writes s zs w _ _ h := canonical_writes.writeZones s zs w h
  token s n k _ h := canonical_setToken s n k h
  timer s n t h := canonical_writes.writeSystem _ _ (canonical_setTimer s n t h)
  tick := canonical_writes.tickEvent fun _ _ h => h
  exchange s t hstep _ h := canonical_writes.writeSystem _ _ (canonical_exchange hstep h)
  settings s p f hf h := canonical_exchange (.mapMessages s p hf.2) h
  attend s p r _ _ hslots h := by
    refine canonical_setAttention s p (some r) (fun a ha => ?_) h
    cases ha
    refine hslots ?_
    unfold State.record
    cases hr : s.attention.get p with
    | none => exact Memory.wf_nil none
    | some a =>
      obtain ⟨-, -, -, -, -, -, hall⟩ := h
      exact hall p a hr
  faults _ _ _ _ h := canonical_writes.writeSystem _ _ h
  warm s h := by
    refine canonical_writes.warmReset (fun u z hu => canonical_setZone u z _ hu) canonical_setToken
      (fun u hu => by rw [State.resetFault, State.enterFault_frame]; exact hu) s ?_
    obtain ⟨hzones, hbits, hwords, htokens, htimers, -⟩ := h
    refine ⟨hzones, hbits, hwords, htokens, htimers, Memory.wf_nil none, fun p a ha => ?_⟩
    rw [show s.resetClock.endAllSessions.attention = .fill none from rfl, PerPort.get_fill] at ha
    cases ha
  power s ph links _ := canonical_powerOn ph links s.freeDraws s.pending
  freeWord _ h := canonical_writes.writeSystem _ _ h

end Sys2Proof.Machine
end

section
/-! The laws of the zone table (R41, R45, R48) at every step, and what they say of the points that a write into a zone names. -/

namespace Sys2Proof.Machine

/-! ## Records that succeed others keep the laws -/

theorem ZoneRecord.succeeds.refl (r : ZoneRecord) : r.succeeds r := ⟨⟨rfl, rfl, rfl, rfl⟩, id⟩

theorem ZoneRecord.succeeds.inArea {r' r : ZoneRecord} (h : r'.succeeds r) : r'.inArea = r.inArea := by
  obtain ⟨⟨hbf, hbc, hwf, hwc⟩, -⟩ := h
  simp only [ZoneRecord.inArea, hbf, hbc, hwf, hwc]

theorem ZoneRecord.succeeds.apartFrom {r' r q' q : ZoneRecord} (h : r'.succeeds r) (h' : q'.succeeds q) :
    r'.apartFrom q' = r.apartFrom q := by
  obtain ⟨⟨hbf, hbc, hwf, hwc⟩, -⟩ := h
  obtain ⟨⟨hbf', hbc', hwf', hwc'⟩, -⟩ := h'
  simp only [ZoneRecord.apartFrom, hbf, hbc, hwf, hwc, hbf', hbc', hwf', hwc']

/-- R41, R45, R48: zones that all succeed lawful ones are lawful. -/
theorem State.zonesLawful.of_succeeds {s t : State} (h : s.zonesLawful)
    (ht : ∀ z r', t.zone z = some r' → ∃ r, s.zone z = some r ∧ r'.succeeds r) : t.zonesLawful := by
  obtain ⟨harea, hapart, hstandby⟩ := h
  refine ⟨fun z r' hr' => ?_, fun z r' y q' hr' hq' hne => ?_, fun z r' hr' => ?_⟩
  · obtain ⟨r, hr, hsucc⟩ := ht z r' hr'
    obtain ⟨hlow, hhigh, hin⟩ := harea z r hr
    exact ⟨hlow, hhigh, hsucc.inArea.trans hin⟩
  · obtain ⟨r, hr, hsucc⟩ := ht z r' hr'
    obtain ⟨q, hq, hsucc'⟩ := ht y q' hq'
    exact (hsucc.apartFrom hsucc').trans (hapart z r y q hr hq hne)
  · obtain ⟨r, hr, hsucc⟩ := ht z r' hr'
    exact hsucc.2 (hstandby z r hr)

theorem State.zonesLawful.congr {s t : State} (h : s.zonesLawful) (ht : t.zones = s.zones) : t.zonesLawful :=
  h.of_succeeds fun z r hr => ⟨r, by rwa [State.zone, ← ht], .refl r⟩

/-- One record replaced by one that succeeds it, or none. -/
theorem zonesLawful_setZone (s : State) (z : Nat) (r' : Option ZoneRecord)
    (hr' : ∀ q, r' = some q → ∃ r, s.zone z = some r ∧ q.succeeds r) (h : s.zonesLawful) : (s.setZone z r').zonesLawful := by
  refine h.of_succeeds fun y q hq => ?_
  rw [State.zone_setZone] at hq
  split at hq
  · subst_vars
    exact hr' q rfl
  · exact ⟨q, hq, .refl q⟩

theorem zonesLawful_map (s : State) (z : Nat) (f : ZoneRecord → ZoneRecord) (hf : ∀ r, (f r).succeeds r) (h : s.zonesLawful) :
    (s.setZone z ((s.zone z).map f)).zonesLawful := by
  refine zonesLawful_setZone s z _ (fun q hq => ?_) h
  obtain ⟨r, hr, rfl⟩ := Option.map_eq_some_iff.mp hq
  exact ⟨r, hr, hf r⟩

/-- R89 to R91: a move keeps the ranges, and gives no zone to its standby. -/
theorem ZoneMove.succeeds_apply (m : ZoneMove) (hm : m.standbyOff) (r : ZoneRecord) : (m.apply r).succeeds r := by
  refine ⟨⟨rfl, rfl, rfl, rfl⟩, fun _ => ?_⟩
  simp only [ZoneMove.apply, ZoneRecord.standbyOff]
  split
  · exact bne_iff_ne.2 (hm _ ‹_›)
  · rfl

/-- R98: a warm reset keeps a zone's ranges and leaves it no owner. -/
theorem ZoneRecord.succeeds_warmReset (r : ZoneRecord) : r.warmReset.succeeds r := by
  unfold ZoneRecord.warmReset
  split
  · exact ZoneRecord.succeeds_of_status ⟨rfl, rfl, rfl, rfl⟩ (by simp)
  · exact ZoneRecord.succeeds_of_status ⟨rfl, rfl, rfl, rfl⟩ (by simp)
  · exact ZoneRecord.succeeds_of_status ⟨rfl, rfl, rfl, rfl⟩ (by simp)
  · exact .refl r

/-! ## A definition (R48, R49) -/

theorem rangesMeet_comm (f c f' c' : Nat) : rangesMeet f c f' c' = rangesMeet f' c' f c := by
  simp only [rangesMeet, decide_eq_decide]
  omega

/-- R49: the first index of an empty range does not matter. -/
theorem rangesMeet_define (f c f' c' : Nat) : rangesMeet (if c = 0 then 0 else f) c f' c' = rangesMeet f c f' c' := by
  simp only [rangesMeet, decide_eq_decide]
  split <;> omega

theorem ZoneRecord.apartFrom_comm (r q : ZoneRecord) : r.apartFrom q = q.apartFrom r := by
  simp only [ZoneRecord.apartFrom, rangesMeet_comm r.bitFirst, rangesMeet_comm r.wordFirst]

theorem ZoneRecord.inArea_define {bf bc wf wc : Nat} (hbits : bitRangeMeets bf bc = true) (hwords : wordRangeMeets wf wc = true)
    (who : SessionRef) (rights : PortSet) (c : Clock) (e : Byte) :
    (ZoneRecord.define who bf bc wf wc rights c e).inArea = true := by
  simp only [bitRangeMeets, wordRangeMeets, decide_eq_true_eq] at hbits hwords
  refine decide_eq_true ⟨?_, ?_⟩
  · dsimp only [ZoneRecord.define]
    split <;> omega
  · dsimp only [ZoneRecord.define]
    split <;> omega

/-- R48 check 8: a zone that a definition does not overlap is apart from the new one. -/
theorem ZoneRecord.apartFrom_define {r : ZoneRecord} {bf bc wf wc : Nat} (h : r.overlaps bf bc wf wc = false) (who : SessionRef)
    (rights : PortSet) (c : Clock) (e : Byte) : (ZoneRecord.define who bf bc wf wc rights c e).apartFrom r = true := by
  simp only [ZoneRecord.overlaps, Bool.or_eq_false_iff] at h
  simp only [ZoneRecord.apartFrom, ZoneRecord.define, rangesMeet_define, h.1, h.2, Bool.not_false, Bool.and_self]

theorem zonesLawful_define (s : State) (z : Nat) (who : SessionRef) (bf bc wf wc : Nat) (rights : PortSet) (c : Clock) (e : Byte)
    (hd : Definable s z bf bc wf wc) (h : s.zonesLawful) :
    (s.setZone z (some (.define who bf bc wf wc rights c e))).zonesLawful := by
  obtain ⟨harea, hapart, hstandby⟩ := h
  have hnew : ∀ y q, s.zone y = some q → (ZoneRecord.define who bf bc wf wc rights c e).apartFrom q = true := by
    intro y q hq
    obtain ⟨hlow, hhigh, -⟩ := harea y q hq
    have hnone := List.find?_eq_none.1 hd.apart y ((mem_zoneNumbers y).2 ⟨hlow, hhigh⟩)
    rw [hq, Option.any_some, Bool.not_eq_true] at hnone
    exact ZoneRecord.apartFrom_define hnone who rights c e
  refine ⟨fun y q hq => ?_, fun y q y' q' hq hq' hne => ?_, fun y q hq => ?_⟩
  · rw [State.zone_setZone] at hq
    split at hq
    · subst_vars
      cases hq
      exact ⟨hd.low, hd.high, ZoneRecord.inArea_define hd.bits hd.words ..⟩
    · exact harea y q hq
  · rw [State.zone_setZone] at hq hq'
    split at hq
    · cases hq
      rw [if_neg (by omega)] at hq'
      exact hnew y' q' hq'
    · split at hq'
      · cases hq'
        rw [ZoneRecord.apartFrom_comm]
        exact hnew y q hq
      · exact hapart y q y' q' hq hq' hne
  · rw [State.zone_setZone] at hq
    split at hq
    · cases hq
      rfl
    · exact hstandby y q hq

/-! ## Every step keeps the laws -/

theorem zonesLawful_writes : KeptByWrites State.zonesLawful where
  store _ _ h := h
  systemZone _ _ h := h
  count s z h := by
    unfold State.countZone
    split
    · exact zonesLawful_setZone s z _ (fun q hq => ⟨_, ‹_›, by cases hq; exact ⟨⟨rfl, rfl, rfl, rfl⟩, id⟩⟩) h
    · exact h
  fire _ _ h := h
  run _ _ h := h

theorem zonesLawful_raise (s : State) (c : Cause) (d : Detail) (p : Port) (h : s.zonesLawful) : (s.raise c d p).zonesLawful :=
  h.congr (State.raise_zones ..)

theorem zonesLawful_actions : KeptByActions State.zonesLawful where
  points s w _ h := zonesLawful_writes.writeSystem s w h
  policy := zonesLawful_writes.writePolicy
  faults _ _ _ _ h := zonesLawful_writes.writeSystem _ _ h
  raise := zonesLawful_raise
  ownership _ _ h := h
  put s m hm h := zonesLawful_map s _ _ (m.succeeds_apply hm) h

theorem State.endRecords_zones (s : State) (ended : SessionRef) (cause : EndCause) :
    (s.endRecords ended cause).zones = s.zones := by simp [State.endRecords]

theorem zonesLawful_of_undefined {s : State} (h : ∀ z, s.zone z = none) : s.zonesLawful := by
  have hnone : ∀ z r, s.zone z ≠ some r := fun z r hr => nomatch (h z).symm.trans hr
  exact ⟨fun z r hr => absurd hr (hnone z r), fun z r _ _ hr => absurd hr (hnone z r), fun z r hr => absurd hr (hnone z r)⟩

theorem zonesLawful_kept : KeptByJoin State.zonesLawful where
  draws _ _ h := h
  phase _ _ h := h
  clock _ _ h := h
  link _ _ _ h := h
  port _ _ _ _ h := h
  begins _ _ _ _ _ h := h
  ends s p m r cause monitor _ _ hmonitor h :=
    zonesLawful_actions.endSession hmonitor (fun t w _ => zonesLawful_writes.writeSystem t w) _ _ _ fun n => h.congr (State.endRecords_zones ..)
  points s w _ h := zonesLawful_writes.writeSystem s w h
  raise := zonesLawful_raise
  ownership _ _ h := h
  defines := zonesLawful_define
  zone s z r r' hr hsucc h := zonesLawful_setZone s z _ (fun q hq => ⟨r, hr, by cases hq; exact hsucc.1⟩) h
  retires s z h := zonesLawful_setZone s z none (fun q hq => nomatch hq) h
  timers _ _ _ h := h
  unwatch _ _ h := h
  clearing s u z r _ _ h := zonesLawful_writes.writeClearing s _ h
  writes s zs w _ _ h := zonesLawful_writes.writeZones s zs w h
  token _ _ _ _ h := h
  timer s n t h := zonesLawful_writes.writeSystem _ _ h
  tick := zonesLawful_writes.tickEvent fun _ _ h => h
  exchange s t hstep _ h := zonesLawful_writes.writeSystem _ _ (h.congr (by rw [hstep.frame]))
  settings _ _ _ _ h := h
  attend _ _ _ _ _ _ h := h
  faults _ _ _ _ h := zonesLawful_writes.writeSystem _ _ h
  warm s h := zonesLawful_writes.warmReset (fun u z hu => zonesLawful_map u z _ ZoneRecord.succeeds_warmReset hu)
    (fun _ _ _ h => h) (fun u hu => hu.congr (by rw [State.resetFault, State.enterFault_frame])) s h
  power _ _ _ _ := zonesLawful_of_undefined fun _ => rfl
  freeWord _ h := zonesLawful_writes.writeSystem _ _ h

/-! ## The points of a write into a zone (R41) -/

/-- R41: points of the definable area alone. -/
def Points.definable (w : Points) : Prop := (∀ b ∈ w.bits, 128 ≤ b.1) ∧ ∀ x ∈ w.words, 96 ≤ x.1

theorem ZoneRecord.bit_of_inArea {r : ZoneRecord} (h : r.inArea = true) {i : Nat} (hi : r.hasBit i = true) : 128 ≤ i := by
  simp only [ZoneRecord.inArea, decide_eq_true_eq] at h
  simp only [ZoneRecord.hasBit, decide_eq_true_eq] at hi
  omega

theorem ZoneRecord.word_of_inArea {r : ZoneRecord} (h : r.inArea = true) {i : Nat} (hi : r.hasWord i = true) : 96 ≤ i := by
  simp only [ZoneRecord.inArea, decide_eq_true_eq] at h
  simp only [ZoneRecord.hasWord, decide_eq_true_eq] at hi
  omega

theorem ZoneRecord.mem_bitIndices (r : ZoneRecord) (i : Nat) : i ∈ r.bitIndices ↔ r.hasBit i = true := by
  simp only [ZoneRecord.bitIndices, ZoneRecord.hasBit, List.mem_map, List.mem_range, decide_eq_true_eq]
  exact ⟨fun ⟨k, hk, hi⟩ => by omega, fun hi => ⟨i - r.bitFirst, by omega, by omega⟩⟩

theorem ZoneRecord.mem_wordIndices (r : ZoneRecord) (i : Nat) : i ∈ r.wordIndices ↔ r.hasWord i = true := by
  simp only [ZoneRecord.wordIndices, ZoneRecord.hasWord, List.mem_map, List.mem_range, decide_eq_true_eq]
  exact ⟨fun ⟨k, hk, hi⟩ => by omega, fun hi => ⟨i - r.wordFirst, by omega, by omega⟩⟩

/-- R88: a loss policy writes points of its zone alone. -/
theorem ZoneRecord.policyPoints_within {r : ZoneRecord} {w : Points} (hw : w = r.zeros ∨ r.policyPoints = some w) :
    (∀ b ∈ w.bits, r.hasBit b.1 = true) ∧ ∀ x ∈ w.words, r.hasWord x.1 = true := by
  have hzeros : (∀ b ∈ r.zeros.bits, r.hasBit b.1 = true) ∧ ∀ x ∈ r.zeros.words, r.hasWord x.1 = true := by
    simp only [ZoneRecord.zeros, List.forall_mem_map, ← ZoneRecord.mem_bitIndices, ← ZoneRecord.mem_wordIndices]
    exact ⟨fun _ => id, fun _ => id⟩
  rcases hw with rfl | hw
  · exact hzeros
  · unfold ZoneRecord.policyPoints at hw
    split at hw
    · cases hw
    · cases hw
      exact hzeros
    · split at hw
      · cases hw
        simp only [← ZoneRecord.mem_bitIndices, ← ZoneRecord.mem_wordIndices]
        exact ⟨fun b hb => (List.of_mem_zip hb).1, fun x hx => (List.of_mem_zip hx).1⟩
      · cases hw
        exact hzeros

theorem ZoneRecord.definable_of_inArea {r : ZoneRecord} (h : r.inArea = true) {w : Points}
    (hw : w = r.zeros ∨ r.policyPoints = some w) : w.definable :=
  ⟨fun b hb => ZoneRecord.bit_of_inArea h ((ZoneRecord.policyPoints_within hw).1 b hb),
    fun x hx => ZoneRecord.word_of_inArea h ((ZoneRecord.policyPoints_within hw).2 x hx)⟩

/-- R40: the holding zone of a point is one that passes the test. -/
theorem State.of_findZone {s : State} {f : ZoneRecord → Bool} {z : Nat} (h : s.findZone f = .zone z) :
    ∃ r, s.zone z = some r ∧ f r = true ∧ 1 ≤ z ∧ z ≤ 31 := by
  unfold State.findZone at h
  split at h
  · rename_i y hy
    cases h
    have hfound := List.find?_some hy
    have hrange := (mem_zoneNumbers z).1 (List.mem_of_find?_eq_some hy)
    split at hfound
    · exact ⟨_, ‹_›, hfound, hrange⟩
    · cases hfound
  · cases h

theorem State.of_bitHolder {s : State} {i z : Nat} (h : s.bitHolder i = .zone z) :
    ∃ r, s.zone z = some r ∧ r.hasBit i = true ∧ 1 ≤ z ∧ z ≤ 31 := by
  unfold State.bitHolder at h
  split at h
  · cases h
  · exact State.of_findZone h

theorem State.of_wordHolder {s : State} {i z : Nat} (h : s.wordHolder i = .zone z) :
    ∃ r, s.zone z = some r ∧ r.hasWord i = true ∧ 1 ≤ z ∧ z ≤ 31 := by
  unfold State.wordHolder at h
  split at h
  · cases h
  · exact State.of_findZone h

/-- R41, R65: points that zones hold lie in the definable area. -/
theorem State.definable_of_held {s : State} {w : Points} (h : s.zonesInArea) (hb : ∀ b ∈ w.bits, ∃ z, s.bitHolder b.1 = .zone z)
    (hx : ∀ x ∈ w.words, ∃ z, s.wordHolder x.1 = .zone z) : w.definable := by
  refine ⟨fun b hb' => ?_, fun x hx' => ?_⟩
  · obtain ⟨z, hz⟩ := hb b hb'
    obtain ⟨r, hr, hbit, -⟩ := State.of_bitHolder hz
    exact ZoneRecord.bit_of_inArea (h z r hr).2.2 hbit
  · obtain ⟨z, hz⟩ := hx x hx'
    obtain ⟨r, hr, hword, -⟩ := State.of_wordHolder hz
    exact ZoneRecord.word_of_inArea (h z r hr).2.2 hword

end Sys2Proof.Machine
end

section
/-! The points that show the timers (R118), the fault list (R173) and the message exchange (R140) at every step, while the zones are
lawful. -/

namespace Sys2Proof.Machine

/-! ## The timers shown (R118) -/

theorem Points.plain.ge {w : Points} (h : w.plain) : (∀ b ∈ w.bits, 32 ≤ b.1) ∧ ∀ x ∈ w.words, 32 ≤ x.1 :=
  ⟨fun b hb => by have := h.1 b hb; omega, fun x hx => by have := h.2 x hx; omega⟩

theorem Points.ofExchange.ge {w : Points} (h : w.ofExchange) : (∀ b ∈ w.bits, 32 ≤ b.1) ∧ ∀ x ∈ w.words, 32 ≤ x.1 :=
  ⟨fun b hb => absurd (h.1 ▸ hb) (List.not_mem_nil), fun x hx => by have := h.2 x hx; omega⟩

theorem Points.definable.ge {w : Points} (h : w.definable) : (∀ b ∈ w.bits, 32 ≤ b.1) ∧ ∀ x ∈ w.words, 32 ≤ x.1 :=
  ⟨fun b hb => by have := h.1 b hb; omega, fun x hx => by have := h.2 x hx; omega⟩

/-- R173: points of the fault list. -/
theorem faultPoints_range (s t : State) :
    (∀ b ∈ (faultPoints s t).bits, 60 ≤ b.1 ∧ b.1 ≤ 63) ∧ ∀ x ∈ (faultPoints s t).words, 52 ≤ x.1 ∧ x.1 ≤ 53 := by
  constructor
  · intro b hb
    have hb' := (List.mem_filter.mp hb).1
    simp only [faultBits, List.mem_cons, List.not_mem_nil, or_false] at hb'
    rcases hb' with rfl | rfl | rfl | rfl <;> simp
  · intro x hx
    have hx' := (List.mem_filter.mp hx).1
    simp only [faultWords, List.mem_cons, List.not_mem_nil, or_false] at hx'
    rcases hx' with rfl | rfl <;> simp

theorem faultPoints_ge (s t : State) :
    (∀ b ∈ (faultPoints s t).bits, 32 ≤ b.1) ∧ ∀ x ∈ (faultPoints s t).words, 32 ≤ x.1 :=
  ⟨fun b hb => by have := (faultPoints_range s t).1 b hb; omega, fun x hx => by have := (faultPoints_range s t).2 x hx; omega⟩

theorem State.showsTimers.writeSystem {s : State} (h : s.showsTimers) {w : Points}
    (hw : (∀ b ∈ w.bits, 32 ≤ b.1) ∧ ∀ x ∈ w.words, 32 ≤ x.1) : (s.writeSystem w).showsTimers :=
  State.showsTimers_writeSystem h w hw.1 hw.2

theorem State.showsTimers.mapTimers {s : State} (h : s.showsTimers) {f : Armed → Armed} (hf : Armed.sameRun f) :
    (s.mapTimers f).showsTimers := by
  intro n hn
  obtain ⟨hbit, hword⟩ := h n hn
  rw [State.timer_mapTimers]
  refine ⟨hbit.trans ?_, hword.trans ?_⟩
  · cases s.timer n with
    | none => rfl
    | some a => exact (hf a).2.symm
  · cases s.timer n with
    | none => rfl
    | some a => exact (hf a).1.symm

theorem State.showsTimers.writePolicy {s : State} (h : s.showsTimers) (harea : s.zonesInArea) (z : Nat) :
    (s.writePolicy z).showsTimers := by
  unfold State.writePolicy
  split
  · rename_i w hw
    obtain ⟨r, hr, hw⟩ := Option.bind_eq_some_iff.1 hw
    have hdef := (ZoneRecord.definable_of_inArea (harea z r hr).2.2 (.inr hw)).ge
    exact State.showsTimers_writeZones h _ w hdef.1 hdef.2
  · exact h

/-- R135: a warm reset writes every point of the timer array. -/
theorem State.showsTimers_timersWarmReset (s : State) : s.timersWarmReset.showsTimers := by
  unfold State.timersWarmReset
  dsimp only
  generalize s.mapTimers _ = t
  refine State.showsTimers_deliver (fun n hn => ?_) _ _
  have hmem : n ∈ List.range Config.timerCount := List.mem_range.2 hn
  rw [State.storeSystem_fst]
  constructor
  · show (t.store t.allTimerPoints).bit n = timerDone (t.timer n)
    rw [State.bit_store, State.allTimerPoints, find_map_self, if_pos hmem]
    rfl
  · show (t.store t.allTimerPoints).word n = timerCount (t.timer n)
    rw [State.word_store, State.allTimerPoints, find_map_self, if_pos hmem]
    rfl

/-- R118 while the zones are lawful. -/
def State.lawfulTimers (s : State) : Prop := s.zonesLawful ∧ s.showsTimers

theorem showsTimers_tickEvent {s : State} (h : s.showsTimers) : s.tickEvent.showsTimers := by
  unfold State.tickEvent
  split
  · exact State.showsTimers_writeTimers (s := { s with tickDue := false }) h (fun _ => rfl) fun _ => rfl
  · exact h

theorem showsTimers_raise {s : State} (h : s.showsTimers) (c : Cause) (d : Detail) (p : Port) : (s.raise c d p).showsTimers :=
  State.showsTimers_congr h (State.raise_bits ..) (State.raise_words ..) (State.raise_timers ..)

theorem lawfulTimers_actions : KeptByActions State.lawfulTimers where
  points s w hw h := ⟨zonesLawful_actions.points s w hw h.1, h.2.writeSystem hw.ge⟩
  policy s z h := ⟨zonesLawful_actions.policy s z h.1, h.2.writePolicy h.1.1 z⟩
  faults s fs o hlist h := ⟨zonesLawful_actions.faults s fs o hlist h.1, State.showsTimers.writeSystem
    (s := { s with faults := fs, overflow := o }) h.2 (faultPoints_ge ..)⟩
  raise s c d p h := ⟨zonesLawful_raise s c d p h.1, showsTimers_raise h.2 c d p⟩
  ownership _ _ h := h
  put s m hm h := ⟨zonesLawful_actions.put s m hm h.1, h.2⟩

theorem showsTimers_endRecords {s : State} (h : s.showsTimers) (ended : SessionRef) (cause : EndCause) :
    (s.endRecords ended cause).showsTimers := by
  have hdetached : ((s.dropAttention ended.port).mapTimers (Armed.detach ended)).showsTimers :=
    State.showsTimers.mapTimers h fun a => by unfold Armed.detach; split <;> exact ⟨rfl, rfl⟩
  exact State.showsTimers_congr hdetached (by simp [State.endRecords]) (by simp [State.endRecords])
    (by simp [State.endRecords])

theorem lawfulTimers_kept : KeptByJoin State.lawfulTimers where
  draws _ _ h := h
  phase _ _ h := h
  clock _ _ h := h
  link _ _ _ h := h
  port _ _ _ _ h := h
  begins _ _ _ _ _ h := h
  ends s p m r cause monitor _ _ hmonitor h := lawfulTimers_actions.endSession hmonitor
    (fun t w hw h => ⟨zonesLawful_writes.writeSystem t w h.1, h.2.writeSystem hw.ge⟩) _ _ _ fun n =>
    ⟨h.1.congr (State.endRecords_zones ..), showsTimers_endRecords (s := s.setPort p r) h.2 _ _⟩
  points s w hw h := lawfulTimers_actions.points s w hw h
  raise := lawfulTimers_actions.raise
  ownership _ _ h := h
  defines s z who bf bc wf wc rights c e hd h := ⟨zonesLawful_define s z who bf bc wf wc rights c e hd h.1, h.2⟩
  zone s z r r' hr hsucc h := ⟨zonesLawful_kept.zone s z r r' hr hsucc h.1, h.2⟩
  retires s z h := ⟨zonesLawful_kept.retires s z h.1, h.2⟩
  timers s f hf h := ⟨h.1, h.2.mapTimers hf⟩
  unwatch _ _ h := h
  clearing s u z r hu hr h := by
    have hdef := (ZoneRecord.definable_of_inArea (hu.1.1 z r hr).2.2 (.inl rfl)).ge
    exact ⟨zonesLawful_kept.clearing s u z r hu.1 hr h.1, State.showsTimers_writeClearing h.2 _ hdef.1 hdef.2⟩
  writes s zs w hb hx h := by
    have hdef := (State.definable_of_held h.1.1 hb hx).ge
    exact ⟨zonesLawful_kept.writes s zs w hb hx h.1, State.showsTimers_writeZones h.2 zs w hdef.1 hdef.2⟩
  token _ _ _ _ h := h
  timer s n t h := ⟨zonesLawful_kept.timer s n t h.1, State.showsTimers_changeTimer h.2 n t⟩
  tick s h := ⟨zonesLawful_kept.tick s h.1, showsTimers_tickEvent h.2⟩
  exchange s t hstep hlaw h := by
    have ht : t.showsTimers := State.showsTimers_congr h.2 (by rw [hstep.frame]) (by rw [hstep.frame]) (by rw [hstep.frame])
    exact ⟨zonesLawful_kept.exchange s t hstep hlaw h.1, ht.writeSystem (exchangePoints_ofExchange ..).ge⟩
  settings _ _ _ _ h := h
  attend _ _ _ _ _ _ h := h
  faults := lawfulTimers_actions.faults
  warm s h := ⟨zonesLawful_kept.warm s h.1, State.showsTimers_timersWarmReset _⟩
  power s ph links h := ⟨zonesLawful_kept.power s ph links h.1, fun _ _ => ⟨rfl, rfl⟩⟩
  freeWord s h := ⟨zonesLawful_kept.freeWord s h.1, State.showsTimers.writeSystem (s := { s with freeWordDue := false }) h.2
    ⟨fun _ hb => (nomatch hb), fun x hx => by rw [List.mem_singleton.1 hx]; exact (by decide : 32 ≤ 54)⟩⟩

end Sys2Proof.Machine
end

section
/-! Points after the write events of several blocks in a free order (entry 5), and the points that show the fault list (R173) and the
message exchange (R140) at every step, while the zones are lawful. -/

namespace Sys2Proof.Machine

/-! ## A point after actions in a free order (entry 5) -/

/-- What each action leaves or takes to one same value is at that value once an action has taken it there, in whatever order. -/
theorem State.actFreely_observed {α : Type} (obs : State → α) (Inv : State → Prop) (f : α → α) (hf : ∀ x, f (f x) = f x) (x : α)
    (s : State) (blocks : List (List Action)) (hinv : ∀ n, Inv { s with freeDraws := n })
    (hobs : ∀ n, obs { s with freeDraws := n } = x)
    (hkeep : ∀ a ∈ blocks.flatten, ∀ t, Inv t → Inv (t.act a) ∧ (obs (t.act a) = obs t ∨ obs (t.act a) = f (obs t)))
    (hreach : f x = x ∨ ∃ a ∈ blocks.flatten, ∀ t, Inv t → obs (t.act a) = f (obs t)) : obs (s.actFreely blocks) = f x := by
  have hstep : ∀ a ∈ blocks.flatten, ∀ t, (Inv t ∧ (obs t = x ∨ obs t = f x)) →
      Inv (t.act a) ∧ (obs (t.act a) = x ∨ obs (t.act a) = f x) := by
    intro a ha t ⟨ht, hx⟩
    obtain ⟨hinv', hobs'⟩ := hkeep a ha t ht
    refine ⟨hinv', ?_⟩
    rcases hobs' with h | h <;> rw [h] <;> rcases hx with hx | hx <;> rw [hx]
    · exact .inl rfl
    · exact .inr rfl
    · exact .inr rfl
    · exact .inr (hf x)
  have hstart : ∀ n, Inv { s with freeDraws := n } ∧
      (obs { s with freeDraws := n } = x ∨ obs { s with freeDraws := n } = f x) := fun n => ⟨hinv n, .inl (hobs n)⟩
  rcases hreach with hfix | ⟨a, ha, hreach⟩
  · have hend := State.actFreely_keeps _ s blocks hstart hstep
    rw [hfix] at hend ⊢
    exact hend.2.elim id id
  · refine State.actFreely_reaches _ (fun t => obs t = f x) s blocks a ha hstart hstep (fun t ⟨ht, hx⟩ => ?_)
      fun b hb t ⟨ht, _⟩ hQ => ?_
    · rw [hreach t ht]
      rcases hx with hx | hx <;> rw [hx]
      exact hf x
    · rcases (hkeep b hb t ht).2 with h | h <;> rw [h, hQ]
      exact hf x

/-- R61: a bit, where one block's write alone names it. -/
theorem State.actFreely_bit (Inv : State → Prop) (s : State) (blocks : List (List Action)) (w : Points) (i : Nat) (hi : 32 ≤ i)
    (hinv : ∀ n, Inv { s with freeDraws := n }) (hmem : ∀ a ∈ systemAction w, a ∈ blocks.flatten)
    (hkeep : ∀ a ∈ blocks.flatten, ∀ t, Inv t → Inv (t.act a) ∧ (a = .system w ∨ (t.act a).bit i = t.bit i)) :
    (s.actFreely blocks).bit i = (s.store w).bit i := by
  have hwrite : ∀ t : State, (t.act (.system w)).bit i =
      ((w.bits.reverse.find? fun b => b.1 == i).map Prod.snd).getD (t.bit i) := fun t => by
    rw [State.act, State.writeSystem_bit _ _ _ hi, State.bit_store]
  rw [State.bit_store]
  refine State.actFreely_observed (fun t => t.bit i) Inv _ (fun x => ?_) _ s blocks hinv (fun _ => rfl) (fun a ha t ht => ?_) ?_
  · cases (w.bits.reverse.find? fun b => b.1 == i).map Prod.snd <;> rfl
  · obtain ⟨ht', hcase⟩ := hkeep a ha t ht
    refine ⟨ht', hcase.elim (fun h => .inr ?_) .inl⟩
    rw [h]
    exact hwrite t
  · by_cases hempty : w.bits.isEmpty && w.words.isEmpty
    · left
      rw [List.isEmpty_iff.1 (Bool.and_eq_true_iff.1 hempty).1]
      rfl
    · refine .inr ⟨.system w, hmem _ ?_, fun t _ => hwrite t⟩
      rw [systemAction, if_neg hempty]
      exact List.mem_singleton_self _

/-- R61: a word, where one block's write alone names it. -/
theorem State.actFreely_word (Inv : State → Prop) (s : State) (blocks : List (List Action)) (w : Points) (i : Nat) (hi : 32 ≤ i)
    (hinv : ∀ n, Inv { s with freeDraws := n }) (hmem : ∀ a ∈ systemAction w, a ∈ blocks.flatten)
    (hkeep : ∀ a ∈ blocks.flatten, ∀ t, Inv t → Inv (t.act a) ∧ (a = .system w ∨ (t.act a).word i = t.word i)) :
    (s.actFreely blocks).word i = (s.store w).word i := by
  have hwrite : ∀ t : State, (t.act (.system w)).word i =
      ((w.words.reverse.find? fun b => b.1 == i).map Prod.snd).getD (t.word i) := fun t => by
    rw [State.act, State.writeSystem_word _ _ _ hi, State.word_store]
  rw [State.word_store]
  refine State.actFreely_observed (fun t => t.word i) Inv _ (fun x => ?_) _ s blocks hinv (fun _ => rfl) (fun a ha t ht => ?_) ?_
  · cases (w.words.reverse.find? fun b => b.1 == i).map Prod.snd <;> rfl
  · obtain ⟨ht', hcase⟩ := hkeep a ha t ht
    refine ⟨ht', hcase.elim (fun h => .inr ?_) .inl⟩
    rw [h]
    exact hwrite t
  · by_cases hempty : w.bits.isEmpty && w.words.isEmpty
    · left
      rw [List.isEmpty_iff.1 (Bool.and_eq_true_iff.1 hempty).2]
      rfl
    · refine .inr ⟨.system w, hmem _ ?_, fun t _ => hwrite t⟩
      rw [systemAction, if_neg hempty]
      exact List.mem_singleton_self _

/-! ## Writes that leave the status points of the fault list and the exchange -/

/-- R140, R173: the points of the fault list and the exchange, with the two blocks, in two states. -/
structure StatusKept (s t : State) : Prop where
  bits : ∀ i, 60 ≤ i → i ≤ 63 → t.bit i = s.bit i
  words : ∀ i, 52 ≤ i → i ≤ 58 → t.word i = s.word i
  faults : t.faults = s.faults
  overflow : t.overflow = s.overflow
  exchange : t.exchange = s.exchange
  due : t.freeWordDue = s.freeWordDue

namespace StatusKept

theorem trans {s t u : State} (h : StatusKept s t) (h' : StatusKept t u) : StatusKept s u where
  bits i hl hh := (h'.bits i hl hh).trans (h.bits i hl hh)
  words i hl hh := (h'.words i hl hh).trans (h.words i hl hh)
  faults := h'.faults.trans h.faults
  overflow := h'.overflow.trans h.overflow
  exchange := h'.exchange.trans h.exchange
  due := h'.due.trans h.due

theorem writeSystem (s : State) {w : Points} (hb : ∀ b ∈ w.bits, b.1 < 60 ∨ 63 < b.1) (hx : ∀ x ∈ w.words, x.1 < 52 ∨ 58 < x.1) :
    StatusKept s (s.writeSystem w) where
  bits i hl hh := by
    rw [State.writeSystem_bit _ _ _ (by omega), State.bit_store_ne _ _ _ fun b hm => by have := hb b hm; omega]
  words i hl hh := by
    rw [State.writeSystem_word _ _ _ (by omega), State.word_store_ne _ _ _ fun x hm => by have := hx x hm; omega]
  faults := State.writeSystem_faults ..
  overflow := State.writeSystem_overflow ..
  exchange := State.writeSystem_exchange ..
  due := State.writeSystem_freeWordDue ..

theorem plain (s : State) {w : Points} (hw : w.plain) : StatusKept s (s.writeSystem w) :=
  writeSystem s (fun b hb => by have := hw.1 b hb; omega) fun x hx => by have := hw.2 x hx; omega

theorem writeZones (s : State) (zs : List Nat) {w : Points} (hw : w.definable) : StatusKept s (s.writeZones zs w) where
  bits i hl hh := by
    rw [State.writeZones_bit _ _ _ _ (by omega), State.bit_store_ne _ _ _ fun b hm => by have := hw.1 b hm; omega]
  words i hl hh := by
    rw [State.writeZones_word _ _ _ _ (by omega), State.word_store_ne _ _ _ fun x hm => by have := hw.2 x hm; omega]
  faults := by rw [State.writeZones_frame]
  overflow := by rw [State.writeZones_frame]
  exchange := by rw [State.writeZones_frame]
  due := by rw [State.writeZones_frame]

theorem writeClearing (s : State) {w : Points} (hw : w.definable) : StatusKept s (s.writeClearing w) where
  bits i hl hh := by
    rw [State.writeClearing_bit _ _ _ (by omega), State.bit_store_ne _ _ _ fun b hm => by have := hw.1 b hm; omega]
  words i hl hh := by
    rw [State.writeClearing_word _ _ _ (by omega), State.word_store_ne _ _ _ fun x hm => by have := hw.2 x hm; omega]
  faults := by rw [State.writeClearing_frame]
  overflow := by rw [State.writeClearing_frame]
  exchange := by rw [State.writeClearing_frame]
  due := by rw [State.writeClearing_frame]

theorem writePolicy {s : State} (h : s.zonesInArea) (z : Nat) : StatusKept s (s.writePolicy z) := by
  unfold State.writePolicy
  split
  · rename_i w hw
    obtain ⟨r, hr, hw⟩ := Option.bind_eq_some_iff.1 hw
    exact writeZones s _ (ZoneRecord.definable_of_inArea (h z r hr).2.2 (.inr hw))
  · exact ⟨fun _ _ _ => rfl, fun _ _ _ => rfl, rfl, rfl, rfl, rfl⟩

theorem timerPoints (s t : State) : StatusKept t (t.writeSystem (Machine.timerPoints s t)) :=
  writeSystem t (fun b hb => by have := timerPoints_bits_lt s t b hb; omega)
    fun x hx => by have := timerPoints_words_lt s t x hx; omega

theorem tickEvent (s : State) : StatusKept s s.tickEvent := by
  unfold State.tickEvent
  split
  · have htimers := timerPoints { s with tickDue := false }
      ({ s with tickDue := false }.mapTimers (Armed.tick s.bits s.clock))
    exact ⟨htimers.bits, htimers.words, htimers.faults, htimers.overflow, htimers.exchange, htimers.due⟩
  · exact ⟨fun _ _ _ => rfl, fun _ _ _ => rfl, rfl, rfl, rfl, rfl⟩

theorem raise (s : State) (c : Cause) (d : Detail) (p : Port) : StatusKept s (s.raise c d p) := by
  rw [State.raise_frame]
  exact ⟨fun _ _ _ => rfl, fun _ _ _ => rfl, rfl, rfl, rfl, rfl⟩

theorem showsFaults {s t : State} (h : StatusKept s t) (hs : s.showsFaults) : t.showsFaults :=
  State.showsFaults_congr hs h.bits (fun i hl hh => h.words i hl (by omega)) h.faults h.overflow

end StatusKept

/-! ## The fault list shown (R173) -/

/-- R173: the list's points entered without a notice, as the warm reset enters them. -/
theorem State.showsFaults_storeFaults {s t : State} (h : s.showsFaults) (hb : ∀ i, 60 ≤ i → i ≤ 63 → t.bit i = s.bit i)
    (hw : ∀ i, 52 ≤ i → i ≤ 53 → t.word i = s.word i) : (t.storeSystem (faultPoints s t)).1.showsFaults := by
  have hwritten := State.showsFaults_writeFaults h hb hw
  refine State.showsFaults_congr hwritten (fun i hl hh => ?_) (fun i hl hh => ?_) ?_ ?_
  · rw [State.writeFaults, State.writeSystem_bit _ _ _ (by omega), State.storeSystem_fst]
    rfl
  · rw [State.writeFaults, State.writeSystem_word _ _ _ (by omega), State.storeSystem_fst]
    rfl
  · rw [State.writeFaults, State.writeSystem_faults, State.storeSystem_fst]
    rfl
  · rw [State.writeFaults, State.writeSystem_overflow, State.storeSystem_fst]
    rfl

/-- R173 while the zones are lawful. -/
def State.lawfulFaultPoints (s : State) : Prop := s.zonesLawful ∧ s.showsFaults

theorem showsFaults_ofExchange {s : State} (h : s.showsFaults) {w : Points} (hw : w.ofExchange) :
    (s.writeSystem w).showsFaults := by
  refine State.showsFaults_congr h (fun i hl hh => ?_) (fun i hl hh => ?_) (State.writeSystem_faults ..)
    (State.writeSystem_overflow ..)
  · rw [State.writeSystem_bit _ _ _ (by omega), State.bit_store_ne _ _ _ fun b hb => absurd (hw.1 ▸ hb) List.not_mem_nil]
  · rw [State.writeSystem_word _ _ _ (by omega), State.word_store_ne _ _ _ fun x hx => by have := hw.2 x hx; omega]

theorem lawfulFaultPoints_actions : KeptByActions State.lawfulFaultPoints where
  points s w hw h := ⟨zonesLawful_actions.points s w hw h.1, (StatusKept.plain s hw).showsFaults h.2⟩
  policy s z h := ⟨zonesLawful_actions.policy s z h.1, (StatusKept.writePolicy h.1.1 z).showsFaults h.2⟩
  faults s fs o hlist h := ⟨zonesLawful_actions.faults s fs o hlist h.1,
    State.showsFaults_writeFaults h.2 (fun _ _ _ => rfl) fun _ _ _ => rfl⟩
  raise s c d p h := ⟨zonesLawful_raise s c d p h.1, (StatusKept.raise s c d p).showsFaults h.2⟩
  ownership _ _ h := h
  put s m hm h := ⟨zonesLawful_actions.put s m hm h.1, h.2⟩

theorem showsFaults_endRecords {s : State} (h : s.showsFaults) (ended : SessionRef) (cause : EndCause) :
    (s.endRecords ended cause).showsFaults :=
  State.showsFaults_congr h (fun i _ _ => by simp [State.endRecords, State.dropAttention, State.bit])
    (fun i _ _ => by simp [State.endRecords, State.dropAttention, State.word])
    (by simp [State.endRecords]) (by simp [State.endRecords])

end Sys2Proof.Machine
end

section
/-! The warm reset, stage by stage (R19), and with it the points that show the fault list (R173) and the message exchange (R140) at
every step, while the zones are lawful. -/

namespace Sys2Proof.Machine

/-! ## The stages of a warm reset (R19) -/

/-- R38, R98, R115: the warm reset up to the exchange's points. -/
def State.warmTokens (s : State) : State :=
  let zones := zoneNumbers.foldl State.zoneWarmReset s.resetClock.endAllSessions
  ((((zones.storeSystem zones.orphanPoints).1.storeSystem monitorZeros).1.tokensWarmReset).storeSystem tokenZeros).1

/-- R155: the warm reset up to the fault list. -/
def State.warmExchange (s : State) : State := (s.warmTokens.storeSystem exchangeResetWords).1

/-- R182: the warm reset up to the timer array. -/
def State.warmFaults (s : State) : State :=
  (s.warmExchange.resetFault.storeSystem (faultPoints s.warmExchange s.warmExchange.resetFault)).1

theorem exchangeResetWords_range : ∀ x ∈ exchangeResetWords.words, 54 ≤ x.1 ∧ x.1 ≤ 58 := by
  intro x hx
  simp only [exchangeResetWords, List.mem_cons, List.mem_map, List.mem_range] at hx
  rcases hx with rfl | ⟨k, hk, rfl⟩
  · exact ⟨Nat.le_refl 54, (by decide : 54 ≤ 58)⟩
  · dsimp only
    omega

theorem State.warmReset_eq (s : State) : s.warmReset = s.warmFaults.timersWarmReset := rfl

namespace StatusKept

theorem storeSystem (s : State) {w : Points} (hb : ∀ b ∈ w.bits, b.1 < 60 ∨ 63 < b.1) (hx : ∀ x ∈ w.words, x.1 < 52 ∨ 58 < x.1) :
    StatusKept s (s.storeSystem w).1 := by
  rw [State.storeSystem_fst]
  exact ⟨fun i hl hh => State.bit_store_ne _ _ _ fun b hm => by have := hb b hm; omega,
    fun i hl hh => State.word_store_ne _ _ _ fun x hm => by have := hx x hm; omega, rfl, rfl, rfl, rfl⟩

/-- R115: the token arbiter's part changes the tokens alone. -/
theorem tokensWarmReset (s : State) : StatusKept s s.tokensWarmReset :=
  List.foldlRecOn (motive := StatusKept s) _ _ ⟨fun _ _ _ => rfl, fun _ _ _ => rfl, rfl, rfl, rfl, rfl⟩ fun _ ht _ _ =>
    ⟨ht.bits, ht.words, ht.faults, ht.overflow, ht.exchange, ht.due⟩

/-- R41, R98: the loss-policy writes of a warm reset stay in the definable area. -/
theorem zoneWarmReset {s : State} (h : s.zonesInArea) (z : Nat) :
    (s.zoneWarmReset z).zonesInArea ∧ StatusKept s (s.zoneWarmReset z) := by
  have hreset : ∀ t : State, t.zonesInArea → (t.setZone z ((t.zone z).map ZoneRecord.warmReset)).zonesInArea := by
    intro t ht y q hq
    rw [State.zone_setZone] at hq
    split at hq
    · subst_vars
      obtain ⟨r, hr, rfl⟩ := Option.map_eq_some_iff.mp hq
      obtain ⟨hlow, hhigh, hin⟩ := ht y r hr
      exact ⟨hlow, hhigh, r.succeeds_warmReset.inArea.trans hin⟩
    · exact ht y q hq
  unfold State.zoneWarmReset
  split
  · exact ⟨h, ⟨fun _ _ _ => rfl, fun _ _ _ => rfl, rfl, rfl, rfl, rfl⟩⟩
  · rename_i r hr
    dsimp only
    split
    · rename_i w hw
      have hdef := ZoneRecord.definable_of_inArea (h z r hr).2.2 (.inr hw)
      have hstored : StatusKept s (s.storeCounted [z] w).1 := by
        rw [State.storeCounted_fst]
        exact ⟨fun i hl hh => State.bit_store_ne _ _ _ fun b hb => by have := hdef.1 b hb; omega,
          fun i hl hh => State.word_store_ne _ _ _ fun x hx => by have := hdef.2 x hx; omega, rfl, rfl, rfl, rfl⟩
      refine ⟨hreset _ fun y q hq => ?_,
        ⟨hstored.bits, hstored.words, hstored.faults, hstored.overflow, hstored.exchange, hstored.due⟩⟩
      have hcount : (s.storeCounted [z] w).1.zone y =
          if y ∈ [z] then (s.zone y).map (ZoneRecord.counted s.clock s.epoch) else s.zone y :=
        State.zone_foldl_countZone [z] (List.nodup_singleton z) (s.store w) y
      rw [hcount] at hq
      split at hq
      · obtain ⟨q', hq', rfl⟩ := Option.map_eq_some_iff.mp hq
        exact h y q' hq'
      · exact h y q hq
    · exact ⟨hreset s h, ⟨fun _ _ _ => rfl, fun _ _ _ => rfl, rfl, rfl, rfl, rfl⟩⟩

theorem zonesWarmReset {s : State} (h : s.zonesInArea) : StatusKept s (zoneNumbers.foldl State.zoneWarmReset s) :=
  (List.foldlRecOn (motive := fun t : State => t.zonesInArea ∧ StatusKept s t) zoneNumbers State.zoneWarmReset
    ⟨h, ⟨fun _ _ _ => rfl, fun _ _ _ => rfl, rfl, rfl, rfl, rfl⟩⟩ fun _ ⟨harea, ht⟩ z _ =>
      ⟨(zoneWarmReset harea z).1, ht.trans (zoneWarmReset harea z).2⟩).2

theorem warmTokens {s : State} (h : s.zonesInArea) : StatusKept s.resetClock.endAllSessions s.warmTokens := by
  have hzones : StatusKept s.resetClock.endAllSessions (zoneNumbers.foldl State.zoneWarmReset s.resetClock.endAllSessions) :=
    zonesWarmReset h
  unfold State.warmTokens
  generalize zoneNumbers.foldl State.zoneWarmReset s.resetClock.endAllSessions = t at hzones ⊢
  refine hzones.trans (.trans (.storeSystem t (fun b hb => ?_) (fun x hx => absurd hx List.not_mem_nil)) (.trans (.storeSystem _ (fun b hb => ?_)
    fun x hx => ?_) (.trans (.tokensWarmReset _) (.storeSystem _ (fun b hb => ?_) fun x hx => ?_))))
  · simp only [State.orphanPoints, List.mem_append, List.mem_map, mem_zoneNumbers] at hb
    rcases hb with ⟨z, hz, rfl⟩ | ⟨z, hz, rfl⟩
    · exact .inr (show 63 < 64 + z by omega)
    · exact .inr (show 63 < 96 + z by omega)
  · simp only [monitorZeros, List.mem_map, List.mem_range] at hb
    obtain ⟨k, hk, rfl⟩ := hb
    dsimp only
    omega
  · simp only [monitorZeros, List.mem_map, List.mem_range] at hx
    obtain ⟨k, hk, rfl⟩ := hx
    dsimp only
    omega
  · simp only [tokenZeros, List.mem_map, List.mem_range, Config.tokenCount] at hb
    obtain ⟨k, hk, rfl⟩ := hb
    dsimp only
    omega
  · simp only [tokenZeros, List.mem_map, List.mem_range, Config.tokenCount] at hx
    obtain ⟨k, hk, rfl⟩ := hx
    dsimp only
    omega

/-- R135: the timer array's part of a warm reset writes its own points. -/
theorem timersWarmReset (s : State) : StatusKept s s.timersWarmReset := by
  have hwrite := StatusKept.writeSystem (s.mapTimers fun a => a.restart.reevaluate s.bits)
    (w := (s.mapTimers fun a => a.restart.reevaluate s.bits).allTimerPoints) (fun b hb => ?_) fun x hx => ?_
  · exact ⟨hwrite.bits, hwrite.words, hwrite.faults, hwrite.overflow, hwrite.exchange, hwrite.due⟩
  · obtain ⟨n, hn, rfl⟩ := List.mem_map.1 hb
    simp only [List.mem_range, Config.timerCount] at hn
    exact .inl (show n < 60 by omega)
  · obtain ⟨n, hn, rfl⟩ := List.mem_map.1 hx
    simp only [List.mem_range, Config.timerCount] at hn
    exact .inl (show n < 52 by omega)

end StatusKept

/-- R182: the fault of a warm reset entered with its points. -/
theorem State.showsFaults_resetFault {s : State} (h : s.showsFaults) :
    (s.resetFault.storeSystem (faultPoints s s.resetFault)).1.showsFaults := by
  have hbits : s.resetFault.bits = s.bits := by
    rw [State.resetFault, State.enterFault_frame]
  have hwords : s.resetFault.words = s.words := by
    rw [State.resetFault, State.enterFault_frame]
  exact State.showsFaults_storeFaults h (fun i _ _ => by rw [State.bit, hbits, State.bit])
    fun i _ _ => by rw [State.word, hwords, State.word]

/-- R173, R182: a warm reset leaves the list's points showing it. -/
theorem State.showsFaults_warmReset {s : State} (harea : s.zonesInArea) (h : s.showsFaults) : s.warmReset.showsFaults := by
  have htokens : s.warmTokens.showsFaults :=
    (StatusKept.warmTokens harea).showsFaults (s := s.resetClock.endAllSessions) h
  have hexchange : s.warmExchange.showsFaults := by
    unfold State.warmExchange
    generalize s.warmTokens = t at htokens ⊢
    rw [State.storeSystem_fst]
    refine State.showsFaults_congr htokens (fun _ _ _ => rfl) (fun i hl hh => ?_) rfl rfl
    exact State.word_store_ne _ _ _ fun x hx => by
      have := exchangeResetWords_range x hx
      omega
  rw [State.warmReset_eq]
  exact (StatusKept.timersWarmReset _).showsFaults (State.showsFaults_resetFault hexchange)

theorem lawfulFaultPoints_kept : KeptByJoin State.lawfulFaultPoints where
  draws _ _ h := h
  phase _ _ h := h
  clock _ _ h := h
  link _ _ _ h := h
  port _ _ _ _ h := h
  begins _ _ _ _ _ h := h
  ends s p m r cause monitor _ _ hmonitor h := lawfulFaultPoints_actions.endSession hmonitor
    (fun t w hw h => ⟨zonesLawful_writes.writeSystem t w h.1, showsFaults_ofExchange h.2 hw⟩) _ _ _ fun n =>
    ⟨h.1.congr (State.endRecords_zones ..), showsFaults_endRecords (s := s.setPort p r) h.2 _ _⟩
  points s w hw h := lawfulFaultPoints_actions.points s w hw h
  raise := lawfulFaultPoints_actions.raise
  ownership _ _ h := h
  defines s z who bf bc wf wc rights c e hd h := ⟨zonesLawful_define s z who bf bc wf wc rights c e hd h.1, h.2⟩
  zone s z r r' hr hsucc h := ⟨zonesLawful_kept.zone s z r r' hr hsucc h.1, h.2⟩
  retires s z h := ⟨zonesLawful_kept.retires s z h.1, h.2⟩
  timers _ _ _ h := h
  unwatch _ _ h := h
  clearing s u z r hu hr h := ⟨zonesLawful_kept.clearing s u z r hu.1 hr h.1,
    (StatusKept.writeClearing s (ZoneRecord.definable_of_inArea (hu.1.1 z r hr).2.2 (.inl rfl))).showsFaults h.2⟩
  writes s zs w hb hx h := ⟨zonesLawful_kept.writes s zs w hb hx h.1,
    (StatusKept.writeZones s zs (State.definable_of_held h.1.1 hb hx)).showsFaults h.2⟩
  token _ _ _ _ h := h
  timer s n t h := ⟨zonesLawful_kept.timer s n t h.1, (StatusKept.timerPoints s (s.setTimer n t)).showsFaults h.2⟩
  tick s h := ⟨zonesLawful_kept.tick s h.1, (StatusKept.tickEvent s).showsFaults h.2⟩
  exchange s t hstep hlaw h := by
    have ht : t.showsFaults := by
      rw [hstep.frame]
      exact h.2
    exact ⟨zonesLawful_kept.exchange s t hstep hlaw h.1, showsFaults_ofExchange ht (exchangePoints_ofExchange ..)⟩
  settings _ _ _ _ h := h
  attend _ _ _ _ _ _ h := h
  faults := lawfulFaultPoints_actions.faults
  warm s h := ⟨zonesLawful_kept.warm s h.1, State.showsFaults_warmReset h.1.1 h.2⟩
  power s ph links h := ⟨zonesLawful_kept.power s ph links h.1, ⟨rfl, rfl, rfl, rfl⟩, rfl, rfl⟩
  freeWord s h := ⟨zonesLawful_kept.freeWord s h.1,
    showsFaults_ofExchange (s := { s with freeWordDue := false }) h.2 ⟨rfl, fun x hx => by
      rw [List.mem_singleton.1 hx]
      exact ⟨Nat.le_refl 54, (by decide : 54 ≤ 58)⟩⟩⟩

end Sys2Proof.Machine
end

section
/-! The words of the message exchange (R140) at every step, while the zones are lawful; then the laws of the zones and of the
points that show the timers, the exchange and the faults are settled. -/

namespace Sys2Proof.Machine

/-! ## Writes that leave the words of the exchange -/

/-- R140: the words of the exchange, with the exchange, in two states. -/
structure ExchangeWordsKept (s t : State) : Prop where
  words : ∀ i, 54 ≤ i → i ≤ 58 → t.word i = s.word i
  exchange : t.exchange = s.exchange
  due : t.freeWordDue = s.freeWordDue

theorem StatusKept.exchangeWords {s t : State} (h : StatusKept s t) : ExchangeWordsKept s t :=
  ⟨fun i hl hh => h.words i (by omega) hh, h.exchange, h.due⟩

theorem ExchangeWordsKept.refl (s : State) : ExchangeWordsKept s s := ⟨fun _ _ _ => rfl, rfl, rfl⟩

theorem ExchangeWordsKept.trans {s t u : State} (h : ExchangeWordsKept s t) (h' : ExchangeWordsKept t u) :
    ExchangeWordsKept s u :=
  ⟨fun i hl hh => (h'.words i hl hh).trans (h.words i hl hh), h'.exchange.trans h.exchange, h'.due.trans h.due⟩

theorem ExchangeWordsKept.writeFaults (s : State) (fs : List FaultEntry) (o : Half) :
    ExchangeWordsKept s (s.writeFaults { s with faults := fs, overflow := o }) where
  words i hl hh := by
    rw [State.writeFaults, State.writeSystem_word _ _ _ (by omega), State.word_store_ne _ _ _ fun x hx => by
      have := (faultPoints_range _ _).2 x hx
      omega]
    rfl
  exchange := State.writeSystem_exchange ..
  due := State.writeSystem_freeWordDue ..

/-- The words of the exchange among the actions of the other blocks at a session end. -/
theorem exchangeWords_actions (s : State) : KeptByActions fun t => t.zonesLawful ∧ ExchangeWordsKept s t where
  points t w hw h := ⟨zonesLawful_actions.points t w hw h.1, h.2.trans (StatusKept.plain t hw).exchangeWords⟩
  policy t z h := ⟨zonesLawful_actions.policy t z h.1, h.2.trans (StatusKept.writePolicy h.1.1 z).exchangeWords⟩
  faults t fs o hlist h := ⟨zonesLawful_actions.faults t fs o hlist h.1, h.2.trans (.writeFaults t fs o)⟩
  raise t c d p h := ⟨zonesLawful_raise t c d p h.1, h.2.trans (StatusKept.raise t c d p).exchangeWords⟩
  ownership _ _ h := ⟨h.1, h.2.words, h.2.exchange, h.2.due⟩
  put t m hm h := ⟨zonesLawful_actions.put t m hm h.1, h.2.words, h.2.exchange, h.2.due⟩

/-! ## The words shown -/

/-- R156: the words of the exchange that the system zone shows already. -/
def State.showsWord (s : State) (e : Nat × Half) : Prop := (e.1 = 54 → s.freeWordDue = false) → s.word e.1 = e.2

theorem State.showsExchangeOnceWritten_iff (s : State) :
    s.showsExchangeOnceWritten ↔ ∀ e ∈ exchangeWords s.exchange, s.showsWord e := by
  constructor
  · intro ⟨hfree, hdepth⟩ e he
    simp only [exchangeWords, List.mem_cons, List.mem_map] at he
    rcases he with rfl | ⟨p, -, rfl⟩
    · exact fun hdue => (hfree (hdue rfl)).1
    · exact fun _ => hdepth p
  · intro h
    have hdepth : ∀ p : Port, s.word (55 + p.index) = natHalf ((s.exchange.urgent.get p).length +
        (s.exchange.normal.get p).length) := fun p => h (55 + p.index, _) (List.mem_cons_of_mem _ (List.mem_map_of_mem
          (by cases p <;> simp [Port.all]))) fun h54 => absurd h54 (by dsimp only; omega)
    exact ⟨fun hdue => ⟨h (54, _) List.mem_cons_self fun _ => hdue, hdepth⟩, hdepth⟩

theorem exchangeWords_range (e : Exchange) : ∀ x ∈ exchangeWords e, 54 ≤ x.1 ∧ x.1 ≤ 58 := by
  intro x hx
  simp only [exchangeWords, List.mem_cons, List.mem_map] at hx
  rcases hx with rfl | ⟨p, -, rfl⟩
  · exact ⟨Nat.le_refl 54, (by decide : 54 ≤ 58)⟩
  · have := Port.index_lt p
    dsimp only
    omega

/-- R140: the exchange's write of a change, over words that show the exchange before it. -/
theorem State.word_store_exchangePoints {s t u : State} (h : s.showsExchangeOnceWritten)
    (hw : ∀ i, 54 ≤ i → i ≤ 58 → u.word i = s.word i) {e : Nat × Half} (he : e ∈ exchangeWords t.exchange)
    (hdue : e.1 = 54 → s.freeWordDue = false) : (u.store (exchangePoints s t)).word e.1 = e.2 := by
  rw [State.showsExchangeOnceWritten_iff] at h
  let shown := fun i => if i = 54 ∧ s.freeWordDue = true then natHalf s.exchange.free.length else s.word i
  have hshown : shown e.1 = s.word e.1 := by
    refine if_neg fun ⟨h54, hset⟩ => ?_
    rw [hdue h54] at hset
    cases hset
  have hbefore : ∀ x ∈ exchangeWords s.exchange, shown x.1 = x.2 := by
    intro x hx
    dsimp only [shown]
    split
    · rename_i h54
      simp only [exchangeWords, List.mem_cons, List.mem_map] at hx
      rcases hx with rfl | ⟨p, -, rfl⟩
      · rfl
      · exact absurd h54.1 (by dsimp only; omega)
    · rename_i hno
      exact h x hx fun h54 => by
        rw [← Bool.not_eq_true]
        exact fun hset => hno ⟨h54, hset⟩
  have hrange := exchangeWords_range _ e he
  rw [State.word_store, hw _ hrange.1 hrange.2, ← hshown]
  exact shown_after (exchangeWords s.exchange) (exchangeWords t.exchange) shown
    (by simp [exchangeWords, Port.all, Port.index]) hbefore e he

theorem ExchangeWordsKept.shown {s t : State} (h : ExchangeWordsKept s t) (hs : s.showsExchangeOnceWritten) :
    t.showsExchangeOnceWritten := by
  rw [State.showsExchangeOnceWritten_iff] at hs ⊢
  intro e he hdue
  rw [h.exchange] at he
  have hrange := exchangeWords_range _ e he
  rw [h.due] at hdue
  rw [h.words _ hrange.1 hrange.2]
  exact hs e he hdue

/-- R140 while the zones are lawful. -/
def State.lawfulExchangePoints (s : State) : Prop := s.zonesLawful ∧ s.showsExchangeOnceWritten

theorem lawfulExchangePoints_exchange {s t : State} (hstep : ExchangeStep s t) (hlaw : s.exchangeLawful → t.exchangeLawful)
    (h : s.lawfulExchangePoints) :
    (s.writeExchange t).lawfulExchangePoints := by
  refine ⟨zonesLawful_kept.exchange s t hstep hlaw h.1, (State.showsExchangeOnceWritten_iff _).2 fun e he hdue => ?_⟩
  have hwords : ∀ i, 54 ≤ i → i ≤ 58 → t.word i = s.word i := fun i _ _ => by
    rw [hstep.frame]
    rfl
  have hflag : t.freeWordDue = s.freeWordDue := by
    rw [hstep.frame]
  unfold State.writeExchange at he hdue ⊢
  rw [State.writeSystem_exchange] at he
  rw [State.writeSystem_freeWordDue, hflag] at hdue
  have hrange := exchangeWords_range _ e he
  rw [State.writeSystem_word _ _ _ (by omega)]
  exact State.word_store_exchangePoints h.2 hwords he hdue

/-- R34, R140: a session end leaves the words showing the queues, whatever the order of the blocks' actions. -/
theorem lawfulExchangePoints_endSession {s : State} (h : s.lawfulExchangePoints) {monitor : List (List Action)}
    (hmonitor : ∀ a ∈ List.flatten monitor, (∃ w, a = Action.system w ∧ w.plain) ∨ ∃ n, a = Action.raise n)
    (ended : SessionRef) (cause : EndCause) : (s.endSession ended cause monitor).lawfulExchangePoints := by
  have hzones : ∀ n, ({ s.endRecords ended cause with freeDraws := n } : State).zonesLawful := fun n =>
    h.1.congr (State.endRecords_zones ..)
  have hact : ∀ {a : Action}, a.FollowsEnd monitor → ∀ t : State, t.zonesLawful →
      (t.act a).zonesLawful ∧ ExchangeWordsKept t (t.act a) :=
    fun ha t ht => (exchangeWords_actions t).act hmonitor _ ha t ⟨ht, .refl t⟩
  refine ⟨State.endSession_keeps s ended cause monitor hzones (fun a ha t ht => (hact ha t ht).1)
    fun t w _ ht => zonesLawful_writes.writeSystem t w ht, (State.showsExchangeOnceWritten_iff _).2 fun e he hdue => ?_⟩
  rw [State.endSession_exchange] at he
  rw [State.endSession_freeWordDue] at hdue
  have hrange := exchangeWords_range _ e he
  have hrecords := State.word_store_exchangePoints (s := s) (t := s.endRecords ended cause) (u := s.endRecords ended cause) h.2
    (fun i _ _ => by simp [State.endRecords, State.word, State.dropAttention]) he hdue
  have hpoints : exchangePoints s (s.endRecords ended cause) = exchangePoints
      (((s.dropAttention ended.port).mapTimers (Armed.detach ended)).tokensAtEnd ended cause.isLoss) (s.endRecords ended cause) := by
    simp [exchangePoints, State.dropAttention]
  rw [hpoints] at hrecords
  rw [State.endSession_eq]
  refine (State.actFreely_word State.zonesLawful _ _ _ e.1 (by omega) ?_ (fun a ha => ?_) fun a ha t ht => ?_).trans
    hrecords
  · exact hzones
  · simp only [List.flatten_append, List.flatten_cons, List.flatten_nil, List.append_nil, List.mem_append]
    exact .inr (.inr (.inr ha))
  · rcases State.followsEnd_of_mem monitor _ _ _ ended cause _ ha with ha | rfl
    · exact ⟨(hact ha t ht).1, .inr ((hact ha t ht).2.words _ hrange.1 hrange.2)⟩
    · exact ⟨zonesLawful_writes.writeSystem t _ ht, .inl rfl⟩

/-! ## The warm reset and the exchange's first event -/

theorem State.warmExchange_exchange {s : State} (h : s.zonesInArea) :
    s.warmExchange.exchange = .reset ∧ s.warmExchange.freeWordDue = false := by
  have htokens := StatusKept.warmTokens h
  have hexchange : s.warmTokens.exchange = .reset := htokens.exchange
  have hdue : s.warmTokens.freeWordDue = false := htokens.due
  unfold State.warmExchange
  generalize s.warmTokens = t at hexchange hdue ⊢
  rw [State.storeSystem_fst]
  exact ⟨hexchange, hdue⟩

theorem exchangeResetWords_find : ∀ e ∈ exchangeWords .reset,
    (exchangeResetWords.words.reverse.find? fun x => x.1 == e.1).map Prod.snd = some e.2 := by
  decide

/-- R155: the words of the exchange at their reset values. -/
theorem State.warmExchange_shown {s : State} (h : s.zonesInArea) : s.warmExchange.showsExchangeOnceWritten := by
  rw [State.showsExchangeOnceWritten_iff, (State.warmExchange_exchange h).1]
  intro e he _
  unfold State.warmExchange
  generalize s.warmTokens = t
  rw [State.storeSystem_fst]
  show (t.store exchangeResetWords).word e.1 = e.2
  rw [State.word_store, exchangeResetWords_find e he, Option.getD_some]

theorem State.shown_resetFault {s : State} (h : s.showsExchangeOnceWritten) :
    (s.resetFault.storeSystem (faultPoints s s.resetFault)).1.showsExchangeOnceWritten := by
  refine ExchangeWordsKept.shown (s := s) ⟨fun i hl hh => ?_, ?_, ?_⟩ h
  · rw [State.storeSystem_fst]
    show (s.resetFault.store _).word i = _
    rw [State.word_store_ne _ _ _ fun x hx => by have := (faultPoints_range _ _).2 x hx; omega, State.word, State.resetFault,
      State.enterFault_frame, State.word]
  · rw [State.storeSystem_fst, State.resetFault, State.enterFault_frame]
    rfl
  · rw [State.storeSystem_fst, State.resetFault, State.enterFault_frame]
    rfl

theorem lawfulExchangePoints_warmReset {s : State} (h : s.lawfulExchangePoints) : s.warmReset.lawfulExchangePoints := by
  refine ⟨zonesLawful_kept.warm s h.1, ?_⟩
  rw [State.warmReset_eq]
  exact (StatusKept.timersWarmReset _).exchangeWords.shown (State.shown_resetFault (State.warmExchange_shown h.1.1))

theorem lawfulExchangePoints_freeWord {s : State} (h : s.lawfulExchangePoints) :
    ({ s with freeWordDue := false }.writeSystem ⟨[], [(54, natHalf s.exchange.free.length)]⟩).lawfulExchangePoints := by
  refine ⟨zonesLawful_kept.freeWord s h.1, ?_⟩
  have hdepth : ∀ p : Port, ({ s with freeWordDue := false }.writeSystem
      ⟨[], [(54, natHalf s.exchange.free.length)]⟩).word (55 + p.index) = s.word (55 + p.index) := fun p => by
    rw [State.writeSystem_word _ _ _ (by omega), State.word_store_ne _ _ _ fun x hx => by
      rw [List.mem_singleton.1 hx]
      dsimp only
      omega]
    rfl
  refine ⟨fun _ => ⟨?_, fun p => ?_⟩, fun p => ?_⟩
  · rw [State.writeSystem_word _ _ _ (by omega), State.word_store, State.writeSystem_exchange]
    rfl
  · rw [hdepth, State.writeSystem_exchange]
    exact h.2.2 p
  · rw [hdepth, State.writeSystem_exchange]
    exact h.2.2 p

theorem lawfulExchangePoints_kept : KeptByJoin State.lawfulExchangePoints where
  draws _ _ h := h
  phase _ _ h := h
  clock _ _ h := h
  link _ _ _ h := h
  port _ _ _ _ h := h
  begins _ _ _ _ _ h := h
  ends s p m r cause monitor _ _ hmonitor h := lawfulExchangePoints_endSession (s := s.setPort p r) h hmonitor _ _
  points s w hw h := ⟨zonesLawful_kept.points s w hw h.1, (StatusKept.plain s hw).exchangeWords.shown h.2⟩
  raise s c d p h := ⟨zonesLawful_raise s c d p h.1, (StatusKept.raise s c d p).exchangeWords.shown h.2⟩
  ownership _ _ h := h
  defines s z who bf bc wf wc rights c e hd h := ⟨zonesLawful_define s z who bf bc wf wc rights c e hd h.1, h.2⟩
  zone s z r r' hr hsucc h := ⟨zonesLawful_kept.zone s z r r' hr hsucc h.1, h.2⟩
  retires s z h := ⟨zonesLawful_kept.retires s z h.1, h.2⟩
  timers _ _ _ h := h
  unwatch _ _ h := h
  clearing s u z r hu hr h := ⟨zonesLawful_kept.clearing s u z r hu.1 hr h.1,
    (StatusKept.writeClearing s (ZoneRecord.definable_of_inArea (hu.1.1 z r hr).2.2 (.inl rfl))).exchangeWords.shown h.2⟩
  writes s zs w hb hx h := ⟨zonesLawful_kept.writes s zs w hb hx h.1,
    (StatusKept.writeZones s zs (State.definable_of_held h.1.1 hb hx)).exchangeWords.shown h.2⟩
  token _ _ _ _ h := h
  timer s n t h := ⟨zonesLawful_kept.timer s n t h.1,
    (StatusKept.timerPoints s (s.setTimer n t)).exchangeWords.shown (s := s.setTimer n t) h.2⟩
  tick s h := ⟨zonesLawful_kept.tick s h.1, (StatusKept.tickEvent s).exchangeWords.shown h.2⟩
  exchange _ _ := lawfulExchangePoints_exchange
  settings s p f _ h := h
  attend _ _ _ _ _ _ h := h
  faults s fs o hlist h := ⟨zonesLawful_kept.faults s fs o hlist h.1, (ExchangeWordsKept.writeFaults s fs o).shown h.2⟩
  warm _ := lawfulExchangePoints_warmReset
  power s ph links h := ⟨zonesLawful_kept.power s ph links h.1, fun hdue => (nomatch hdue), fun p => by cases p <;> rfl⟩
  freeWord _ := lawfulExchangePoints_freeWord

/-! ## Settled -/

/-- Settles O58: each law is kept by every change that the commands are made of. -/
theorem zonesStayLawful : Obligations.ZonesStayLawful :=
  ⟨fun s t h hstep => zonesLawful_kept.steps.step (fun _ _ h => h) s t h hstep,
    fun s t hz h hstep => (lawfulTimers_kept.steps.step (fun _ _ h => h) s t ⟨hz, h⟩ hstep).2,
    fun s t hz h hstep => (lawfulExchangePoints_kept.steps.step (fun _ _ h => h) s t ⟨hz, h⟩ hstep).2⟩

end Sys2Proof.Machine
end

section
/-! The laws of the fault list, of the tokens and of the message exchange at every step; then the laws of the tables, of the levels
and of the fault list are settled, and that every command goes on. -/

namespace Sys2Proof.Machine

/-! ## The fault list (R171) -/

theorem State.faultsLawful.congr {s t : State} (h : s.faultsLawful) (hfaults : t.faults = s.faults) : t.faultsLawful := by
  rw [State.faultsLawful, hfaults]
  exact h

theorem faultsLawful_writes : KeptByWrites State.faultsLawful where
  store _ _ h := h
  systemZone _ _ h := h
  count s z h := by
    unfold State.countZone
    split <;> exact h
  fire _ _ h := h
  run _ _ h := h

theorem faultsLawful_raise (s : State) (c : Cause) (d : Detail) (p : Port) (h : s.faultsLawful) : (s.raise c d p).faultsLawful :=
  h.congr (by rw [State.raise_frame])

theorem faultsLawful_actions : KeptByActions State.faultsLawful where
  points s w _ h := faultsLawful_writes.writeSystem s w h
  policy := faultsLawful_writes.writePolicy
  faults _ _ _ hlist h := faultsLawful_writes.writeSystem _ _ (hlist h)
  raise := faultsLawful_raise
  ownership _ _ h := h
  put _ _ _ h := h

theorem faultsLawful_kept : KeptByJoin State.faultsLawful where
  draws _ _ h := h
  phase _ _ h := h
  clock _ _ h := h
  link _ _ _ h := h
  port _ _ _ _ h := h
  begins _ _ _ _ _ h := h
  ends s p m r cause monitor _ _ hmonitor h := faultsLawful_actions.endSession hmonitor
    (fun t w _ => faultsLawful_writes.writeSystem t w) _ _ _ fun n => h.congr (by simp [State.endRecords])
  points s w _ h := faultsLawful_writes.writeSystem s w h
  raise := faultsLawful_raise
  ownership _ _ h := h
  defines _ _ _ _ _ _ _ _ _ _ _ h := h
  zone _ _ _ _ _ _ h := h
  retires _ _ h := h
  timers _ _ _ h := h
  unwatch _ _ h := h
  clearing s _ _ r _ _ h := faultsLawful_writes.writeClearing s r.zeros h
  writes s zs w _ _ h := faultsLawful_writes.writeZones s zs w h
  token _ _ _ _ h := h
  timer _ _ _ h := faultsLawful_writes.writeSystem _ _ h
  tick := faultsLawful_writes.tickEvent fun _ _ h => h
  exchange _ _ hstep _ h := faultsLawful_writes.writeSystem _ _ (h.congr (by rw [hstep.frame]))
  settings _ _ _ _ h := h
  attend _ _ _ _ _ _ h := h
  faults _ _ _ hlist h := faultsLawful_writes.writeSystem _ _ (hlist h)
  warm s h := faultsLawful_writes.warmReset (fun _ _ hu => hu) (fun _ _ _ hu => hu)
    (fun u hu => u.lawfulFaultList_enterFault 4088 .part 0 hu) s h
  power _ _ _ _ := ⟨Nat.zero_le _, List.nodup_nil, Nat.zero_le _⟩
  freeWord _ h := faultsLawful_writes.writeSystem _ _ h

/-- Settles O59: each law is kept by every change that the commands are made of. -/
theorem faultListStaysLawful : Obligations.FaultListStaysLawful :=
  ⟨fun s t h hstep => faultsLawful_kept.steps.step (fun _ _ h => h) s t h hstep,
    fun s t hz h hstep => (lawfulFaultPoints_kept.steps.step (fun _ _ h => h) s t ⟨hz, h⟩ hstep).2⟩

/-! ## The tokens (R100, R101, R106) -/

theorem tokensLawful_writes : KeptByWrites State.tokensLawful where
  store _ _ h := h
  systemZone _ _ h := h
  count s z h := by
    unfold State.countZone
    split <;> exact h
  fire _ _ h := h
  run _ _ h := h

theorem tokensLawful_raise (s : State) (c : Cause) (d : Detail) (p : Port) (h : s.tokensLawful) : (s.raise c d p).tokensLawful :=
  h.congr (by rw [State.raise_frame]) (by rw [State.raise_frame])

theorem tokensLawful_actions : KeptByActions State.tokensLawful where
  points s w _ h := tokensLawful_writes.writeSystem s w h
  policy := tokensLawful_writes.writePolicy
  faults _ _ _ _ h := tokensLawful_writes.writeSystem _ _ h
  raise := tokensLawful_raise
  ownership _ _ h := h
  put _ _ _ h := h

/-- R113: the records after the end of a port's session. -/
theorem tokensLawful_endRecords {s : State} {p : Port} {m : Membership} {r : PortRecord} (hm : (s.ports.get p).session = some m)
    (hr : r.session = none) (cause : EndCause) (h : s.tokensLawful) :
    ((s.setPort p r).endRecords ⟨p, m.number⟩ cause).tokensLawful := by
  have hended := h.tokensAtEnd (t := ((s.setPort p r).dropAttention p).mapTimers (Armed.detach ⟨p, m.number⟩)) rfl hm
    (by simp [State.session, State.dropAttention, hr]) (fun q hq => State.session_setPort_ne s p q r hq) cause.isLoss
  exact hended.congr (by simp [State.endRecords]) (by simp [State.endRecords])

/-- R115, R155: tokens all FREE, and no session. -/
theorem tokensLawful_of_free {s : State} (h : ∀ i, i < Config.tokenCount → (s.token i).hold = none ∧ (s.token i).waiters = []) :
    s.tokensLawful := by
  refine ⟨fun i hi => ?_, fun i j hi hj hne w hw => ?_, fun p hcycle => ?_⟩
  · obtain ⟨hhold, hwaiters⟩ := h i hi
    rw [hhold, hwaiters]
    exact ⟨fun _ => rfl, fun _ hh => (nomatch hh), fun _ hw => absurd hw List.not_mem_nil, List.nodup_nil⟩
  · rw [(h i hi).2] at hw
    cases hw
  · obtain ⟨c, ⟨i, g, hi, -, hg, -⟩, -⟩ := Relation.TransGen.head'_iff.1 hcycle
    rw [(h i hi).1] at hg
    cases hg

/-- R115: the tokens of a warm reset. -/
theorem State.token_tokensWarmReset (s : State) {i : Nat} (hi : i < Config.tokenCount) :
    s.tokensWarmReset.token i = (s.token i).warmReset := by
  have hfold : ∀ (ts : List Nat), ts.Nodup → ∀ (u : State),
      (ts.foldl (fun s t => s.setToken t (s.token t).warmReset) u).token i =
        if i ∈ ts then (u.token i).warmReset else u.token i := by
    intro ts
    induction ts with
    | nil => exact fun _ _ => rfl
    | cons t rest ih =>
      intro hnodup u
      obtain ⟨hnew, hrest⟩ := List.nodup_cons.1 hnodup
      rw [List.foldl_cons, ih hrest, State.token_setToken]
      by_cases hit : i = t
      · subst hit
        simp [hnew]
      · simp [hit]
  rw [State.tokensWarmReset, hfold _ List.nodup_range, if_pos (List.mem_range.2 hi)]

theorem tokensLawful_warmReset (s : State) : s.warmReset.tokensLawful := by
  have hreset : ∀ u : State, u.tokensWarmReset.tokensLawful := fun u => tokensLawful_of_free fun i hi => by
    rw [State.token_tokensWarmReset u hi]
    exact ⟨rfl, rfl⟩
  have htokens : s.warmTokens.tokensLawful := tokensLawful_writes.storeSystem _ _ (hreset _)
  have hexchange : s.warmExchange.tokensLawful := tokensLawful_writes.storeSystem _ _ htokens
  have hfaults : s.warmFaults.tokensLawful := tokensLawful_writes.storeSystem _ _
    (hexchange.congr (by rw [State.resetFault, State.enterFault_frame]) (by rw [State.resetFault, State.enterFault_frame]))
  rw [State.warmReset_eq]
  exact tokensLawful_writes.timersWarmReset _ hfaults

theorem tokensLawful_kept : KeptByJoin State.tokensLawful where
  draws _ _ h := h
  phase _ _ h := h
  clock _ _ h := h
  link _ _ _ h := h
  port s p r hr h := by
    refine h.of_session rfl fun q w hw => ?_
    by_cases hq : q = p
    · subst hq
      obtain ⟨m, hm, hm', -⟩ := hr
      rw [State.session, hm] at hw
      rw [State.session_setPort_same, ← hw]
      obtain ⟨m', hm'', hnumber⟩ := Option.map_eq_some_iff.1 hm'
      rw [hm'', Option.map_some, Option.map_some, hnumber]
    · rwa [State.session_setPort_ne s p q r hq]
  begins s p number m hp h := by
    refine h.of_session rfl fun q w hw => ?_
    have hq : q ≠ p := by
      rintro rfl
      rw [State.session, hp.1] at hw
      cases hw
    rw [← hw]
    exact State.session_setPort_ne s p q (.online m) hq
  ends s p m r cause monitor hm hr hmonitor h := tokensLawful_actions.endSession hmonitor
    (fun t w _ => tokensLawful_writes.writeSystem t w) _ _ _ fun n => tokensLawful_endRecords hm hr cause h
  points s w _ h := tokensLawful_writes.writeSystem s w h
  raise := tokensLawful_raise
  ownership _ _ h := h
  defines _ _ _ _ _ _ _ _ _ _ _ h := h
  zone _ _ _ _ _ _ h := h
  retires _ _ h := h
  timers _ _ _ h := h
  unwatch _ _ h := h
  clearing s _ _ r _ _ h := tokensLawful_writes.writeClearing s r.zeros h
  writes s zs w _ _ h := tokensLawful_writes.writeZones s zs w h
  token _ _ _ hk h := hk.1 h
  timer _ _ _ h := tokensLawful_writes.writeSystem _ _ h
  tick := tokensLawful_writes.tickEvent fun _ _ h => h
  exchange _ _ hstep _ h := tokensLawful_writes.writeSystem _ _ (h.congr (by rw [hstep.frame]) (by rw [hstep.frame]))
  settings _ _ _ _ h := h
  attend _ _ _ _ _ _ h := h
  faults _ _ _ _ h := tokensLawful_writes.writeSystem _ _ h
  warm s _ := tokensLawful_warmReset s
  power _ _ _ _ := tokensLawful_of_free fun _ _ => ⟨rfl, rfl⟩
  freeWord _ h := tokensLawful_writes.writeSystem _ _ h

/-- Settles O56: the canonical form and the laws of the tokens are kept by every change that the commands are made of. -/
theorem tablesStayCanonical : Obligations.TablesStayCanonical :=
  ⟨fun s t h hstep => canonical_kept.steps.step (fun _ _ h => h) s t h hstep,
    fun s t h hstep => tokensLawful_kept.steps.step (fun _ _ h => h) s t h hstep⟩

/-! ## The message exchange (R136 to R139) -/

theorem exchangeLawful_writes : KeptByWrites State.exchangeLawful where
  store _ _ h := h
  systemZone _ _ h := h
  count s z h := by
    unfold State.countZone
    split <;> exact h
  fire _ _ h := h
  run _ _ h := h

theorem exchangeLawful_raise (s : State) (c : Cause) (d : Detail) (p : Port) (h : s.exchangeLawful) :
    (s.raise c d p).exchangeLawful :=
  h.congr (State.raise_exchange ..) fun q => by rw [State.raise_frame]; rfl

theorem exchangeLawful_actions : KeptByActions State.exchangeLawful where
  points s w _ h := exchangeLawful_writes.writeSystem s w h
  policy := exchangeLawful_writes.writePolicy
  faults _ _ _ _ h := exchangeLawful_writes.writeSystem _ _ h
  raise := exchangeLawful_raise
  ownership _ _ h := h
  put _ _ _ h := h

/-- R147: the records after the end of a port's session. -/
theorem exchangeLawful_endRecords {s : State} {p : Port} {m : Membership} {r : PortRecord} (hr : r.session = none)
    (cause : EndCause) (h : s.exchangeLawful) : ((s.setPort p r).endRecords ⟨p, m.number⟩ cause).exchangeLawful :=
  h.messagesAtEnd (by simp [State.dropAttention])
    (by
      rw [State.tokensAtEnd_session]
      show (s.setPort p r).session p = none
      rw [State.session_setPort_same, hr]
      rfl)
    fun q hq => by
      rw [State.tokensAtEnd_session]
      exact State.session_setPort_ne s p q r hq

theorem exchangeLawful_port {s : State} {p : Port} {r : PortRecord} (hr : r.continues (s.ports.get p) s.clock) (h : s.exchangeLawful) :
    (s.setPort p r).exchangeLawful := by
  refine h.congr rfl fun q => ?_
  by_cases hq : q = p
  · subst hq
    obtain ⟨m, hm, hm', -⟩ := hr
    obtain ⟨m', hm'', hnumber⟩ := Option.map_eq_some_iff.1 hm'
    rw [State.session_setPort_same, hm'', State.session, hm, Option.map_some, Option.map_some, hnumber]
  · exact State.session_setPort_ne s p q r hq

theorem exchangeLawful_kept : Kept State.exchangeLawful where
  draws _ _ h := h
  phase _ _ h := h
  link _ _ _ h := h
  port _ _ _ := exchangeLawful_port
  ends s p m r cause monitor _ hr hmonitor h := exchangeLawful_actions.endSession hmonitor
    (fun t w _ => exchangeLawful_writes.writeSystem t w) _ _ _ fun n => exchangeLawful_endRecords hr cause h
  points s w _ h := exchangeLawful_writes.writeSystem s w h
  raise := exchangeLawful_raise
  ownership _ _ h := h
  defines _ _ _ _ _ _ _ _ _ _ _ h := h
  zone _ _ _ _ _ _ h := h
  retires _ _ h := h
  timers _ _ _ h := h
  unwatch _ _ h := h
  clearing s _ _ r _ _ h := exchangeLawful_writes.writeClearing s r.zeros h
  writes s zs w _ _ h := exchangeLawful_writes.writeZones s zs w h
  token _ _ _ _ h := h
  timer _ _ _ h := exchangeLawful_writes.writeSystem _ _ h
  tick := exchangeLawful_writes.tickEvent fun _ _ h => h
  exchange _ _ _ hlaw h := exchangeLawful_writes.writeSystem _ _ (hlaw h)
  settings _ _ _ hf h := h.mapMessages _ hf.1
  attend _ _ _ _ _ _ h := h
  faults _ _ _ _ h := exchangeLawful_writes.writeSystem _ _ h
  warm s _ := exchangeLawful_writes.warmReset (fun _ _ hu => hu) (fun _ _ _ hu => hu)
    (fun u hu => hu.congr (by rw [State.resetFault, State.enterFault_frame]) fun q => by
      rw [State.resetFault, State.enterFault_frame]; rfl) s (State.exchangeLawful_reset rfl)
  power _ _ _ _ := State.exchangeLawful_reset rfl
  freeWord _ h := exchangeLawful_writes.writeSystem _ _ h

/-! ### A JOIN, while no message in use bears the number to come (R22) -/

/-- R22: no message in use was sent by a session with the number of the next one. -/
def State.freshNumber (s : State) : Prop := ∀ b k, s.buffer b = some k → k.sender.number ≠ seqNext s.sessionCounter

theorem State.freshNumber.congr {s t : State} (h : s.freshNumber) (hcounter : t.sessionCounter = s.sessionCounter)
    (hbuffer : ∀ b k, t.buffer b = some k → ∃ k', s.buffer b = some k' ∧ k'.sender = k.sender) : t.freshNumber := by
  intro b k hk
  obtain ⟨k', hk', hsender⟩ := hbuffer b k hk
  rw [hcounter, ← hsender]
  exact h b k' hk'

theorem State.buffer_discardEntry {s : State} {e : Entry} {b : Nat} {k : Buffer} (hk : (s.discardEntry e).buffer b = some k) :
    ∃ k', s.buffer b = some k' ∧ k'.sender = k.sender := by
  cases hb : s.buffer e.buffer with
  | none =>
    have hsame : (s.discardEntry e).buffer b = s.buffer b := by
      unfold State.discardEntry State.releaseBuffer
      rw [hb]
      rfl
    exact ⟨k, hsame ▸ hk, rfl⟩
  | some j =>
    rw [State.discardEntry_buffer s e j hb] at hk
    split at hk
    · subst_vars
      split at hk
      · cases hk
      · cases hk
        exact ⟨j, hb, rfl⟩
    · exact ⟨k, hk, rfl⟩

theorem State.buffer_undeliverAll {q : Port} {es : List Entry} {s : State} {b : Nat} {k : Buffer}
    (hk : (s.undeliverAll q es).1.buffer b = some k) : ∃ k', s.buffer b = some k' ∧ k'.sender = k.sender := by
  induction es generalizing s with
  | nil => exact ⟨k, hk, rfl⟩
  | cons e rest ih =>
    obtain ⟨k', hk', hsender⟩ := ih hk
    have hone : ∃ k'', s.buffer b = some k'' ∧ k''.sender = k'.sender := by
      unfold State.undelivered at hk'
      split at hk'
      · split at hk'
        · rw [State.appendEntry_buffer] at hk'
          exact ⟨k', hk', rfl⟩
        · exact State.buffer_discardEntry hk'
      · exact State.buffer_discardEntry hk'
    obtain ⟨k'', hk'', hsender'⟩ := hone
    exact ⟨k'', hk'', hsender'.trans hsender⟩

theorem State.buffer_endRecords {s : State} {ended : SessionRef} {cause : EndCause} {b : Nat} {k : Buffer}
    (hk : (s.endRecords ended cause).buffer b = some k) : ∃ k', s.buffer b = some k' ∧ k'.sender = k.sender := by
  obtain ⟨k', hk', hsender⟩ := State.buffer_undeliverAll hk
  refine ⟨k', ?_, hsender⟩
  rw [← hk']
  simp [State.buffer, State.emptyQueues, State.dropAttention]

theorem State.freshNumber.qualify {s : State} (h : s.freshNumber) (p : Port) (n : Half) : (s.qualify p n).freshNumber :=
  h.congr (by simp) fun b k hk => ⟨k, by rwa [State.buffer, State.qualify_exchange] at hk, rfl⟩

theorem State.freshNumber.replaceSession {s : State} (h : s.freshNumber) (p : Port) : (s.replaceSession p).freshNumber := by
  unfold State.replaceSession
  split
  · refine h.congr (by simp) fun b k hk => ?_
    rw [State.endSession_buffer] at hk
    exact State.buffer_endRecords (s := s.setPort p _) hk
  · exact h

/-- R22: the JOIN's session has the next number. -/
theorem exchangeLawful_beginSession {s : State} (h : s.exchangeLawful) (hfresh : s.freshNumber) (p : Port) (time : Byte) :
    (s.beginSession p time).exchangeLawful := by
  refine exchangeLawful_kept.raisePeer _ p (exchangeLawful_kept.writeMonitor _ p ?_)
  exact h.begins (p := p) (r := ⟨p, seqNext s.sessionCounter⟩) rfl (by simp [State.session, PortRecord.session]) (fun q hq => by simp [State.session, hq])
    fun b k hk hsender => hfresh b k hk (congrArg SessionRef.number hsender)

theorem exchangeLawful_steps : StepKeeps (fun s => s.exchangeLawful ∧ s.freshNumber) State.exchangeLawful :=
  exchangeLawful_kept.stepsFrom (fun s hs => exchangeLawful_kept.takeAllDue s hs) (fun _ hs => hs.1) (fun _ _ _ hs => hs)
    (fun s p n ⟨hlaws, hfresh⟩ => ⟨exchangeLawful_kept.qualify s p n hlaws, hfresh.qualify p n⟩)
    fun s p n body ⟨hlaws, hfresh⟩ => by
      unfold Machine.serviceOf Machine.serveJoin
      dsimp only
      split
      · split
        · exact exchangeLawful_beginSession (exchangeLawful_kept.replaceSession s p hlaws) (hfresh.replaceSession p) p _
        · exact hlaws
      · exact hlaws

/-- Settles O57: the levels are kept by every change that the commands are made of; the laws of the exchange by every change but
the beginning of a session, and by that one while the number to come is fresh. -/
theorem levelsFollowTheirCauses : Obligations.LevelsFollowTheirCauses :=
  ⟨fun s t h hstep => attentive_kept.steps.step (fun _ _ h => h) s t h hstep,
    fun s t h hfresh hstep => exchangeLawful_steps.step (fun _ _ h => h) s t ⟨h, hfresh⟩ hstep⟩

/-! ## Every command goes on -/

end Sys2Proof.Machine
end

section
/-! The step and the queue of commands (entry 12): every command goes on and leaves the commands that wait. -/

namespace Sys2Proof.Machine

theorem pending_writes (q : List Instr) : KeptByWrites fun s => s.pending = q where
  store _ _ h := h
  systemZone _ _ h := h
  count s z h := by
    unfold State.countZone
    split <;> exact h
  fire _ _ h := h
  run _ _ h := h

theorem pending_kept (q : List Instr) : KeptByJoin fun s => s.pending = q where
  draws _ _ h := h
  phase _ _ h := h
  clock _ _ h := h
  link _ _ _ h := h
  port _ _ _ _ h := h
  begins _ _ _ _ _ h := h
  ends _ _ _ _ _ _ _ _ _ h := (State.endSession_pending ..).trans h
  points _ _ _ h := (State.writeSystem_pending ..).trans h
  raise s c d p h := by rwa [State.raise_frame]
  ownership _ _ h := h
  defines _ _ _ _ _ _ _ _ _ _ _ h := h
  zone _ _ _ _ _ _ h := h
  retires _ _ h := h
  timers _ _ _ h := h
  unwatch _ _ h := h
  clearing s _ _ r _ _ h := (pending_writes q).writeClearing s r.zeros h
  writes s zs w _ _ h := (pending_writes q).writeZones s zs w h
  token _ _ _ _ h := h
  timer _ _ _ h := (State.writeSystem_pending ..).trans h
  tick := (pending_writes q).tickEvent fun _ _ h => h
  exchange _ _ hstep _ h := (State.writeSystem_pending ..).trans (by rwa [hstep.frame])
  settings _ _ _ _ h := h
  attend _ _ _ _ _ _ h := h
  faults _ _ _ _ h := (State.writeSystem_pending ..).trans h
  warm s h := (pending_writes q).warmReset (fun _ _ hu => hu) (fun _ _ _ hu => hu)
    (fun u hu => by rwa [State.resetFault, State.enterFault_frame]) s h
  power _ _ _ h := h
  freeWord _ h := (State.writeSystem_pending ..).trans h

/-- Every row of the command table names a next state. -/
theorem exec_next (c : Instr) (s : State) : ∃ t, exec c s = .next t := by
  cases c <;> exact ⟨_, rfl⟩

theorem exec_pending {c : Instr} {s t : State} (h : exec c s = .next t) : t.pending = s.pending :=
  (pending_kept s.pending).steps.exec c s t rfl h

/-- Settles O1: a step is the front command on the state with the rest of the queue. -/
theorem stepTakesTheFrontCommand : Obligations.StepTakesTheFrontCommand := ⟨fun _ _ _ => rfl, fun _ => rfl⟩

/-- Settles O2: no row refuses or faults, and no change that the commands are made of touches the queue. -/
theorem everyCommandGoesOn : Obligations.EveryCommandGoesOn := fun c s => by
  obtain ⟨t, ht⟩ := exec_next c s
  exact ⟨t, ht, exec_pending ht⟩

end Sys2Proof.Machine
end

section
/-! What each command leaves alone: the blocks that a request's kind does not reach, and those that an event does not. -/

namespace Sys2Proof.Machine

/-! ## Requests (R11, R12) -/

theorem keeps_dispose {bs : List Block} (s : State) (p : Port) (r : Request) {serve : State → State × Answer}
    (hserve : ∀ u, Keeps (requestBlocks p ++ bs) u (serve u).1) : Keeps (requestBlocks p ++ bs) s (s.dispose p r serve) := by
  unfold State.dispose
  split
  · exact (keeps_setLink _ _ _).mono (by simp [requestBlocks])
  · exact ((keeps_qualify _ _ _).mono (by simp [requestBlocks])).trans ((hserve _).trans
      ((keeps_replied _ _ _).mono (by simp [requestBlocks])))

theorem keeps_request {bs : List Block} (s : State) (p : Port) (r : Request) {serve : State → State × Answer}
    (hserve : ∀ u, Keeps (requestBlocks p ++ bs) u (serve u).1) : Keeps (requestBlocks p ++ bs) s (s.request p r serve) := by
  unfold State.request
  split
  · exact keeps_dispose s p r hserve
  · exact .refl _ _

/-- Settles O54: a request changes its port's record and link, and its service the blocks of its kind. -/
theorem requestsReachTheirBlocksAlone : Obligations.RequestsReachTheirBlocksAlone := by
  intro s t k p tag session body b ht hb
  rw [exec_command] at ht
  cases ht
  exact keeps_request s p _ (fun u => keeps_serviceOf k p session body u) b hb

/-- What the end of a selection may reach: what any request may. -/
theorem mem_selectionEnd_of_reaches (k : Kind) (p : Port) :
    ∀ b ∈ requestBlocks p ++ requestReaches k, b ∈ requestBlocks p ++ ([.sessionCounter, .definablePoints] ++ endBlocks) := by
  cases k <;> simp [requestReaches, endBlocks, requestBlocks]

/-- R6: a selection's end, whatever request it carries. -/
theorem keeps_endSelection (s : State) (p : Port) :
    Keeps (requestBlocks p ++ ([.sessionCounter, .definablePoints] ++ endBlocks)) s (s.endSelection p) := by
  have hlink : ∀ (u : State) (l : Link), Keeps (requestBlocks p ++ ([.sessionCounter, .definablePoints] ++ endBlocks)) u
      (u.setLink p l) := fun u l => (keeps_setLink u p l).mono (by simp [requestBlocks])
  unfold State.endSelection
  dsimp only
  split
  · exact hlink _ _
  · split
    · exact (hlink _ _).trans (hlink _ _)
    · rename_i r _
      refine (hlink _ _).trans (keeps_dispose _ p r fun u => ?_)
      unfold serveRequest
      cases Kind.ofCode r.kind with
      | some k => exact (keeps_serviceOf k p r.session r.body u).mono (mem_selectionEnd_of_reaches k p)
      | none => exact .refl _ _

/-! ## Expiries and the tick event -/

theorem keeps_firstExpiry (s : State) (p : Port) : Keeps [.port p] s (s.firstExpiry p) := by
  unfold State.firstExpiry
  split
  · split
    · exact ((keeps_setPort _ _ _).trans (keeps_writeSystem _ _ _ (monitorPoints_inSystem _ _))).trans (keeps_raisePeer _ _ _)
    · exact .refl _ _
  · exact .refl _ _
  · exact .refl _ _
  · exact .refl _ _

theorem keeps_secondExpiry (s : State) (p : Port) : Keeps ([.port p, .definablePoints] ++ endBlocks) s (s.secondExpiry p) := by
  unfold State.secondExpiry
  split
  · split
    · refine (((keeps_setPort _ _ _).mono (by simp)).trans (keeps_endSession _ _ _ _ _ (fun b hb => by simp [hb]) (by simp) fun a ha u => ?_)).trans
        (keeps_raisePeer _ _ _)
      simp only [List.flatten_cons, List.flatten_nil, List.append_nil, List.mem_append, List.mem_singleton] at ha
      rcases ha with rfl | rfl
      · exact keeps_act_system _ u _ (monitorPoints_inSystem _ _)
      · exact (keeps_act_raise u _).mono (by simp [endBlocks])
    · exact .refl _ _
  · exact .refl _ _
  · exact .refl _ _
  · exact .refl _ _

theorem keeps_takeoverExpiry (s : State) (z : Nat) : Keeps [.zones, .faults] s (s.takeoverExpiry z) := by
  unfold State.takeoverExpiry
  split
  · exact .refl _ _
  · split
    · split
      · exact keeps_takeover _ _ _
      · exact .refl _ _
    · exact .refl _ _
    · exact .refl _ _
    · exact .refl _ _

theorem keeps_holdExpiry (s : State) (n : Nat) : Keeps [.tokens, .faults] s (s.holdExpiry n) := by
  unfold State.holdExpiry
  split
  · exact .refl _ _
  · split
    · exact .refl _ _
    · split
      · exact keeps_revoke _ _ _ _
      · exact .refl _ _

theorem keeps_coalesceExpiry (s : State) (p : Port) : Keeps [.exchange] s (s.coalesceExpiry p) := by
  unfold State.coalesceExpiry
  split
  · exact .refl _ _
  · split
    · exact keeps_coalesceExpires _ _
    · exact .refl _ _

/-- R119: that the tick event of the clock's value is due stands in no block. -/
theorem keeps_tickDue (bs : List Block) (s : State) (due : Bool) : Keeps bs s { s with tickDue := due } :=
  fun b _ => by
    have hsame := Block.same_refl s b
    cases b <;> exact hsame

theorem keeps_tickEvent (bs : List Block) (s : State) : Keeps bs s s.tickEvent := by
  unfold State.tickEvent
  split
  · exact ((keeps_tickDue bs s false).trans (keeps_mapTimers_run _ _ _ fun a => a.settings_tick s.bits s.clock)).trans
      (keeps_writeSystem _ _ _ (timerPoints_inSystem _ _))
  · exact .refl _ _

/-- Each expiry and the tick event, at their own commands. -/
theorem keeps_takeDue (s : State) (d : Due) : Keeps (eventReaches d.command) s (s.takeDue d) := by
  cases d with
  | first p => exact keeps_firstExpiry s p
  | second p => exact keeps_secondExpiry s p
  | takeover z => exact keeps_takeoverExpiry s z
  | hold n => exact keeps_holdExpiry s n
  | coalesce p => exact keeps_coalesceExpiry s p
  | tick => exact keeps_tickEvent _ s

/-- R17: an advance of the clock reaches what an event due may reach. -/
theorem keeps_advance (s : State) :
    Keeps (eventReaches .cellClockAdvance) s { s.takeAllDue with clock := s.clock + 1, tickDue := true } := by
  have hdue : Keeps (eventReaches .cellClockAdvance) s s.takeAllDue :=
    State.takeAllDue_keeps (Keeps _ s) s (keeps_freeDraws _ s) fun u d _ hu => hu.trans ((keeps_takeDue u d).mono (by
      cases d with
      | first p => cases p <;> simp [eventReaches, Due.command]
      | second p => cases p <;> simp [eventReaches, Due.command, endBlocks]
      | _ => simp [eventReaches, Due.command, endBlocks]))
  exact hdue.trans fun b hb => by
    have hsame := Block.same_refl s.takeAllDue b
    cases b
    case clock => exact absurd (by simp [eventReaches]) hb
    all_goals exact hsame

/-! ## The resets -/

theorem keeps_phase (s : State) (ph : ResetPhase) : Keeps [.resetPhase] s { s with phase := ph } := fun b hb => by
  have hsame := Block.same_refl s b
  cases b
  case resetPhase => exact absurd (by simp) hb
  all_goals exact hsame

theorem keeps_freeWordDue (bs : List Block) (s : State) (due : Bool) : Keeps bs s { s with freeWordDue := due } :=
  fun b _ => by
    have hsame := Block.same_refl s b
    cases b <;> exact hsame

theorem mem_allBlocks (b : Block) : b ∈ allBlocks := by
  cases b
  case port p => cases p <;> decide
  case link p => cases p <;> decide
  all_goals decide

/-! ## Settled -/

/-- Settles O55: each event changes its port's link, or what its expiry, its reset or the request that it carries may reach. -/
theorem eventsReachTheirBlocksAlone : Obligations.EventsReachTheirBlocksAlone := by
  intro s t c b hrequest ht
  revert b
  have due : ∀ d : Due, exec d.command s = .next t → Keeps (eventReaches d.command) s t := by
    intro d hd
    have htaken : t = s.takeDue d := by cases d <;> (cases hd; rfl)
    exact htaken ▸ keeps_takeDue s d
  show Keeps (eventReaches c) s t
  cases c
  case selectionStart p =>
    cases ht
    split
    · split <;> exact keeps_setLink _ _ _
    · exact .refl _ _
    · exact .refl _ _
  case statusByteComplete p =>
    cases ht
    split
    · exact keeps_setLink _ _ _
    · exact .refl _ _
    · exact .refl _ _
    · exact .refl _ _
  case byteShifted p b =>
    cases ht
    split
    · exact keeps_setLink _ _ _
    · exact .refl _ _
    · exact .refl _ _
  case ignoredSelectionEnd p =>
    cases ht
    split
    · exact keeps_setLink _ _ _
    · exact .refl _ _
    · exact .refl _ _
  case selectionEnd p =>
    cases ht
    split
    · exact (keeps_endSelection s p).mono (by simp [eventReaches])
    · exact .refl _ _
    · exact .refl _ _
  case unknownKind p tag kind n body =>
    cases ht
    exact (keeps_request (bs := []) s p _ fun u => .refl _ u).mono (by simp [eventReaches])
  case cellClockAdvance =>
    cases ht
    split
    · exact keeps_advance s
    · exact .refl _ _
  case warmReset =>
    intro b hb
    exact absurd (mem_allBlocks b) hb
  case powerOnReset =>
    intro b hb
    exact absurd (mem_allBlocks b) hb
  case rstnRise =>
    cases ht
    split
    · exact keeps_phase s _
    · exact .refl _ _
  case powerOnResetEnd low =>
    cases ht
    split
    · exact keeps_phase s _
    · exact .refl _ _
  case freeBufferWordWrite =>
    cases ht
    split
    · exact (keeps_freeWordDue _ s false).trans (keeps_writeSystem _ _ _ ⟨by simp, by simp⟩)
    · exact .refl _ _
  case monitorFirstExpiry p => exact due (.first p) ht
  case monitorSecondExpiry p => exact due (.second p) ht
  case takeoverDeadlineExpiry z => exact due (.takeover z) ht
  case holdDeadlineExpiry n => exact due (.hold n) ht
  case coalesceDeadlineExpiry p => exact due (.coalesce p) ht
  case timerTick => exact due .tick ht
  case identify p tag n body => exact absurd rfl (hrequest .identify p tag n body)
  case join p tag n body => exact absurd rfl (hrequest .join p tag n body)
  case leave p tag n body => exact absurd rfl (hrequest .leave p tag n body)
  case ping p tag n body => exact absurd rfl (hrequest .ping p tag n body)
  case defineZone p tag n body => exact absurd rfl (hrequest .defineZone p tag n body)
  case retireZone p tag n body => exact absurd rfl (hrequest .retireZone p tag n body)
  case setZonePolicy p tag n body => exact absurd rfl (hrequest .setZonePolicy p tag n body)
  case loadSafeImage p tag n body => exact absurd rfl (hrequest .loadSafeImage p tag n body)
  case queryZone p tag n body => exact absurd rfl (hrequest .queryZone p tag n body)
  case publish p tag n body => exact absurd rfl (hrequest .publish p tag n body)
  case snapshot p tag n body => exact absurd rfl (hrequest .snapshot p tag n body)
  case readPoints p tag n body => exact absurd rfl (hrequest .readPoints p tag n body)
  case claim p tag n body => exact absurd rfl (hrequest .claim p tag n body)
  case release p tag n body => exact absurd rfl (hrequest .release p tag n body)
  case handOver p tag n body => exact absurd rfl (hrequest .handOver p tag n body)
  case acquire p tag n body => exact absurd rfl (hrequest .acquire p tag n body)
  case releaseToken p tag n body => exact absurd rfl (hrequest .releaseToken p tag n body)
  case cancelWait p tag n body => exact absurd rfl (hrequest .cancelWait p tag n body)
  case setTokenLimit p tag n body => exact absurd rfl (hrequest .setTokenLimit p tag n body)
  case queryTokens p tag n body => exact absurd rfl (hrequest .queryTokens p tag n body)
  case setTimer p tag n body => exact absurd rfl (hrequest .setTimer p tag n body)
  case resetTimer p tag n body => exact absurd rfl (hrequest .resetTimer p tag n body)
  case freeTimer p tag n body => exact absurd rfl (hrequest .freeTimer p tag n body)
  case queryTimer p tag n body => exact absurd rfl (hrequest .queryTimer p tag n body)
  case send p tag n body => exact absurd rfl (hrequest .send p tag n body)
  case receive p tag n body => exact absurd rfl (hrequest .receive p tag n body)
  case flushQueue p tag n body => exact absurd rfl (hrequest .flushQueue p tag n body)
  case setCoalesce p tag n body => exact absurd rfl (hrequest .setCoalesce p tag n body)
  case setWatch p tag n body => exact absurd rfl (hrequest .setWatch p tag n body)
  case clearWatch p tag n body => exact absurd rfl (hrequest .clearWatch p tag n body)
  case readAttention p tag n body => exact absurd rfl (hrequest .readAttention p tag n body)
  case setAttentionMask p tag n body => exact absurd rfl (hrequest .setAttentionMask p tag n body)
  case raiseFault p tag n body => exact absurd rfl (hrequest .raiseFault p tag n body)
  case clearFault p tag n body => exact absurd rfl (hrequest .clearFault p tag n body)
  case ackFault p tag n body => exact absurd rfl (hrequest .ackFault p tag n body)
  case readFaults p tag n body => exact absurd rfl (hrequest .readFaults p tag n body)

end Sys2Proof.Machine
end

section
/-! The values at reset, the ways out of a reset (R19, R20), and a selection of a link (R2, R4, R5, R19). -/

namespace Sys2Proof.Machine

/-! ## The power-on values -/

/-- Settles O3: each table of the power-on state is empty and each per-port value one for all ports. -/
theorem resetHoldsThePowerOnValues : Obligations.ResetHoldsThePowerOnValues := by
  refine ⟨⟨rfl, rfl, rfl, rfl⟩, fun p => ?_, fun p => ?_, ⟨rfl, rfl, rfl, fun _ => rfl⟩, fun _ => ⟨rfl, rfl⟩,
    fun _ => ⟨rfl, rfl, rfl, rfl⟩, fun _ => rfl, ⟨fun _ => rfl, rfl, rfl, rfl⟩, rfl, rfl, rfl⟩
  · cases p <;> exact ⟨rfl, rfl, rfl, rfl, rfl, rfl⟩
  · cases p <;> exact ⟨rfl, rfl, rfl, rfl, rfl, rfl, rfl, rfl, rfl, rfl⟩

theorem deadlinesAhead_reset : State.reset.deadlinesAhead := by
  refine ⟨fun p m hm => ?_, fun z r d _ _ hr => (nomatch hr), fun n h d _ hh => (nomatch hh), fun p e d he => ?_⟩
  · cases p <;> cases hm
  · cases p <;> cases he

/-- R156: the exchange's first event writes word 54. -/
theorem showsExchange_freeBufferWordWrite :
    ∃ t, exec .freeBufferWordWrite State.reset = .next t ∧ t.showsExchange := by
  have hlawful : State.reset.lawfulExchangePoints :=
    ⟨zonesLawful_of_undefined fun _ => rfl, fun hdue => (nomatch hdue), fun p => by cases p <;> rfl⟩
  refine ⟨_, rfl, (lawfulExchangePoints_freeWord hlawful).2.1 ?_⟩
  rw [State.writeSystem_freeWordDue]

/-- Settles O60: the laws that every step keeps hold of the power-on values. -/
theorem lawsHoldAtReset : Obligations.LawsHoldAtReset :=
  ⟨canonical_powerOn .., attentive_of_fresh rfl rfl rfl, zonesLawful_of_undefined fun _ => rfl,
    ⟨Nat.zero_le _, List.nodup_nil, Nat.zero_le _⟩, tokensLawful_of_free fun _ _ => ⟨rfl, rfl⟩, fun _ _ => ⟨rfl, rfl⟩,
    ⟨⟨rfl, rfl, rfl, rfl⟩, rfl, rfl⟩, State.exchangeLawful_reset rfl,
    ⟨fun hdue => (nomatch hdue), fun p => by cases p <;> rfl⟩, deadlinesAhead_reset, showsExchange_freeBufferWordWrite⟩

/-! ## Out of a reset (R19, R20) -/

/-- R156: the write of word 54 alone changes no bit, so nothing follows from it. -/
theorem State.writeSystem_word54 (s : State) (x : Half) :
    s.writeSystem ⟨[], [(54, x)]⟩ = { s with words := s.words.write 0 54 x } :=
  State.writeSystem_no_edges s _ fun _ => rfl

/-- Settles O53: each row's two branches. -/
theorem partLeavesItsResets : Obligations.PartLeavesItsResets := by
  intro s
  have hword : s.phase = .running → s.freeWordDue = true → s.exchange.free = List.range 64 →
      exec .freeBufferWordWrite s = .next { s with freeWordDue := false, words := s.words.write 0 54 64 } := by
    intro hphase hdue hfree
    show Host.Outcome.next _ = _
    rw [if_pos ⟨hphase, hdue⟩, State.writeSystem_word54, hfree]
    rfl
  refine ⟨fun h => congrArg _ (if_pos h), fun h => congrArg _ (if_neg h), fun sel => ⟨_, rfl, rfl, fun p => by cases p <;> rfl⟩,
    fun low h => congrArg _ (if_pos h), fun low h => congrArg _ (if_neg h), hword, fun h => congrArg _ (if_neg ?_)⟩
  rintro ⟨hphase, hdue⟩
  rcases h with h | h
  · exact h hphase
  · rw [hdue] at h
    cases h

/-! ## A selection (R2, R4, R5, R19) -/

/-- Settles O4: a selection is captured where the part runs, and marked IGNORED where it does not. -/
theorem selectionStartTakesOrIgnores : Obligations.SelectionStartTakesOrIgnores := by
  intro s p hidle
  constructor
  · intro hrun
    show Host.Outcome.next _ = _
    rw [hidle]
    exact congrArg _ (if_pos hrun)
  · intro hheld
    refine ⟨s.setLink p (s.links.get p).ignore, ?_, ?_⟩
    · show Host.Outcome.next _ = _
      rw [hidle]
      exact congrArg _ (if_neg hheld)
    · simp [Link.ignore]

namespace Link
variable {l : Link} {status : Byte} (hcaptured : l.captured = some status)
include hcaptured

/-- R2: the reply that a selection carries. -/
theorem carried_of_captured : l.carried = if status.getLsbD 7 then l.reply else none := by
  rw [carried, hcaptured]
  rfl

theorem carried_eq_none (h : status.getLsbD 7 = false ∨ l.reply = none) : l.carried = none := by
  rw [carried_of_captured hcaptured]
  rcases h with h | h
  · rw [h]
    rfl
  · rw [h, ite_self]

theorem carried_eq_some (hreply : status.getLsbD 7 = true) {reply : List Byte} (h : l.reply = some reply) :
    l.carried = some reply := by
  rw [carried_of_captured hcaptured, hreply, h]
  rfl

theorem nextPosition_of_not (h : l.received = [] ∨ status.getLsbD 7 = false ∨ l.reply = none) : l.nextPosition = l.position := by
  unfold nextPosition
  rcases h with h | h
  · rw [h]
  · rw [carried_eq_none hcaptured h]
    cases l.received <;> rfl

theorem nextPosition_of_carried (hreceived : l.received ≠ []) (hreply : status.getLsbD 7 = true) {reply : List Byte}
    (h : l.reply = some reply) : l.nextPosition = if l.position < reply.length then l.position + 1 else l.position := by
  obtain ⟨b, rest, hcons⟩ := List.exists_cons_of_ne_nil hreceived
  unfold nextPosition
  rw [carried_eq_some hcaptured hreply h, hcons]

end Link

/-- R5: what a shifted byte changes. -/
theorem Link.shift_eq (l : Link) (b : Byte) :
    l.shift b = { l with received := (l.shift b).received, excess := (l.shift b).excess, position := l.nextPosition } ∧
      (l.received.length < 264 → (l.shift b).received = l.received ++ [b] ∧ (l.shift b).excess = l.excess) ∧
      (264 ≤ l.received.length → (l.shift b).received = l.received ∧ (l.shift b).excess = (l.excess || b != 0)) := by
  unfold Link.shift
  split
  · exact ⟨rfl, fun _ => ⟨rfl, rfl⟩, fun hfull => absurd hfull (Nat.not_le_of_lt ‹_›)⟩
  · exact ⟨rfl, fun hroom => absurd hroom ‹_›, fun _ => ⟨rfl, rfl⟩⟩

/-- R4: the flags that the status byte reported are cleared. -/
theorem Link.statusSent_eq (l : Link) (status : Byte) :
    l.statusSent status = { l with
      discarded := if status.getLsbD 3 then false else l.discarded
      refused := if status.getLsbD 2 then false else l.refused } := by
  unfold Link.statusSent statusDiscarded statusRefused
  cases status.getLsbD 3 <;> cases status.getLsbD 2 <;> simp

/-- R4, R191: the byte driven in a SELECTED selection. -/
theorem Link.dataOut_of_selected {l : Link} (hselected : l.selection = .selected) :
    (l.received = [] → l.dataOut = l.captured) ∧
      (l.received ≠ [] → l.dataOut = some ((l.carried.bind fun reply => reply[l.position]?).getD 0)) := by
  unfold Link.dataOut
  rw [hselected]
  cases l.received with
  | nil => exact ⟨fun _ => rfl, fun h => absurd rfl h⟩
  | cons => exact ⟨fun h => (nomatch h), fun _ => rfl⟩

/-- Settles O6: the status byte, then the reply's bytes, out of a SELECTED selection; nothing out of another. -/
theorem bytesShiftThroughASelection : Obligations.BytesShiftThroughASelection := by
  refine ⟨fun s p status hselected hcaptured => ?_, fun s p h => ?_⟩
  · obtain ⟨hstatus, hout⟩ := Link.dataOut_of_selected hselected
    refine ⟨?_, fun b => ⟨s.setLink p ((s.links.get p).shift b), ?_, ?_⟩, fun h => (hstatus h).trans hcaptured,
      fun reply hreceived hreply h => ⟨fun b hb => ?_, fun hlast => ?_⟩, fun hreceived h => ?_⟩
    · have hexec : exec (.statusByteComplete p) s = .next (s.setLink p ((s.links.get p).statusSent status)) := by
        show Host.Outcome.next _ = _
        rw [hselected, hcaptured]
      rw [hexec, Link.statusSent_eq]
    · show Host.Outcome.next _ = _
      rw [hselected]
    · obtain ⟨hshift, hroom, hfull⟩ := (s.links.get p).shift_eq b
      dsimp only
      rw [State.setLink_links, PerPort.get_set_same]
      refine ⟨?_, hroom, hfull, fun h => ?_, fun reply hreceived hreply h => ?_⟩
      · conv_lhs => rw [hshift]
        rw [hshift]
      · rw [hshift]
        exact Link.nextPosition_of_not hcaptured h
      · rw [hshift]
        exact Link.nextPosition_of_carried hcaptured hreceived hreply h
    · rw [hout hreceived, Link.carried_eq_some hcaptured hreply h, Option.bind_some, hb, Option.getD_some]
    · rw [hout hreceived, Link.carried_eq_some hcaptured hreply h, Option.bind_some, List.getElem?_eq_none hlast, Option.getD_none]
    · rw [hout hreceived, Link.carried_eq_none hcaptured h]
      rfl
  · rcases h with h | h <;>
    · refine ⟨by rw [Link.dataOut, h], ?_, fun b => ?_⟩ <;>
      · show Host.Outcome.next _ = _
        rw [h]

end Sys2Proof.Machine
end

section
/-! IDENTIFY and unknown kinds (R11, R15), and coalescing (R149, R151). -/

namespace Sys2Proof.Machine

/-! ## Unknown kinds and IDENTIFY -/

/-- R15, R16, R188: the 39 bytes of the report. -/
theorem State.identity_eq (s : State) (p : Port) : s.identity p =
    [0x6B, 2, 0x0C, 4, 2, 4, 0x10, 0, 4, 0, 31, 4, 0, 1, 0, 16, 3, 32, 64, 60, 24, 8, 16, 1, 8, 2, 8] ++
      clockBytes s.clock ++ [s.epoch, p.code] ++ halfBytes (s.links.get p).discardedCount ++
      halfBytes (s.links.get p).refusedCount ++ halfBytes s.exchange.discards := rfl

theorem State.identity_qualify (s : State) (p q : Port) (n : Half) : (s.qualify q n).identity p = s.identity p := by
  simp only [State.identity_eq, State.qualify_clock, State.qualify_epoch, State.qualify_links, State.qualify_exchange]

theorem exec_identify (s : State) (p : Port) (hears : s.hears p) (tag : Byte) (n : Half) (body : List Byte) :
    exec (.identify p tag n body) s =
      .next ((serveIdentify p body (s.qualify p n)).1.replied p ((serveIdentify p body (s.qualify p n)).2.frame tag 0x01
        ((serveIdentify p body (s.qualify p n)).1.ports.get p).stateCode)) := by
  have hexec := exec_command .identify p tag n body s
  rw [State.request_of_hears s p hears] at hexec
  exact hexec

/-- Settles O13: the link answers an unknown kind, and IDENTIFY by its body. -/
theorem unknownKindAndIdentify : Obligations.UnknownKindAndIdentify := by
  intro s p tag n hears
  dsimp only
  rw [← State.identity_eq, ← s.identity_qualify p p n]
  refine ⟨fun kind body _ => ?_, fun body hbody => ?_, ?_, fun body hempty hzero hone => ?_⟩
  · rw [exec_unknownKind, State.request_of_hears s p hears]
    rfl
  · rw [exec_identify s p hears, serveIdentify, if_pos hbody]
    rfl
  · rw [exec_identify s p hears]
    simp [serveIdentify, State.replied, Link.clearCounts, State.setLink, Answer.done, natHalf]
  · rw [exec_identify s p hears, serveIdentify, if_neg (not_or.2 ⟨hempty, hzero⟩), if_neg hone]
    rfl

/-! ## Coalescing -/

theorem State.mapMessages_mapMessages (s : State) (p : Port) (f g : MessageSession → MessageSession) :
    (s.mapMessages p f).mapMessages p g = s.mapMessages p (g ∘ f) := by
  simp [State.mapMessages]

section
variable (s : State) (p : Port) {threshold time : Byte}

/-- R149: entries enough at once. -/
theorem State.recoalesce_of_reached (h : threshold.toNat ≤ (s.exchange.normal.get p).length) :
    s.recoalesce p threshold time =
      (s.mapMessages p fun e => { e with threshold := threshold, time := time, deadline := none }).raise .message .none p :=
  if_pos h

/-- R149: entries that wait, with a time to wait. -/
theorem State.recoalesce_of_waiting (h : (s.exchange.normal.get p).length < threshold.toNat)
    (hsome : (s.exchange.normal.get p).length ≠ 0) (htime : time ≠ 0) :
    s.recoalesce p threshold time =
      s.mapMessages p fun e =>
        { e with threshold := threshold, time := time, deadline := some (s.clock + BitVec.ofNat 32 time.toNat) } := by
  have hqueue : (s.exchange.normal.get p).isEmpty = false := by
    rw [List.isEmpty_eq_false_iff]
    exact fun hnil => hsome (congrArg List.length hnil)
  unfold State.recoalesce
  dsimp only
  rw [if_neg (Nat.not_le_of_lt h), if_pos (Bool.and_eq_true_iff.2 ⟨by rw [hqueue]; rfl, bne_iff_ne.2 htime⟩)]
  exact State.mapMessages_mapMessages ..

/-- R149: no entry, or no time. -/
theorem State.recoalesce_of_idle (h : (s.exchange.normal.get p).length < threshold.toNat)
    (hidle : (s.exchange.normal.get p).length = 0 ∨ time = 0) :
    s.recoalesce p threshold time =
      s.mapMessages p fun e => { e with threshold := threshold, time := time, deadline := none } := by
  unfold State.recoalesce
  dsimp only
  rw [if_neg (Nat.not_le_of_lt h), if_neg]
  rcases hidle with hidle | hidle
  · simp [List.length_eq_zero_iff.1 hidle]
  · simp [hidle]

@[simp] theorem State.recoalesce_ports : (s.recoalesce p threshold time).ports = s.ports := by
  unfold State.recoalesce
  dsimp only
  split
  · simp
  · split <;> rfl

end

/-- R149: a SET_COALESCE with a threshold in range. -/
theorem exec_setCoalesce_set {s : State} {p : Port} {m : Membership} (hserves : s.serves p m) (tag : Byte) {threshold : Byte}
    (hlow : threshold.toNat ≠ 0) (hhigh : threshold.toNat ≤ 16) (time : Byte) :
    exec (.setCoalesce p tag m.number [threshold, time]) s =
      .next (((s.qualify p m.number).recoalesce p threshold time).replied p ((Answer.mk .done 0 []).frame tag 0x43 1)) :=
  exec_of_answer hserves .setCoalesce tag _ (serveSetCoalesce · _) rfl _ _ (if_neg (by omega)) (by rw [State.recoalesce_ports])

theorem exec_coalesceDeadlineExpiry (s : State) (p : Port) :
    exec (.coalesceDeadlineExpiry p) s = .next (s.coalesceExpiry p) := rfl

/-- R151: a deadline reached. -/
theorem State.coalesceExpiry_of_reached {s : State} {p : Port} {e : MessageSession} (he : s.exchange.sessions.get p = some e)
    (hdue : e.deadline = some s.clock) : s.coalesceExpiry p = s.coalesceExpires p := by
  rw [State.coalesceExpiry, he, Option.bind_some, hdue]
  exact if_pos (beq_self_eq_true _)

theorem State.coalesceExpiry_of_not {s : State} {p : Port}
    (h : ∀ e d, s.exchange.sessions.get p = some e → e.deadline = some d → d ≠ s.clock) : s.coalesceExpiry p = s := by
  unfold State.coalesceExpiry
  split
  · rfl
  · rename_i d hd
    obtain ⟨e, he, hdeadline⟩ := Option.bind_eq_some_iff.1 hd
    exact if_neg fun hreached => h e d he hdeadline (beq_iff_eq.1 hreached)

/-- Settles O46: SET_COALESCE by the depth of the NORMAL queue, and the deadline by whether it is reached. -/
theorem coalescingIsSetAndExpires : Obligations.CoalescingIsSetAndExpires := by
  intro s p
  refine ⟨fun m tag threshold time hserves => ?_, fun e d he hd hclock => ?_, fun h => ?_⟩
  · have hqueue : (s.qualify p m.number).exchange.normal.get p = s.exchange.normal.get p := by rw [State.qualify_exchange]
    refine ⟨fun body hbody => ?_, fun hrange => ?_, fun hlow hhigh hreached => ?_, fun hhigh hbelow hsome htime => ?_,
      fun hhigh hbelow hidle => ?_⟩
    · refine exec_of_refusal hserves .setCoalesce tag body (serveSetCoalesce · body) rfl _ _ ?_
      unfold serveSetCoalesce
      split
      · exact absurd rfl hbody
      · rfl
    · exact exec_of_refusal hserves .setCoalesce tag _ (serveSetCoalesce · _) rfl _ _ (if_pos hrange)
    · rw [exec_setCoalesce_set hserves tag (by omega) hhigh, State.recoalesce_of_reached _ p (by rw [hqueue]; exact hreached)]
    · rw [exec_setCoalesce_set hserves tag (by omega) hhigh,
        State.recoalesce_of_waiting _ p (by rw [hqueue]; exact hbelow) (by rw [hqueue]; exact hsome) htime, State.qualify_clock]
    · rw [exec_setCoalesce_set hserves tag (by omega) hhigh,
        State.recoalesce_of_idle _ p (by rw [hqueue]; exact hbelow) (by rw [hqueue]; exact hidle)]
  · subst hclock
    rw [exec_coalesceDeadlineExpiry, State.coalesceExpiry_of_reached he hd]
    exact ⟨fun hsome => congrArg _ (if_neg fun hnil => hsome (List.isEmpty_iff.1 hnil)),
      fun hnil => congrArg _ (if_pos (List.isEmpty_iff.2 hnil))⟩
  · rw [exec_coalesceDeadlineExpiry, State.coalesceExpiry_of_not h]

end Sys2Proof.Machine
end

section
/-! Request frames (R8, R183, R185), the end of a selection (R5 to R10), and the requests that do not arrive (R10, R19, R24). -/

namespace Sys2Proof.Machine

/-! ## Request frames -/

/-- R185: the bytes of a frame before its check value. -/
def Request.fields (r : Request) : List Byte :=
  halfBytes (natHalf (r.body.length + 8)) ++ [r.tag, r.kind] ++ halfBytes r.session ++ r.body

theorem Request.frame_eq (r : Request) : r.frame = r.fields ++ halfBytes (checkValue r.fields) := rfl

theorem Request.fields_length (r : Request) : r.fields.length = r.body.length + 6 := by
  simp only [fields, halfBytes, List.length_append, List.length_cons, List.length_nil]
  omega

theorem Request.frame_length (r : Request) : r.frame.length = r.body.length + 8 := by
  rw [frame_eq, List.length_append, fields_length]
  rfl

/-- R183: two bytes are the bytes of their field. -/
theorem halfBytes_half (hi lo : Byte) : halfBytes (half hi lo) = [hi, lo] := by
  have hhi : (hi ++ lo).extractLsb' 8 8 = hi := BitVec.extractLsb'_append_eq_left
  have hlo : (hi ++ lo).extractLsb' 0 8 = lo := BitVec.extractLsb'_append_eq_right
  rw [halfBytes, half, hhi, hlo]

/-- R185: the length field of a frame with a body that a request can hold. -/
theorem Request.frameLength_frame (r : Request) (h : r.body.length ≤ 256) (rest : List Byte) :
    frameLength (r.frame ++ rest) = some (r.body.length + 8) := by
  show some (half ((natHalf (r.body.length + 8)).extractLsb' 8 8) ((natHalf (r.body.length + 8)).extractLsb' 0 8)).toNat = _
  rw [half_halfBytes, natHalf, BitVec.toNat_ofNat, Nat.mod_eq_of_lt (by omega)]

/-- R11: the fields read back. -/
theorem readRequest_fields (r : Request) {n : Nat} {received : List Byte} (h : received.take (n - 2) = r.fields) :
    readRequest n received = some r := by
  rw [readRequest, h]
  show some (Request.mk r.tag r.kind (half (r.session.extractLsb' 8 8) (r.session.extractLsb' 0 8)) r.body) = some r
  rw [half_halfBytes]

theorem classify_frame (r : Request) (h : r.body.length ≤ 256) (trailing : Nat) :
    classify (r.frame ++ List.replicate trailing 0) false = some r := by
  have hfields : (r.frame ++ List.replicate trailing 0).take (r.body.length + 8 - 2) = r.fields := by
    rw [Request.frame_eq, List.append_assoc]
    exact List.take_left' r.fields_length
  have hframe : (r.frame ++ List.replicate trailing 0).take (r.body.length + 8) = r.frame := List.take_left' r.frame_length
  have hrest : (r.frame ++ List.replicate trailing 0).drop (r.body.length + 8) = List.replicate trailing 0 :=
    List.drop_left' r.frame_length
  have hcheck : r.frame.drop (r.body.length + 8 - 2) = halfBytes (checkValue r.fields) := List.drop_left' r.fields_length
  rw [classify, r.frameLength_frame h]
  dsimp only
  rw [if_pos, readRequest_fields r hfields]
  rw [frameChecks, hrest, hframe, hfields, hcheck, List.length_append, r.frame_length]
  simp [Config.largestRequest]
  omega

/-- R8: the four checks. -/
theorem frameChecks_iff (n : Nat) (received : List Byte) (excess : Bool) :
    frameChecks n received excess = true ↔ (8 ≤ n ∧ n ≤ 264) ∧ n ≤ received.length ∧
      ((∀ b ∈ received.drop n, b = 0) ∧ excess = false) ∧
      (received.take n).drop (n - 2) = halfBytes (checkValue (received.take (n - 2))) := by
  rw [frameChecks, Bool.and_eq_true, Bool.and_eq_true, Bool.and_eq_true, Bool.and_eq_true, decide_eq_true_iff, decide_eq_true_iff,
    beq_iff_eq, List.all_eq_true, Bool.not_eq_true', and_assoc, and_assoc]
  simp only [beq_iff_eq, Config.largestRequest]

/-- R8: the length field is the frame's first two bytes. -/
theorem take_of_frameLength {received : List Byte} {n : Nat} (h : frameLength received = some n) :
    received.take 2 = halfBytes (natHalf n) := by
  unfold frameLength at h
  split at h
  · cases h
    rw [natHalf_toNat, halfBytes_half]
    rfl
  · cases h

/-- R185: the fields that are read are those of the request's frame. -/
theorem fields_of_readRequest {n : Nat} {received : List Byte} {r : Request} (hlength : frameLength received = some n)
    (hlow : 8 ≤ n) (hfits : n ≤ received.length) (h : readRequest n received = some r) :
    r.body.length = n - 8 ∧ r.fields = received.take (n - 2) := by
  unfold readRequest at h
  split at h
  · rename_i b0 b1 tag kind hi lo body hfields
    cases h
    have hbody : body.length = n - 8 := by
      have hcount := congrArg List.length hfields
      simp only [List.length_take, List.length_cons] at hcount
      omega
    have hfirst : [b0, b1] = halfBytes (natHalf n) := by
      rw [← take_of_frameLength hlength, show [b0, b1] = (b0 :: b1 :: tag :: kind :: hi :: lo :: body).take 2 from rfl, ← hfields,
        List.take_take, Nat.min_eq_left (by omega)]
    refine ⟨hbody, ?_⟩
    rw [Request.fields, hbody, Nat.sub_add_cancel hlow, ← hfirst, halfBytes_half, hfields]
    rfl
  · cases h

/-- R8: whatever is read as a request is its frame with 00 bytes after it. -/
theorem frame_of_classify {received : List Byte} {excess : Bool} {r : Request} (h : classify received excess = some r) :
    excess = false ∧ r.body.length ≤ 256 ∧ ∃ trailing, received = r.frame ++ List.replicate trailing 0 := by
  unfold classify at h
  split at h
  · cases h
  · rename_i n hn
    split at h
    · rename_i hchecks
      obtain ⟨⟨hlow, hhigh⟩, hfits, ⟨hzeros, hexcess⟩, hcheck⟩ := (frameChecks_iff ..).1 hchecks
      obtain ⟨hbody, hfields⟩ := fields_of_readRequest hn hlow hfits h
      refine ⟨hexcess, by omega, (received.drop n).length, ?_⟩
      rw [Request.frame_eq, hfields, ← hcheck, ← List.eq_replicate_length.2 hzeros]
      have htake : received.take (n - 2) ++ (received.take n).drop (n - 2) = received.take n := by
        conv_rhs => rw [← List.take_append_drop (n - 2) (received.take n)]
        rw [List.take_take, Nat.min_eq_left (by omega)]
      rw [htake, List.take_append_drop]
    · cases h

/-- Settles O9: a frame is read back, and nothing else is read. -/
theorem requestFrameReadsBack : Obligations.RequestFrameReadsBack :=
  ⟨fun r trailing h => classify_frame r h trailing, fun _ _ _ h => frame_of_classify h, fun _ => rfl, by decide, by decide +kernel⟩

/-! ## The end of a selection -/

theorem State.setLink_setLink (s : State) (p : Port) (l l' : Link) : (s.setLink p l).setLink p l' = s.setLink p l' := by
  simp [State.setLink]

/-- R6 step 1, R7: the link after its reply is removed and it is back in IDLE. -/
theorem Link.toIdle_removeReply (l : Link) :
    l.removeReply.toIdle = { l with
      selection := .idle
      reply := if l.captured.any statusReply ∧ l.position = (l.reply.getD []).length then none else l.reply } := by
  unfold Link.removeReply Link.carried
  cases hcaptured : l.captured with
  | none => simp [Link.toIdle, hcaptured]
  | some status =>
    dsimp only
    by_cases hstatus : statusReply status = true
    · rw [if_pos hstatus]
      cases hreply : l.reply with
      | none => simp [Link.toIdle, hreply, hcaptured]
      | some reply => by_cases hlast : l.position = reply.length <;> simp [Link.toIdle, hreply, hcaptured, hstatus, hlast]
    · rw [if_neg hstatus]
      simp [Link.toIdle, hcaptured, hstatus]

/-- R6: a well-formed frame is not fetch-only: its length field is not 0. -/
theorem fetchOnly_of_classify {received : List Byte} {excess : Bool} {r : Request} (h : classify received excess = some r) :
    fetchOnly received excess = false := by
  rw [Bool.eq_false_iff]
  intro hfetch
  unfold classify at h
  split at h
  · cases h
  · rename_i n hn
    split at h
    · rename_i hchecks
      obtain ⟨⟨hlow, -⟩, -⟩ := (frameChecks_iff ..).1 hchecks
      unfold frameLength at hn
      split at hn
      · simp only [fetchOnly, List.all_cons, Bool.and_eq_true, beq_iff_eq] at hfetch
        obtain ⟨⟨rfl, rfl, -⟩, -⟩ := hfetch
        cases hn
        exact absurd hlow (by decide)
      · cases hn
    · cases h

theorem exec_selectionEnd {s : State} {p : Port} (h : (s.links.get p).selection = .selected) :
    exec (.selectionEnd p) s = .next (s.endSelection p) := by
  show Host.Outcome.next _ = _
  rw [h]

theorem State.endSelection_of_fetchOnly {s : State} {p : Port}
    (h : fetchOnly (s.links.get p).received (s.links.get p).excess = true) :
    s.endSelection p = s.setLink p (s.links.get p).removeReply.toIdle := if_pos h

theorem State.endSelection_of_malformed {s : State} {p : Port}
    (hfetch : fetchOnly (s.links.get p).received (s.links.get p).excess = false)
    (h : classify (s.links.get p).received (s.links.get p).excess = none) :
    s.endSelection p = s.setLink p (s.links.get p).removeReply.toIdle.discardFrame := by
  unfold State.endSelection
  dsimp only
  rw [hfetch, h, State.setLink_links, PerPort.get_set_same]
  exact State.setLink_setLink ..

theorem State.endSelection_of_classify {s : State} {p : Port} {r : Request}
    (h : classify (s.links.get p).received (s.links.get p).excess = some r) :
    s.endSelection p = (s.setLink p (s.links.get p).removeReply.toIdle).dispose p r (serveRequest p r) := by
  unfold State.endSelection
  dsimp only
  rw [fetchOnly_of_classify h, h]
  rfl

/-- R10: a frame that finds the slot occupied. -/
theorem State.dispose_of_occupied {s : State} {p : Port} (h : (s.links.get p).reply.isSome) (r : Request)
    (serve : State → State × Answer) : s.dispose p r serve = s.setLink p (s.links.get p).refuseFrame := if_pos h

/-- Settles O7: reply removal, then nothing, a discard or a refusal. -/
theorem selectionEndsWithoutAnArrival : Obligations.SelectionEndsWithoutAnArrival := by
  intro s p
  dsimp only
  refine ⟨fun hselected hfetch => ?_, fun hselected hfetch hnone => ?_, fun r hselected _ hframe hreply => ?_, fun hignored => ?_⟩
  · rw [exec_selectionEnd hselected, State.endSelection_of_fetchOnly hfetch, Link.toIdle_removeReply]
  · rw [exec_selectionEnd hselected, State.endSelection_of_malformed hfetch hnone, Link.toIdle_removeReply]
    rfl
  · rw [exec_selectionEnd hselected, State.endSelection_of_classify hframe, State.dispose_of_occupied, State.setLink_links,
      PerPort.get_set_same, State.setLink_setLink, Link.toIdle_removeReply]
    · rfl
    · rw [State.setLink_links, PerPort.get_set_same, Link.toIdle_removeReply]
      exact hreply
  · show Host.Outcome.next _ = _
    rw [hignored]
    rfl

/-- R19: a link back in IDLE takes frames while the part runs. -/
theorem State.takesFrames_toIdle {s : State} (hrun : s.phase = .running) (p : Port) (l : Link) :
    (s.setLink p l.toIdle).takesFrames p = true := by
  simp [State.takesFrames, hrun, Link.toIdle]

/-- Settles O8: the frame reads back as the request, which the link then disposes of as its row does. -/
theorem selectionEndIsTheRequest : Obligations.SelectionEndIsTheRequest := by
  intro s p tag session body trailing
  dsimp only
  rw [← Link.toIdle_removeReply]
  intro hrun hselected hexcess hbody
  have hend : ∀ (kind : Byte), (s.links.get p).received = (Request.mk tag kind session body).frame ++ List.replicate trailing 0 →
      exec (.selectionEnd p) s = .next ((s.setLink p (s.links.get p).removeReply.toIdle).request p ⟨tag, kind, session, body⟩
        (serveRequest p ⟨tag, kind, session, body⟩)) := by
    intro kind hreceived
    rw [exec_selectionEnd hselected, State.request, if_pos (State.takesFrames_toIdle hrun p _)]
    exact congrArg _ (State.endSelection_of_classify (by rw [hreceived, hexcess]; exact classify_frame _ hbody trailing))
  refine ⟨fun k hreceived => ?_, fun kind hkind hreceived => ?_⟩
  · rw [hend k.code hreceived, exec_command]
    simp only [serveRequest, kind_ofCode_code]
  · rw [hend kind hreceived, exec_unknownKind]
    simp only [serveRequest, hkind]

/-! ## Requests that do not arrive -/

theorem State.request_of_occupied {s : State} {p : Port} (htakes : s.takesFrames p = true) (h : (s.links.get p).reply.isSome)
    (r : Request) (serve : State → State × Answer) : s.request p r serve = s.setLink p (s.links.get p).refuseFrame := by
  rw [State.request, if_pos htakes, State.dispose_of_occupied h]

theorem State.request_of_deaf {s : State} {p : Port} (h : s.phase ≠ .running ∨ (s.links.get p).selection = .ignored) (r : Request)
    (serve : State → State × Answer) : s.request p r serve = s := by
  refine if_neg ?_
  rw [State.takesFrames, Bool.and_eq_true, beq_iff_eq, bne_iff_ne, not_and_or, not_not]
  exact h

/-- Settles O10: what a request row does without an arrival. -/
theorem requestsThatDoNotArrive : Obligations.RequestsThatDoNotArrive := by
  intro s p k tag session body
  refine ⟨fun htakes hoccupied => ?_, fun htakes hoccupied kind => ?_, fun hdeaf => ⟨?_, fun kind => ?_⟩⟩
  · rw [exec_command, State.request_of_occupied htakes hoccupied]
    rfl
  · rw [exec_unknownKind, State.request_of_occupied htakes hoccupied]
    rfl
  · rw [exec_command, State.request_of_deaf hdeaf]
  · rw [exec_unknownKind, State.request_of_deaf hdeaf]

/-- Settles O11: the service of every kind but IDENTIFY and JOIN stands behind the fence. -/
theorem fencedRequestsAreRefused : Obligations.FencedRequestsAreRefused := by
  intro k hfenced
  have hserve : ∃ serve : List Byte → SessionRef → State → State × Answer,
      ∀ p session body, serviceOf k p session body = fenced p session (serve body) := by
    cases k
    case identify => cases hfenced
    case join => cases hfenced
    all_goals exact ⟨fun _ => _, fun _ _ _ => rfl⟩
  obtain ⟨serve, hk⟩ := hserve
  exact fencedOff_of_serviceOf hk

end Sys2Proof.Machine
end

section
/-! Every arrival gets one reply (R12): a service that refuses changes nothing and has nothing more to say. -/

namespace Sys2Proof.Machine

/-! ## What an answer says of the state it comes with (R12) -/

/-- R12, R175: a refusal has an empty body, and one that is not LIST_FULL comes with the state that was served. -/
def Answers (s : State) (r : State × Answer) : Prop :=
  r.2.outcome ≠ .done → r.2.outcome ≠ .queued → r.2.body = [] ∧ (r.2.outcome ≠ .listFull → r.1 = s)

theorem answers_refuse (s : State) (o : ReplyOutcome) (detail : Nat) : Answers s (s, .refuse o detail) :=
  fun _ _ => ⟨rfl, fun _ => rfl⟩

theorem answers_done (s t : State) (detail : Half) (body : List Byte) : Answers s (t, ⟨.done, detail, body⟩) :=
  fun h => absurd rfl h

/-- R175: a full list counts the raise that it drops. -/
theorem answers_listFull (s t : State) (detail : Half) : Answers s (t, ⟨.listFull, detail, []⟩) :=
  fun _ _ => ⟨rfl, fun h => absurd rfl h⟩

theorem answers_queued (s t : State) (detail : Half) (body : List Byte) : Answers s (t, ⟨.queued, detail, body⟩) :=
  fun _ h => absurd rfl h

theorem answers_definedZone {s : State} {n : Byte} {a : Answer} (h : s.definedZone n = .error a) : Answers s (s, a) := by
  unfold State.definedZone at h
  split at h
  · cases h
    exact answers_refuse _ _ _
  · split at h
    · cases h
      exact answers_refuse _ _ _
    · nomatch h

theorem answers_fenced (p : Port) (n : Half) {serve : SessionRef → State → State × Answer}
    (h : ∀ who s, Answers s (serve who s)) (s : State) : Answers s (fenced p n serve s) := by
  unfold fenced
  split
  · exact answers_refuse _ _ _
  · split
    · exact h _ _
    · exact answers_refuse _ _ _

/-! ## The services: a tree of checks whose leaves are the answers above -/

theorem answers_serviceOf (k : Kind) (p : Port) (n : Half) (body : List Byte) (s : State) :
    Answers s (serviceOf k p n body s) := by
  cases k
  case identify | join =>
    dsimp only [serviceOf, serveIdentify, serveJoin, Answer.done]
    repeat' split
    all_goals simp only [answers_done, answers_refuse]
  all_goals refine answers_fenced p n (fun who s => ?_) s
  case leave | ping =>
    dsimp only [serveLeave, servePing, Answer.done]
    repeat' split
    all_goals simp only [answers_done, answers_refuse]
  case defineZone | queryZone =>
    dsimp only [serveDefineZone, serveQueryZone, Answer.done]
    repeat' split
    all_goals simp only [answers_done, answers_refuse]
  case retireZone | setZonePolicy | loadSafeImage | claim | release | handOver =>
    dsimp only [serveRetireZone, serveSetZonePolicy, serveLoadSafeImage, serveClaim, State.decideClaim, serveRelease,
      serveHandOver, State.decideHandOver, Answer.done]
    repeat' split
    all_goals first
      | exact answers_definedZone ‹_›
      | simp only [answers_done, answers_refuse]
  case publish | snapshot | readPoints =>
    dsimp only [servePublish, State.publish, serveSnapshot, serveReadPoints, Answer.done]
    repeat' split
    all_goals simp only [answers_done, answers_refuse]
  case acquire | releaseToken | cancelWait | setTokenLimit | queryTokens =>
    dsimp only [serveAcquire, State.decideAcquire, serveReleaseToken, serveCancelWait, serveSetTokenLimit,
      serveQueryTokens, Answer.done]
    repeat' split
    all_goals simp only [answers_done, answers_queued, answers_refuse]
  case setTimer | resetTimer | freeTimer | queryTimer =>
    dsimp only [serveSetTimer, State.decideSetTimer, serveResetTimer, serveFreeTimer, serveQueryTimer, State.startTimer,
      Answer.done]
    repeat' split
    all_goals simp only [answers_done, answers_refuse]
  case send | receive | flushQueue | setCoalesce =>
    dsimp only [serveSend, State.decideSend, State.post, serveReceive, State.receiveEntry, serveFlushQueue, State.flush,
      serveSetCoalesce, Answer.done]
    repeat' split
    all_goals simp only [answers_done, answers_refuse]
  case setWatch | clearWatch | readAttention | setAttentionMask =>
    dsimp only [serveSetWatch, serveClearWatch, serveReadAttention, serveSetAttentionMask, Answer.done]
    repeat' split
    all_goals simp only [answers_done, answers_refuse]
  case raiseFault | clearFault | ackFault | readFaults =>
    dsimp only [serveRaiseFault, State.decideRaise, serveClearFault, serveAckFault, serveReadFaults, Answer.done]
    repeat' split
    all_goals simp only [answers_done, answers_listFull, answers_refuse]

/-- Settles O12: the reply is the service's answer, and a refusal's state is the qualified one. -/
theorem everyArrivalGetsOneReply : Obligations.EveryArrivalGetsOneReply := by
  intro s p k tag session body hears
  have answered := answers_serviceOf k p session body (s.qualify p session)
  generalize hr : serviceOf k p session body (s.qualify p session) = r at answered
  have hexec : exec (k.command p tag session body) s =
      .next (r.1.replied p (r.2.frame tag k.code (r.1.ports.get p).stateCode)) := by
    rw [exec_command, State.request_of_hears _ _ hears, hr]
  refine ⟨_, r.2, hexec, ?_, fun hdone hqueued => ⟨(answered hdone hqueued).1, fun hfull => ?_⟩⟩
  · simp
  · simp [(answered hdone hqueued).2 hfull]

end Sys2Proof.Machine
end

section
/-! The session monitor (R25, R31, R36): an arrival restarts it, and a first expiry makes a port LATE. -/

namespace Sys2Proof.Machine

/-! ## What the other sessions are told (R36) -/

/-- R36, R160: PEER tells every other session of the port, over whatever the event did before. -/
theorem State.raisePeer_tells {s t : State} {p : Port}
    (h : ∀ q, q ≠ p → (t.attention.get q).map AttentionRecord.ports = (s.attention.get q).map AttentionRecord.ports)
    (q : Port) (hq : q ≠ p) :
    ((t.raisePeer p).attention.get q).map (fun r => (r.pending &&& 16, r.ports)) =
      (s.attention.get q).map fun r => (16, r.ports ||| p.single) := by
  have hraise : ∀ r : AttentionRecord,
      ((r.raise .peer (.port p)).pending &&& 16, (r.raise .peer (.port p)).ports) = (16, r.ports ||| p.single) := by
    intro r
    have hbit : (r.pending ||| 16) &&& (16 : CauseSet) = 16 := by
      rw [BitVec.and_or_distrib_right, BitVec.and_self]
      exact BitVec.eq_of_getLsbD_eq fun i _ => by simp +contextual
    exact congrArg (·, r.ports ||| p.single) hbit
  have hports := congrArg (Option.map fun x => ((16 : CauseSet), x ||| p.single)) (h q hq)
  rw [Option.map_map, Option.map_map] at hports
  rw [State.attention_raisePeer, if_neg hq, Option.map_map]
  simpa only [Function.comp_def, hraise] using hports

theorem AttentionRecord.ports_eq_details : AttentionRecord.ports = (fun d => d.2.2.2.2.2.2) ∘ AttentionRecord.details := rfl

theorem State.writeSystem_told (s : State) (w : Points) (q : Port) :
    ((s.writeSystem w).attention.get q).map AttentionRecord.ports = (s.attention.get q).map AttentionRecord.ports := by
  rw [AttentionRecord.ports_eq_details, ← Option.map_map, State.writeSystem_details, Option.map_map]

/-! ## A port's record with its points and PEER (R23, R36) -/

section
variable (s : State) (p : Port) (r : PortRecord)

/-- R23, R36: an event of the monitor that leaves the session's blocks alone. -/
def State.monitorEvent : State := ((s.setPort p r).writeMonitor p).raisePeer p

theorem State.writeMonitor_setPort : (s.setPort p r).writeMonitor p = (s.setPort p r).writeSystem (monitorPoints p r) := by
  simp [State.writeMonitor]

theorem State.monitorEvent_ports_same : (s.monitorEvent p r).ports.get p = r := by
  simp [State.monitorEvent]

theorem State.monitorEvent_ports_other (q : Port) (hq : q ≠ p) : (s.monitorEvent p r).ports.get q = s.ports.get q := by
  simp [State.monitorEvent, hq]

/-- R23: the three bits and the word of a port after a write of its points. -/
theorem State.bits_store_monitorPoints :
    (s.store (monitorPoints p r)).bit (48 + p.index) = r.session.isSome ∧
      (s.store (monitorPoints p r)).bit (52 + p.index) = r.isLate ∧
        (s.store (monitorPoints p r)).bit (56 + p.index) = r.lostCondition ∧
          (s.store (monitorPoints p r)).word (48 + p.index) = r.number := by
  cases p <;> simp [State.bit_store, State.word_store, monitorPoints, Port.index]

theorem State.monitorEvent_lateBit : (s.monitorEvent p r).bit (52 + p.index) = r.isLate := by
  rw [State.monitorEvent, State.raisePeer_bit, State.writeMonitor_setPort, State.writeSystem_bit _ _ _ (by omega)]
  exact (State.bits_store_monitorPoints _ p r).2.1

theorem State.monitorEvent_tells (q : Port) (hq : q ≠ p) :
    ((s.monitorEvent p r).attention.get q).map (fun r => (r.pending &&& 16, r.ports)) =
      (s.attention.get q).map fun r => (16, r.ports ||| p.single) :=
  State.raisePeer_tells (fun q _ => State.writeSystem_told _ _ q) q hq

/-- R36, R70: the port's own session is told nothing but what its watches see. -/
theorem State.monitorEvent_own :
    ((s.monitorEvent p r).attention.get p).map (fun r => (r.pending &&& 0b111101, r.ports)) =
      (s.attention.get p).map fun r => (r.pending &&& 0b111101, r.ports) := by
  have hpending := State.writeSystem_pendingSet (s.setPort p r) (monitorPoints p r) p 0b111101
    (by decide)
  have hports := State.writeSystem_told (s.setPort p r) (monitorPoints p r) p
  rw [State.monitorEvent, State.attention_raisePeer, if_pos rfl, State.writeMonitor_setPort]
  revert hpending hports
  generalize ((s.setPort p r).writeSystem (monitorPoints p r)).attention.get p = a
  show a.map _ = (s.attention.get p).map _ → a.map _ = (s.attention.get p).map _ → _
  generalize s.attention.get p = b
  cases a <;> cases b <;> simp +contextual

end

/-- Settles O18: an arrival is its service on the qualified state, and R25's three cases of the qualification. -/
theorem arrivalRestartsTheMonitor : Obligations.ArrivalRestartsTheMonitor := by
  refine ⟨fun s p k tag session body hears => ?_, fun s p m => ⟨fun h => ?_, fun h => ?_, fun n h => ?_⟩⟩
  · rw [exec_command, State.request_of_hears _ _ hears]
  · exact State.qualify_online s p m h
  · have hq : s.qualify p m.number =
        s.monitorEvent p (.online { m with deadline := s.clock + BitVec.ofNat 32 (m.monitorTime.toNat * 5) }) :=
      State.qualify_late s p m h
    rw [hq]
    exact ⟨State.monitorEvent_ports_same s p _, State.monitorEvent_ports_other s p _, State.monitorEvent_lateBit s p _,
      State.monitorEvent_tells s p _, by simp [State.monitorEvent]⟩
  · exact State.qualify_other s p n h

theorem State.firstExpiry_of_reached {s : State} {p : Port} {m : Membership} (h : s.ports.get p = .online m)
    (hdue : m.deadline = s.clock) : s.firstExpiry p = s.monitorEvent p (.late m.fallLate) := by
  simp [State.firstExpiry, h, hdue, reached, State.monitorEvent]

theorem State.firstExpiry_of_not {s : State} {p : Port} (h : ∀ m, s.ports.get p = .online m → m.deadline ≠ s.clock) :
    s.firstExpiry p = s := by
  cases hr : s.ports.get p with
  | online m => simp [State.firstExpiry, hr, reached, h m hr]
  | late m | offline | lost => simp [State.firstExpiry, hr]

/-- Settles O19: a first expiry is one event of the monitor, with the LATE record. -/
theorem firstExpiryMakesThePortLate : Obligations.FirstExpiryMakesThePortLate := by
  refine fun s p => ⟨fun m h hdue => ⟨s.monitorEvent p (.late m.fallLate), ?_, ?_, ?_, ?_, ?_, ?_, ?_⟩, fun h => ?_⟩
  · exact congrArg _ (State.firstExpiry_of_reached h hdue)
  · exact State.monitorEvent_ports_same s p _
  · exact State.monitorEvent_ports_other s p _
  · exact State.monitorEvent_lateBit s p _
  · exact State.monitorEvent_tells s p _
  · exact State.monitorEvent_own s p _
  · simp [State.monitorEvent]
  · exact congrArg _ (State.firstExpiry_of_not h)

end Sys2Proof.Machine
end

section
/-! What a session end leaves and what it takes away (R34): the PEER details of the attention records, the monitor's points, the
queues of the port that ended, and an internal fault raised with it. -/

namespace Sys2Proof.Machine

/-! ## The PEER details of a port's record (R36, R160) -/

/-- R157: the PEER details of a port's record; none where the port has no record. -/
def State.told (s : State) (q : Port) : Option PortSet := (s.attention.get q).map AttentionRecord.ports

theorem AttentionRecord.ports_raise (r : AttentionRecord) (c : Cause) {d : Detail} (hd : ∀ p, d ≠ .port p) :
    (r.raise c d).ports = r.ports := by
  cases d with
  | port p => exact absurd rfl (hd p)
  | none | granted t | grantedBroken t | revoked t | zone z | gone k => rfl

theorem State.told_raise (s : State) (c : Cause) {d : Detail} (hd : ∀ p, d ≠ .port p) (p q : Port) :
    (s.raise c d p).told q = s.told q := by
  rw [State.told, State.attention_raise]
  split
  · rw [Option.map_map]
    exact congrArg (Option.map · _) (funext fun r => r.ports_raise c hd)
  · rfl

theorem State.told_raiseFor (s : State) (c : Cause) {d : Detail} (hd : ∀ p, d ≠ .port p) (ps : List Port) (q : Port) :
    (s.raiseFor c d ps).told q = s.told q :=
  List.foldlRecOn (motive := fun t : State => t.told q = s.told q) ps _ rfl fun t ht p _ => (t.told_raise c hd p q).trans ht

theorem State.told_raiseGrant (s : State) (n : Nat) (k : Token) (broken : Bool) (q : Port) :
    (s.raiseGrant n k broken).told q = s.told q := by
  unfold State.raiseGrant
  split
  · refine State.told_raise _ _ (fun p => ?_) _ q
    unfold grantDetail
    split <;> exact Detail.noConfusion
  · rfl

theorem told_fireWhere (f : Watch → Bool) (a : Option AttentionRecord) :
    (a.map (AttentionRecord.fireWhere f)).map AttentionRecord.ports = a.map AttentionRecord.ports := by
  rw [Option.map_map]
  refine congrArg (Option.map · a) (funext fun r => ?_)
  exact congrArg (fun d => d.2.2.2.2.2.2) (AttentionRecord.details_fireWhere f r)

theorem told_writes (q : Port) (x : Option PortSet) : KeptByWrites fun t => t.told q = x where
  store _ _ h := h
  systemZone _ _ h := h
  count s z h := by
    unfold State.countZone
    split <;> exact h
  fire s n h := by
    rw [State.told, State.attention_fireChange, told_fireWhere]
    exact h
  run _ _ h := h

theorem State.told_raiseFault (s : State) (n : Half) (o : Origin) (r : Half) (q : Port) :
    (s.raiseFault n o r).told q = s.told q := by
  have hwritten : (s.writeFaults (s.enterFault n o r)).told q = s.told q := by
    refine ((told_writes q (s.told q)).writeSystem _ _ ?_)
    rw [State.enterFault_frame]
    rfl
  unfold State.raiseFault
  dsimp only
  split
  · exact hwritten
  all_goals exact (State.told_raiseFor _ _ (fun _ => Detail.noConfusion) _ q).trans hwritten

theorem State.told_takeMoves (s : State) (ms : List ZoneMove) (q : Port) : (s.takeMoves ms).told q = s.told q := by
  have hraised : ((s.putMoves ms).raiseMoves ms).told q = (s.putMoves ms).told q :=
    List.foldlRecOn (motive := fun t : State => t.told q = (s.putMoves ms).told q) ms _ rfl
      fun t ht m _ => (t.told_raiseFor _ (fun _ => Detail.noConfusion) _ q).trans ht
  rw [State.told, State.takeMoves, State.attention_fireOwnership, told_fireWhere]
  refine hraised.trans ?_
  rw [State.putMoves_frame]
  rfl

theorem State.told_act (s : State) (a : Action) (q : Port) : (s.act a).told q = s.told q := by
  cases a with
  | system w => exact (told_writes q _).writeSystem s w rfl
  | policy z => exact (told_writes q _).writePolicy s z rfl
  | clearing w => exact (told_writes q _).writeClearing s w rfl
  | raise n => exact s.told_raiseFault _ _ _ q
  | move ms => exact s.told_takeMoves ms q

theorem State.told_actFreely (s : State) (blocks : List (List Action)) (q : Port) : (s.actFreely blocks).told q = s.told q :=
  State.actFreely_keeps (fun t => t.told q = s.told q) s blocks (fun _ => rfl) fun a _ t ht => (t.told_act a q).trans ht

theorem State.told_tokensAtEnd (s : State) (ended : SessionRef) (broken : Bool) (q : Port) :
    (s.tokensAtEnd ended broken).told q = s.told q := by
  refine List.foldlRecOn (motive := fun t : State => t.told q = s.told q) _ _ rfl fun t ht n _ => ?_
  dsimp only
  split
  · exact (State.told_raiseGrant _ _ _ _ q).trans ht
  · exact ht

theorem State.told_appendEntry (s : State) (p : Port) (urgent : Bool) (e : Entry) (q : Port) :
    (s.appendEntry p urgent e).told q = s.told q := by
  have hpush : (s.pushEntry p urgent e).told q = s.told q := by
    unfold State.pushEntry
    split <;> rfl
  unfold State.appendEntry
  dsimp only
  split
  · exact (State.told_raise _ _ (fun _ => Detail.noConfusion) _ q).trans hpush
  · split
    · exact hpush
    · split
      · exact (State.told_raise _ _ (fun _ => Detail.noConfusion) _ q).trans hpush
      · split <;> exact hpush

theorem State.told_undeliverAll (q p : Port) (es : List Entry) (s : State) : (s.undeliverAll q es).1.told p = s.told p := by
  induction es generalizing s with
  | nil => rfl
  | cons e rest ih =>
    refine (ih _).trans ?_
    have hdiscard : (s.discardEntry e).told p = s.told p := by
      rw [State.told, State.told, ← s.releaseBuffer_attention e.buffer]
      rfl
    unfold State.undelivered
    split
    · split
      · exact State.told_appendEntry _ _ _ _ p
      · exact hdiscard
    · exact hdiscard

theorem State.told_messagesAtEnd (s : State) (p q : Port) : (s.messagesAtEnd p).told q = s.told q :=
  State.told_undeliverAll p q (s.queued p true true) (s.emptyQueues p true true)

/-- R34, R36, R169: a session end drops the record of its port, and tells the others nothing of ports by itself. -/
theorem State.told_endSession (s : State) (ended : SessionRef) (cause : EndCause) (monitor : List (List Action)) (q : Port) :
    (s.endSession ended cause monitor).told q = if q = ended.port then none else s.told q := by
  rw [State.endSession_eq, State.told_actFreely]
  show (s.endRecords ended cause).told q = _
  rw [State.endRecords, State.told_messagesAtEnd, State.told_tokensAtEnd]
  by_cases hq : q = ended.port <;> simp [State.told, State.dropAttention, hq]

theorem State.attention_eq_none_of_told {s : State} {q : Port} (h : s.told q = none) : s.attention.get q = none :=
  Option.map_eq_none_iff.1 h

/-! ## The queues of the port whose session ends (R147) -/

/-- R146: an undelivered entry leaves the queues of the port that it was for. -/
theorem State.undelivered_queues (s : State) (q : Port) (e : Entry) :
    (s.undelivered q e).1.exchange.urgent.get q = s.exchange.urgent.get q ∧
      (s.undelivered q e).1.exchange.normal.get q = s.exchange.normal.get q := by
  have hdiscard : (s.discardEntry e).exchange.urgent.get q = s.exchange.urgent.get q ∧
      (s.discardEntry e).exchange.normal.get q = s.exchange.normal.get q := by
    obtain ⟨hurgent, hnormal, -⟩ := s.releaseBuffer_queues e.buffer
    exact ⟨congrArg (PerPort.get · q) hurgent, congrArg (PerPort.get · q) hnormal⟩
  unfold State.undelivered
  split
  · split
    · rename_i k _ hreturns
      have hport : q ≠ k.sender.port := by
        rintro rfl
        simp [State.returns] at hreturns
      simp [State.appendEntry_urgent, State.appendEntry_normal, hport]
    · exact hdiscard
  · exact hdiscard

theorem State.undeliverAll_queues (q : Port) (es : List Entry) (s : State) :
    (s.undeliverAll q es).1.exchange.urgent.get q = s.exchange.urgent.get q ∧
      (s.undeliverAll q es).1.exchange.normal.get q = s.exchange.normal.get q := by
  induction es generalizing s with
  | nil => exact ⟨rfl, rfl⟩
  | cons e rest ih =>
    obtain ⟨hurgent, hnormal⟩ := ih (s.undelivered q e).1
    obtain ⟨hurgent', hnormal'⟩ := s.undelivered_queues q e
    exact ⟨hurgent.trans hurgent', hnormal.trans hnormal'⟩

/-- R147: a port without a session has no exchange state and empty queues. -/
theorem State.endSession_exchange_gone (s : State) (ended : SessionRef) (cause : EndCause) (monitor : List (List Action)) :
    (s.endSession ended cause monitor).exchange.sessions.get ended.port = none ∧
      (s.endSession ended cause monitor).exchange.urgent.get ended.port = [] ∧
        (s.endSession ended cause monitor).exchange.normal.get ended.port = [] := by
  rw [State.endSession_exchange, State.endRecords]
  generalize ((s.dropAttention ended.port).mapTimers (Armed.detach ended)).tokensAtEnd ended cause.isLoss = t
  obtain ⟨hurgent, hnormal⟩ := State.undeliverAll_queues ended.port (t.queued ended.port true true)
    (t.emptyQueues ended.port true true)
  exact ⟨PerPort.get_set_same _ _ _, hurgent.trans (PerPort.get_set_same _ _ _), hnormal.trans (PerPort.get_set_same _ _ _)⟩

/-! ## A fault raised by an event (R174) -/

/-- R174: the number is in the list, or the list is full and dropped it. -/
def State.raised (s : State) (n : Half) : Prop := s.hasFault n = true ∨ 16 ≤ s.faults.length

theorem State.raised_of_faults {s t : State} (h : t.faults = s.faults) {n : Half} (hs : s.raised n) : t.raised n := by
  rwa [State.raised, State.hasFault, h]

/-- R174: the three things that a raise can do to the list. -/
theorem State.faults_enterFault (s : State) (n : Half) (o : Origin) (r : Half) :
    ((∃ f ∈ s.faults, f.number = n) ∧
        (s.enterFault n o r).faults = s.faults.map fun e => if e.number = n then e.again s.clock s.epoch else e) ∨
      (s.enterFault n o r).faults = s.faults ++ [.new n o r s.clock s.epoch s.faults.isEmpty] ∨
        (16 ≤ s.faults.length ∧ (s.enterFault n o r).faults = s.faults) := by
  by_cases hlisted : ∃ f ∈ s.faults, f.number = n
  · exact .inl ⟨hlisted, by rw [State.enterFault, State.raiseKind_of_listed hlisted]⟩
  · have hnew : ∀ f ∈ s.faults, f.number ≠ n := fun f hf hnumber => hlisted ⟨f, hf, hnumber⟩
    by_cases hroom : s.faults.length < Config.faultEntries
    · exact .inr (.inl (by rw [State.enterFault, State.raiseKind_of_room hnew hroom]))
    · have hfull := Nat.not_lt.1 hroom
      exact .inr (.inr ⟨hfull, by rw [State.enterFault, State.raiseKind_of_full hnew hfull]⟩)

theorem State.raised_enterFault (s : State) (n : Half) (o : Origin) (r : Half) : (s.enterFault n o r).raised n := by
  rw [State.raised, State.hasFault_iff]
  rcases s.faults_enterFault n o r with ⟨⟨f, hf, hnumber⟩, h⟩ | h | ⟨hfull, h⟩
  · exact .inl ⟨f.again s.clock s.epoch, h ▸ List.mem_map.2 ⟨f, hf, if_pos hnumber⟩, hnumber⟩
  · exact .inl ⟨_, h ▸ List.mem_append_right _ List.mem_cons_self, rfl⟩
  · exact .inr (h ▸ hfull)

theorem State.raised.enterFault {s : State} {n : Half} (hs : s.raised n) (m : Half) (o : Origin) (r : Half) :
    (s.enterFault m o r).raised n := by
  rw [State.raised, State.hasFault_iff] at hs ⊢
  rcases s.faults_enterFault m o r with ⟨-, h⟩ | h | ⟨-, h⟩
  · rw [h, List.length_map]
    refine hs.imp_left fun ⟨f, hf, hnumber⟩ => ⟨_, List.mem_map_of_mem hf, ?_⟩
    split <;> exact hnumber
  · rw [h, List.length_append]
    exact hs.imp (fun ⟨f, hf, hnumber⟩ => ⟨f, List.mem_append_left _ hf, hnumber⟩) fun hfull => by omega
  · rwa [h]

theorem State.raised.raiseFault {s : State} {n : Half} (hs : s.raised n) (m : Half) (o : Origin) (r : Half) :
    (s.raiseFault m o r).raised n :=
  State.raised_of_faults (State.raiseFault_faults s m o r) (hs.enterFault m o r)

theorem State.raised.act {s : State} {n : Half} (hs : s.raised n) (a : Action) : (s.act a).raised n := by
  cases a with
  | system w => exact State.raised_of_faults (State.writeSystem_faults s w) hs
  | policy z => exact State.raised_of_faults (by rw [State.act, State.writePolicy_frame]) hs
  | clearing w => exact State.raised_of_faults (by rw [State.act, State.writeClearing_frame]) hs
  | raise m => exact hs.raiseFault _ _ _
  | move ms => exact State.raised_of_faults (by rw [State.act, State.takeMoves_frame]) hs

theorem State.raised_actFreely (s : State) (blocks : List (List Action)) {n : Nat} (h : .raise n ∈ blocks.flatten) :
    (s.actFreely blocks).raised (natHalf n) :=
  State.actFreely_reaches (fun _ => True) (State.raised · (natHalf n)) s blocks _ h (fun _ => trivial) (fun _ _ _ _ => trivial)
    (fun t _ => State.raised_of_faults (State.raiseFault_faults t _ _ _) (t.raised_enterFault _ _ _))
    fun a _ _ _ ht => ht.act a

theorem State.raised_endSession (s : State) (ended : SessionRef) (cause : EndCause) {monitor : List (List Action)} {n : Nat}
    (h : .raise n ∈ monitor.flatten) : (s.endSession ended cause monitor).raised (natHalf n) := by
  rw [State.endSession_eq]
  refine State.raised_actFreely _ _ ?_
  rw [List.flatten_append]
  exact List.mem_append_left _ h

end Sys2Proof.Machine
end

section
/-! The monitor's points through the end of a session (R23, R34): in whatever order the blocks write, they end as the port's
record has them. -/

namespace Sys2Proof.Machine

/-! ## What leaves the monitor's points alone -/

/-- R23: the points of the session monitor stand the same. -/
def State.sameMonitor (s t : State) : Prop :=
  (∀ i, 48 ≤ i → i < 60 → t.bit i = s.bit i) ∧ ∀ i, 48 ≤ i → i < 52 → t.word i = s.word i

/-- R23: points away from those of the session monitor. -/
def Points.offMonitor (w : Points) : Prop := (∀ b ∈ w.bits, b.1 < 48 ∨ 60 ≤ b.1) ∧ ∀ x ∈ w.words, x.1 < 48 ∨ 52 ≤ x.1

theorem State.sameMonitor_store (s : State) {w : Points} (hw : w.offMonitor) : s.sameMonitor (s.store w) :=
  ⟨fun i hlow hhigh => State.bit_store_ne s w i fun b hb => by have := hw.1 b hb; omega,
    fun i hlow hhigh => State.word_store_ne s w i fun x hx => by have := hw.2 x hx; omega⟩

theorem State.sameMonitor_writeSystem (s : State) {w : Points} (hw : w.offMonitor) : s.sameMonitor (s.writeSystem w) := by
  obtain ⟨hbits, hwords⟩ := s.sameMonitor_store hw
  exact ⟨fun i hlow hhigh => (s.writeSystem_bit w i (by omega)).trans (hbits i hlow hhigh),
    fun i hlow hhigh => (s.writeSystem_word w i (by omega)).trans (hwords i hlow hhigh)⟩

theorem Points.definable.offMonitor {w : Points} (h : w.definable) : w.offMonitor :=
  ⟨fun b hb => by have := h.1 b hb; omega, fun x hx => by have := h.2 x hx; omega⟩

theorem Points.ofExchange.offMonitor {w : Points} (h : w.ofExchange) : w.offMonitor :=
  ⟨fun b hb => absurd (h.1 ▸ hb) List.not_mem_nil, fun x hx => by have := h.2 x hx; omega⟩

theorem faultPoints_offMonitor (s t : State) : (faultPoints s t).offMonitor := by
  obtain ⟨hbits, hwords⟩ := faultPoints_range s t
  exact ⟨fun b hb => .inr (hbits b hb).1, fun x hx => .inr (hwords x hx).1⟩

theorem zonePoints_offMonitor (s t : State) : (zonePoints s t).offMonitor := by
  constructor
  · intro b hb
    simp only [zonePoints, List.mem_append, List.mem_filterMap] at hb
    rcases hb with ⟨z, -, h⟩ | ⟨z, -, h⟩ <;>
    · split at h
      · nomatch h
      · obtain rfl := Option.some.inj h
        dsimp only
        omega
  · intro x hx
    simp only [zonePoints] at hx
    split at hx
    · nomatch hx
    · rw [List.mem_singleton.1 hx]
      exact .inr (by dsimp only; omega)

theorem tokenPoints_offMonitor (s t : State) : (tokenPoints s t).offMonitor := by
  constructor <;>
  · intro b hb
    simp only [tokenPoints, List.mem_map, List.mem_filter, List.mem_range, Config.tokenCount] at hb
    obtain ⟨n, ⟨hn, -⟩, rfl⟩ := hb
    exact .inl (by dsimp only; omega)

theorem State.sameMonitor_writePolicy {s : State} (h : s.zonesInArea) (z : Nat) : s.sameMonitor (s.writePolicy z) := by
  unfold State.writePolicy
  split
  · rename_i w hw
    obtain ⟨r, hr, hw⟩ := Option.bind_eq_some_iff.1 hw
    obtain ⟨hbits, hwords⟩ :=
      s.sameMonitor_store (ZoneRecord.definable_of_inArea (h z r hr).2.2 (.inr hw)).offMonitor
    exact ⟨fun i hlow hhigh => (s.writeZones_bit _ w i (by omega)).trans (hbits i hlow hhigh),
      fun i hlow hhigh => (s.writeZones_word _ w i (by omega)).trans (hwords i hlow hhigh)⟩
  · exact ⟨fun _ _ _ => rfl, fun _ _ _ => rfl⟩

theorem State.sameMonitor_raiseFault (s : State) (n : Half) (o : Origin) (r : Half) : s.sameMonitor (s.raiseFault n o r) := by
  have hwritten : s.sameMonitor (s.writeFaults (s.enterFault n o r)) := by
    obtain ⟨hbits, hwords⟩ := (s.enterFault n o r).sameMonitor_writeSystem (faultPoints_offMonitor s (s.enterFault n o r))
    rw [State.enterFault_frame] at hbits hwords ⊢
    exact ⟨hbits, hwords⟩
  unfold State.raiseFault State.raiseFaultAttention
  dsimp only
  split
  · exact hwritten
  all_goals exact ⟨fun i hlow hhigh => (State.raiseFor_bit _ _ _ _ i).trans (hwritten.1 i hlow hhigh),
      fun i hlow hhigh => (State.raiseFor_word _ _ _ _ i).trans (hwritten.2 i hlow hhigh)⟩

/-! ## The zones' ranges through the actions of an event (R41) -/

/-- R88 to R91: an action leaves the ranges of every zone. -/
theorem Action.inArea_onZone (z : Nat) (c : Clock) (e : Byte) (o : Option ZoneRecord) (a : Action) :
    (a.onZone z c e o).map ZoneRecord.inArea = o.map ZoneRecord.inArea := by
  cases a with
  | system w | clearing w | raise n => rfl
  | policy k =>
    have hpolicy : ∀ r : ZoneRecord, (r.policyApplied c e).inArea = r.inArea := by
      intro r
      rw [ZoneRecord.policyApplied_eq]
      split <;> rfl
    dsimp only [Action.onZone]
    split
    · rw [Option.map_map]
      exact congrArg (Option.map · o) (funext hpolicy)
    · rfl
  | move ms =>
    refine List.foldlRecOn (motive := fun o' : Option ZoneRecord => o'.map ZoneRecord.inArea = o.map ZoneRecord.inArea) ms _ rfl
      fun o' ho' m _ => ?_
    split
    · rw [Option.map_map]
      exact ho'
    · exact ho'

theorem State.zonesInArea.act {s : State} (h : s.zonesInArea) (a : Action) : (s.act a).zonesInArea := by
  intro z r' hr'
  have hkept := a.inArea_onZone z s.clock s.epoch (s.zone z)
  rw [← State.act_record, hr', Option.map_some] at hkept
  obtain ⟨r, hr, harea⟩ := Option.map_eq_some_iff.1 hkept.symm
  obtain ⟨hlow, hhigh, hin⟩ := h z r hr
  exact ⟨hlow, hhigh, harea ▸ hin⟩

/-! ## The blocks of a session end -/

/-- R88: a LEAVE applies no loss policy. -/
theorem State.isLoss_of_zoneAtEnd {s : State} {ended : SessionRef} {cause : EndCause} {z : Nat} {m : ZoneMove}
    (hm : s.zoneAtEnd ended cause z = some m) (hpolicy : m.policy = true) : cause.isLoss = true := by
  cases cause with
  | lost | replaced => rfl
  | leave =>
    unfold State.zoneAtEnd at hm
    split at hm
    · nomatch hm
    · split at hm
      · split at hm
        · obtain rfl := Option.some.inj hm
          unfold State.ownedAtEnd at hpolicy
          split at hpolicy <;> simp [EndCause.isLoss] at hpolicy
        · nomatch hm
      · split at hm
        · obtain rfl := Option.some.inj hm
          nomatch hpolicy
        · nomatch hm
      · nomatch hm
      · nomatch hm

/-- R34: the actions that follow the records of a session end leave the monitor's points alone, but for the monitor's own. -/
theorem State.endSession_action {s1 s2 s3 : State} {ended : SessionRef} {cause : EndCause} {monitor : List (List Action)} {n : Nat}
    {a : Action}
    (ha : a ∈ (monitor ++ [(s1.zoneActions (s1.zoneMoves ended cause) n).1, systemAction (tokenPoints s1 s2),
      systemAction (exchangePoints s2 s3)]).flatten)
    (hmonitor : ∀ a ∈ monitor.flatten, (∃ n, a = .raise n) ∨ a = .system w) {t : State}
    (harea : cause.isLoss = true → t.zonesInArea) : a = .system w ∨ t.sameMonitor (t.act a) := by
  simp only [List.flatten_append, List.flatten_cons, List.flatten_nil, List.append_nil, List.mem_append] at ha
  rcases ha with ha | ha | ha | ha
  · rcases hmonitor a ha with ⟨n, rfl⟩ | ha
    · exact .inr (t.sameMonitor_raiseFault _ _ _)
    · exact .inl ha
  · rw [State.mem_zoneActions] at ha
    rcases ha with ⟨m, hm, hpolicy, rfl⟩ | ha | ha | ⟨m, -, -, rfl⟩
    · obtain ⟨z, -, hz⟩ := List.mem_filterMap.1 hm
      exact .inr (State.sameMonitor_writePolicy (harea (State.isLoss_of_zoneAtEnd hz hpolicy)) _)
    · rw [mem_moveAction _ _ ha]
      refine .inr ?_
      rw [State.act, State.takeMoves_frame]
      exact ⟨fun _ _ _ => rfl, fun _ _ _ => rfl⟩
    · rw [mem_systemAction _ _ ha]
      exact .inr (t.sameMonitor_writeSystem (zonePoints_offMonitor ..))
    · exact .inr (t.sameMonitor_raiseFault _ _ _)
  · rw [mem_systemAction _ _ ha]
    exact .inr (t.sameMonitor_writeSystem (tokenPoints_offMonitor ..))
  · rw [mem_systemAction _ _ ha]
    exact .inr (t.sameMonitor_writeSystem (exchangePoints_ofExchange ..).offMonitor)

/-- R23, R34: the port's points after a session end, written once in a free order. -/
theorem State.endSession_monitorPoints (s : State) (ended : SessionRef) {cause : EndCause} (p : Port) (r : PortRecord)
    {rest : List (List Action)} (hrest : ∀ a ∈ rest.flatten, ∃ n, a = .raise n) (harea : cause.isLoss = true → s.zonesInArea) :
    let t := s.endSession ended cause ([.system (monitorPoints p r)] :: rest)
    t.bit (48 + p.index) = r.session.isSome ∧ t.bit (52 + p.index) = r.isLate ∧ t.bit (56 + p.index) = r.lostCondition ∧
      t.word (48 + p.index) = r.number := by
  intro t
  have hmonitor : ∀ a ∈ ([.system (monitorPoints p r)] :: rest).flatten, (∃ n, a = .raise n) ∨ a = .system (monitorPoints p r) := by
    intro a ha
    rw [List.flatten_cons, List.mem_append, List.mem_singleton] at ha
    exact ha.symm.imp_left (hrest a)
  have hp := Port.index_lt p
  have hrecords : ∀ n, cause.isLoss = true → State.zonesInArea { s.endRecords ended cause with freeDraws := n } := by
    intro n hloss z r' hr'
    have hzones : (s.endRecords ended cause).zones = s.zones := by simp [State.endRecords, State.dropAttention]
    exact harea hloss z r' ((congrArg (Memory.read none · z) hzones).symm.trans hr')
  have hmem : ∀ blocks, ∀ a ∈ systemAction (monitorPoints p r),
      a ∈ (([.system (monitorPoints p r)] :: rest) ++ blocks).flatten :=
    fun blocks a ha => mem_systemAction _ _ ha ▸ List.mem_cons_self
  have hbit : ∀ i, 48 ≤ i → i < 60 → t.bit i = ((s.endRecords ended cause).store (monitorPoints p r)).bit i := by
    intro i hlow hhigh
    refine State.actFreely_bit (fun u => cause.isLoss = true → u.zonesInArea) _ _ (monitorPoints p r) i (by omega) hrecords (hmem _)
      fun a ha u hu => ⟨fun hloss => (hu hloss).act a, ?_⟩
    exact (State.endSession_action ha hmonitor hu).imp_right fun h => h.1 i hlow hhigh
  have hword : ∀ i, 48 ≤ i → i < 52 → t.word i = ((s.endRecords ended cause).store (monitorPoints p r)).word i := by
    intro i hlow hhigh
    refine State.actFreely_word (fun u => cause.isLoss = true → u.zonesInArea) _ _ (monitorPoints p r) i (by omega) hrecords (hmem _)
      fun a ha u hu => ⟨fun hloss => (hu hloss).act a, ?_⟩
    exact (State.endSession_action ha hmonitor hu).imp_right fun h => h.2 i hlow hhigh
  rw [hbit _ (by omega) (by omega), hbit _ (by omega) (by omega), hbit _ (by omega) (by omega), hword _ (by omega) (by omega)]
  exact State.bits_store_monitorPoints _ p r

end Sys2Proof.Machine
end

section
/-! Sessions begin, are replaced, and end (R26 to R29, R32, R34). -/

namespace Sys2Proof.Machine

/-! ## A session that ends -/

/-- R34, R36: what is left of a port's session after its end. -/
structure State.SessionEnded (s t : State) (p : Port) (r : PortRecord) : Prop where
  port : t.ports.get p = r
  others : ∀ q, q ≠ p → t.ports.get q = s.ports.get q
  record : t.attention.get p = none
  messages : t.exchange.sessions.get p = none ∧ t.exchange.urgent.get p = [] ∧ t.exchange.normal.get p = []
  points : t.bit (48 + p.index) = r.session.isSome ∧ t.bit (52 + p.index) = r.isLate ∧
    t.bit (56 + p.index) = r.lostCondition ∧ t.word (48 + p.index) = r.number
  tells : ∀ q, q ≠ p → (t.attention.get q).map (fun r => (r.pending &&& 16, r.ports)) =
    (s.attention.get q).map fun r => (16, r.ports ||| p.single)
  counter : t.sessionCounter = s.sessionCounter
  links : t.links = s.links

/-- R29, R32: a session's end with the monitor's part and PEER. -/
theorem State.sessionEnded (s : State) (p : Port) (n : Half) (r : PortRecord) {cause : EndCause}
    {rest : List (List Action)} (hrest : ∀ a ∈ rest.flatten, ∃ n, a = .raise n) (harea : cause.isLoss = true → s.zonesInArea) :
    s.SessionEnded (((s.setPort p r).endSession ⟨p, n⟩ cause ([.system (monitorPoints p r)] :: rest)).raisePeer p) p r where
  port := by simp
  others q hq := by simp [hq]
  record := by
    rw [State.attention_raisePeer, if_pos rfl]
    exact State.attention_eq_none_of_told ((State.told_endSession _ _ _ _ p).trans (if_pos rfl))
  messages := by
    rw [State.raisePeer_exchange]
    exact State.endSession_exchange_gone (s.setPort p r) ⟨p, n⟩ cause _
  points := by
    simp only [State.raisePeer_bit, State.raisePeer_word]
    exact State.endSession_monitorPoints (s.setPort p r) ⟨p, n⟩ p r hrest harea
  tells := State.raisePeer_tells fun q hq => (State.told_endSession _ _ _ _ q).trans (if_neg hq)
  counter := by simp
  links := by simp

theorem State.secondExpiry_of_reached {s : State} {p : Port} {m : Membership} (h : s.ports.get p = .late m)
    (hdue : m.deadline = s.clock) :
    s.secondExpiry p = ((s.setPort p .lost).endSession ⟨p, m.number⟩ .lost
      [[.system (monitorPoints p .lost)], [.raise (4080 + p.index)]]).raisePeer p := by
  simp [State.secondExpiry, h, hdue, reached]

theorem State.secondExpiry_of_not {s : State} {p : Port} (h : ∀ m, s.ports.get p = .late m → m.deadline ≠ s.clock) :
    s.secondExpiry p = s := by
  cases hr : s.ports.get p with
  | late m => simp [State.secondExpiry, hr, reached, h m hr]
  | online m | offline | lost => simp [State.secondExpiry, hr]

/-- Settles O20: the session ends LOST, and its fault is raised among the end's actions. -/
theorem secondExpiryLosesTheSession : Obligations.SecondExpiryLosesTheSession := by
  refine fun s p => ⟨fun m h hdue harea => ⟨_, congrArg Host.Outcome.next (State.secondExpiry_of_reached h hdue), ?_⟩, fun h => ?_⟩
  · have ended := s.sessionEnded p m.number .lost (cause := .lost) (rest := [[.raise (4080 + p.index)]])
      (fun a ha => ⟨_, List.mem_singleton.1 ha⟩) fun _ => harea
    obtain ⟨hsessions, hurgent, hnormal⟩ := ended.messages
    obtain ⟨hsession, hlate, hlost, hnumber⟩ := ended.points
    refine ⟨ended.port, ended.others, ended.record, hsessions, hurgent, hnormal, hsession, hlate, hlost, hnumber, ?_,
      ended.tells, ended.counter, ended.links⟩
    exact State.raised_of_faults (State.raisePeer_faults _ p)
      (State.raised_endSession _ _ _ (List.mem_cons_of_mem _ List.mem_cons_self))
  · exact congrArg Host.Outcome.next (State.secondExpiry_of_not h)

/-- R25, R36: a port whose arrival is told a second time adds nothing to PEER's details. -/
theorem State.told_qualify (s : State) (p : Port) (n : Half) (q : Port) :
    ((s.qualify p n).attention.get q).map (fun r => ((16 : CauseSet), r.ports ||| p.single)) =
      (s.attention.get q).map fun r => (16, r.ports ||| p.single) := by
  have hlate : ∀ r : PortRecord, ((s.monitorEvent p r).attention.get q).map (fun r => ((16 : CauseSet), r.ports ||| p.single)) =
      (s.attention.get q).map fun r => (16, r.ports ||| p.single) := by
    intro r
    by_cases hq : q = p
    · have hown := congrArg (Option.map fun x : CauseSet × PortSet => ((16 : CauseSet), x.2 ||| p.single)) (s.monitorEvent_own p r)
      simpa only [hq, Option.map_map, Function.comp_def] using hown
    · have htells := congrArg (Option.map fun x : CauseSet × PortSet => ((16 : CauseSet), x.2 ||| p.single))
        (s.monitorEvent_tells p r q hq)
      simpa only [Option.map_map, Function.comp_def, BitVec.or_assoc, BitVec.or_self] using htells
  unfold State.qualify
  split
  · split <;> rfl
  · split
    · exact hlate _
    · rfl
  · rfl
  · rfl

theorem serveLeave_empty (who : SessionRef) (s : State) : serveLeave who [] s =
    (((s.setPort who.port .offline).endSession who .leave [[.system (monitorPoints who.port .offline)]]).raisePeer who.port,
      .done 0 []) := rfl

/-- Settles O16: the session ends for the cause LEAVE, and the reply shows the port OFFLINE. -/
theorem leaveEndsTheSession : Obligations.LeaveEndsTheSession := by
  refine fun s p m tag serves => ⟨⟨_, exec_of_serves serves .leave tag [] (serveLeave · []) rfl, ?_⟩, fun body hbody => ?_⟩
  · rw [serveLeave_empty]
    have ended := (s.qualify p m.number).sessionEnded p m.number .offline (cause := .leave) (rest := []) (by simp)
      fun hloss => nomatch hloss
    obtain ⟨hsessions, hurgent, hnormal⟩ := ended.messages
    obtain ⟨hsession, hlate, hlost, hnumber⟩ := ended.points
    refine ⟨ended.port, fun q hq => ?_, ended.record, hsessions, hurgent, hnormal, hsession, hlate, hlost, hnumber,
      fun q hq => ?_, ?_, ?_⟩
    · exact (ended.others q hq).trans (State.qualify_ports_ne s p q m.number hq)
    · exact (ended.tells q hq).trans (s.told_qualify p m.number q)
    · exact ended.counter.trans (State.qualify_sessionCounter s p m.number)
    · rw [State.replied_link]
      exact congrArg (fun r : PortRecord => some ((Answer.mk .done 0 []).frame tag 0x03 r.stateCode)) ended.port
  · refine exec_of_refusal serves .leave tag body (serveLeave · body) rfl .badRequest 0 ?_
    exact if_neg hbody

/-! ## A session that begins -/

/-- R22, R28, R36: what a JOIN leaves of a port's session that begins. -/
structure State.SessionBegun (s t : State) (p : Port) (time : Byte) : Prop where
  counter : t.sessionCounter = seqNext s.sessionCounter
  port : t.ports.get p = .online ⟨seqNext s.sessionCounter, time, s.clock + BitVec.ofNat 32 (time.toNat * 5), 0⟩
  others : ∀ q, q ≠ p → t.ports.get q = s.ports.get q
  record : t.attention.get p = some ⟨0, 0b111111, 0, 0, 0, 0, 0, 0, [], false⟩
  messages : t.exchange.sessions.get p = some ⟨0, 1, 0, none⟩
  queues : t.exchange.urgent = s.exchange.urgent ∧ t.exchange.normal = s.exchange.normal
  points : t.bit (48 + p.index) = true ∧ t.bit (52 + p.index) = false ∧ t.bit (56 + p.index) = false ∧
    t.word (48 + p.index) = seqNext s.sessionCounter
  tells : ∀ q, q ≠ p → (t.attention.get q).map (fun r => (r.pending &&& 16, r.ports)) =
    (s.attention.get q).map fun r => (16, r.ports ||| p.single)
  keeps : t.zones = s.zones ∧ t.tokens = s.tokens ∧ t.faults = s.faults ∧ t.clock = s.clock

theorem State.sessionBegun (s : State) (p : Port) (time : Byte) : s.SessionBegun (s.beginSession p time) p time where
  counter := by simp [State.beginSession]
  port := by simp [State.beginSession, monitorDeadline, msAfter]
  others q hq := by simp [State.beginSession, hq]
  record := by
    rw [State.beginSession, State.attention_raisePeer, if_pos rfl]
    exact State.writeSystem_no_slots _ _ p .start (PerPort.get_set_same _ _ _) rfl
  messages := by
    simp only [State.beginSession, State.raisePeer_exchange, State.writeMonitor_exchange, PerPort.get_set_same]
    rfl
  queues := by simp [State.beginSession]
  points := by
    simp only [State.beginSession, State.raisePeer_bit, State.raisePeer_word, State.writeMonitor, PerPort.get_set_same]
    rw [State.writeSystem_bit _ _ _ (by omega), State.writeSystem_bit _ _ _ (by omega), State.writeSystem_bit _ _ _ (by omega),
      State.writeSystem_word _ _ _ (by omega)]
    exact State.bits_store_monitorPoints _ p _
  tells := State.raisePeer_tells fun q hq =>
    (State.writeSystem_told _ _ q).trans (congrArg _ (PerPort.get_set_ne _ _ _ _ hq))
  keeps := by simp [State.beginSession]

theorem State.sessionNumber_eq (s : State) (p : Port) : s.sessionNumber p = (s.session p).elim 0 SessionRef.number := by
  unfold State.sessionNumber PortRecord.number State.session
  cases (s.ports.get p).session <;> rfl

/-- R26, R27: the session that a JOIN begins, over the end of the one it replaces. -/
theorem exec_join {s : State} {p : Port} (hears : s.hears p) (tag : Byte) (n : Half) {time : Byte} (htime : time ≠ 0) :
    exec (.join p tag n [0, time]) s = .next ((((s.qualify p n).replaceSession p).beginSession p time).replied p
      ((Answer.mk .done (seqNext ((s.qualify p n).replaceSession p).sessionCounter) (halfBytes (s.sessionNumber p))).frame
        tag 0x02 1)) := by
  have begun := ((s.qualify p n).replaceSession p).sessionBegun p time
  have hserve : serveJoin p [0, time] (s.qualify p n) =
      (((s.qualify p n).replaceSession p).beginSession p time,
        ⟨.done, seqNext ((s.qualify p n).replaceSession p).sessionCounter, halfBytes (s.sessionNumber p)⟩) := by
    have hnumber : (((s.qualify p n).replaceSession p).beginSession p time).sessionNumber p =
        seqNext ((s.qualify p n).replaceSession p).sessionCounter := by
      rw [State.sessionNumber, begun.port]
      rfl
    rw [serveJoin, if_pos ⟨rfl, htime⟩]
    dsimp only
    rw [hnumber, State.sessionNumber_eq, State.qualify_session, ← State.sessionNumber_eq]
  refine (exec_command .join p tag n [0, time] s).trans ?_
  rw [State.request_of_hears _ _ hears]
  show Host.Outcome.next ((serveJoin p [0, time] (s.qualify p n)).1.replied p
    ((serveJoin p [0, time] (s.qualify p n)).2.frame tag 0x02
      ((serveJoin p [0, time] (s.qualify p n)).1.ports.get p).stateCode)) = _
  rw [hserve, begun.port]
  rfl

theorem serveJoin_refused {p : Port} {body : List Byte} (h : ∀ time : Byte, time ≠ 0 → body ≠ [0, time]) (s : State) :
    serveJoin p body s = (s, .refuse .badRequest 0) := by
  unfold serveJoin
  split
  · rename_i hi lo
    exact if_neg fun ⟨hzero, htime⟩ => h lo htime (by rw [hzero])
  · rfl

theorem State.replaceSession_none {s : State} {p : Port} (h : s.session p = none) : s.replaceSession p = s := by
  simp [State.replaceSession, h]

/-- Settles O14: nothing is replaced, and the reply's body is the number 0. -/
theorem joinBeginsASession : Obligations.JoinBeginsASession := by
  refine fun s p tag session hears => ⟨fun time hnone htime => ?_, fun body hbody => ?_⟩
  · have hsession : s.session p = none := by simp [State.session, hnone]
    have hqualify : s.qualify p session = s := State.qualify_other s p session fun m hm => nomatch hnone.symm.trans hm
    have begun := s.sessionBegun p time
    have hexec := exec_join hears tag session htime
    rw [hqualify, State.replaceSession_none hsession, State.sessionNumber_eq, hsession] at hexec
    obtain ⟨hsessionBit, hlate, hlost, hnumber⟩ := begun.points
    obtain ⟨hzones, htokens, hfaults, hclock⟩ := begun.keeps
    refine ⟨_, hexec, begun.counter, begun.port, begun.others, begun.record, begun.messages, hsessionBit, hlate, hlost, hnumber,
      begun.tells, ?_, fun z => congrArg (Memory.read none · z) hzones, htokens, hfaults, hclock⟩
    rw [State.replied_link]
    rfl
  · refine (exec_command .join p tag session body s).trans ?_
    rw [State.request_of_hears _ _ hears]
    show Host.Outcome.next ((serveJoin p body (s.qualify p session)).1.replied p
      ((serveJoin p body (s.qualify p session)).2.frame tag 0x02
        ((serveJoin p body (s.qualify p session)).1.ports.get p).stateCode)) = _
    rw [serveJoin_refused hbody]
    rfl

/-- R27, R34: a session that is replaced leaves its fault and empty queues. -/
structure State.SessionReplaced (s t : State) (p : Port) : Prop where
  counter : t.sessionCounter = s.sessionCounter
  clock : t.clock = s.clock
  raised : t.raised (natHalf (4084 + p.index))
  queues : t.exchange.urgent.get p = [] ∧ t.exchange.normal.get p = []

theorem State.sessionReplaced {s : State} {p : Port} {ended : SessionRef} (h : s.session p = some ended) :
    s.SessionReplaced (s.replaceSession p) p := by
  obtain rfl := State.session_port h
  have hreplace : s.replaceSession ended.port =
      (s.setPort ended.port .offline).endSession ended .replaced [[.raise (4084 + ended.port.index)]] := by
    simp [State.replaceSession, h]
  rw [hreplace]
  exact ⟨by simp, by simp, State.raised_endSession _ _ _ List.mem_cons_self, (State.endSession_exchange_gone _ ended _ _).2⟩

/-- Settles O15: the old session ends REPLACED, and the new one begins with what a JOIN gives it. -/
theorem joinReplacesTheSession : Obligations.JoinReplacesTheSession := by
  intro s p m tag time session serves htime n
  have hexec := exec_join serves.1 tag session htime
  have hnumber : s.sessionNumber p = m.number := by
    rw [State.sessionNumber_eq, State.session_of_serves serves]
    rfl
  have replaced : s.SessionReplaced ((s.qualify p session).replaceSession p) p := by
    have hreplaced := State.sessionReplaced ((s.qualify_session p p session).trans (State.session_of_serves serves))
    exact ⟨hreplaced.counter.trans (by simp), hreplaced.clock.trans (by simp), hreplaced.raised, hreplaced.queues⟩
  rw [hnumber] at hexec
  revert hexec replaced
  generalize (s.qualify p session).replaceSession p = u
  intro hexec replaced
  have begun := u.sessionBegun p time
  obtain ⟨hsessionBit, hlate, hlost, hword⟩ := begun.points
  obtain ⟨-, -, hfaults, -⟩ := begun.keeps
  rw [replaced.counter] at hexec hword
  refine ⟨_, hexec, ?_, ?_, begun.record, begun.messages, ?_, ?_, State.raised_of_faults hfaults replaced.raised, hsessionBit,
    hlate, hlost, hword, ?_⟩
  · exact begun.counter.trans (congrArg seqNext replaced.counter)
  · exact begun.port.trans (by rw [replaced.counter, replaced.clock])
  · exact (congrArg (PerPort.get · p) begun.queues.1).trans replaced.queues.1
  · exact (congrArg (PerPort.get · p) begun.queues.2).trans replaced.queues.2
  · rw [State.replied_link]

end Sys2Proof.Machine
end

section
/-! READ_ATTENTION (R152, R166): what it reports, and what it clears. -/

namespace Sys2Proof.Machine

/-! ## The cause of a waiting message (R152) -/

theorem CauseSet.message_pending : ∀ x : CauseSet, (x &&& Cause.message.bit != 0) = x.getLsbD 0 := by decide

/-- R160: the level of a record whose only cause is MESSAGE, or that has none. -/
theorem atnLevel_message : ∀ (again : Bool) (mask : CauseSet),
    atnLevel (if again then 1 else 0) mask = (again && mask.getLsbD 0) := by decide

/-- R152: MESSAGE is left pending after a read. -/
def State.messageAgain (s : State) (p : Port) (e : MessageSession) : Bool :=
  !(s.exchange.urgent.get p).isEmpty || decide (e.threshold.toNat ≤ (s.exchange.normal.get p).length)

section
variable {s : State} {p : Port} {e : MessageSession} (he : s.exchange.sessions.get p = some e)
include he

theorem State.messageRead_eq : s.messageRead p =
    if s.messageAgain p e then .again
    else if (s.exchange.normal.get p).length ≠ 0 ∧ e.time ≠ 0 then .restart else .clear := by
  unfold State.messageRead State.messageAgain
  rw [he, Option.getD_some]
  cases (s.exchange.urgent.get p).isEmpty <;> simp

theorem State.messageRead_pending : (s.messageRead p).pending = if s.messageAgain p e then 1 else 0 := by
  rw [State.messageRead_eq he]
  split
  · rfl
  · split <;> rfl

theorem State.afterMessageRead_session : (s.afterMessageRead p (s.messageRead p)).exchange.sessions.get p = some { e with
    deadline :=
      if s.messageAgain p e then e.deadline
      else if (s.exchange.normal.get p).length ≠ 0 ∧ e.time ≠ 0 then some (s.clock + BitVec.ofNat 32 e.time.toNat) else none } := by
  rw [State.messageRead_eq he]
  split
  · exact he
  · split
    · simp [State.afterMessageRead, State.startCoalesce, State.mapMessages, he, msAfter]
    · simp [State.afterMessageRead, State.stopCoalesce, State.mapMessages, he]

/-- R152, R166: the record and the exchange state of the port after a read. -/
theorem State.readAttention_spec (a : AttentionRecord) :
    let again := a.pending.getLsbD 0 && s.messageAgain p e
    (s.readAttention p a).attention.get p = some (a.cleared (if again then 1 else 0)) ∧
      (s.readAttention p a).exchange.sessions.get p = some { e with
        deadline :=
          if !a.pending.getLsbD 0 || again then e.deadline
          else if (s.exchange.normal.get p).length ≠ 0 ∧ e.time ≠ 0 then some (s.clock + BitVec.ofNat 32 e.time.toNat)
          else none } := by
  unfold State.readAttention
  rw [CauseSet.message_pending]
  cases a.pending.getLsbD 0
  · exact ⟨PerPort.get_set_same _ _ _, he⟩
  · refine ⟨(PerPort.get_set_same _ _ _).trans ?_, State.afterMessageRead_session he⟩
    rw [State.messageRead_pending he]
    rfl

end

theorem State.readAttention_ports (s : State) (p : Port) (a : AttentionRecord) : (s.readAttention p a).ports = s.ports := by
  unfold State.readAttention State.afterMessageRead
  split
  · split <;> rfl
  · rfl

/-! ## The record cleared and reported (R166, R188) -/

theorem AttentionRecord.slot_cleared (a : AttentionRecord) (pending : CauseSet) (k : Nat) :
    (a.cleared pending).slot k = (a.slot k).map Watch.unfire := by
  exact Memory.read_mapValues none _ rfl a.slots k

theorem slotBytes_eq (w : Option Watch) :
    slotBytes w = match w with | some w => [if w.fired then 3 else 1, w.overrun] | none => [0, 0] := by
  cases w with
  | none => rfl
  | some w =>
    obtain ⟨zone, kind, fired, overrun⟩ := w
    cases fired <;> rfl

/-- Settles O48: the record as the arrival leaves it is reported, and cleared with what R152 leaves pending. -/
theorem readAttentionReportsAndClears : Obligations.ReadAttentionReportsAndClears := by
  refine fun s p m tag serves => ⟨fun body hbody => ?_, fun a e => ?_⟩
  · exact exec_of_refusal serves .readAttention tag body (serveReadAttention · body) rfl .badRequest 0 (if_neg hbody)
  intro u ha he depth message again
  have hserve : serveReadAttention (m.on p) [] u = (u.readAttention p a, ⟨.done, a.pending.setWidth 16, a.report⟩) := by
    rw [serveReadAttention, if_pos rfl]
    dsimp only
    rw [State.record_of_some ha]
  have hexec := exec_of_answer serves .readAttention tag [] (serveReadAttention · []) rfl _ _ hserve
    (congrArg (PerPort.get · p) (u.readAttention_ports p a))
  have heu : u.exchange.sessions.get p = some e := (congrArg (fun x : Exchange => x.sessions.get p) (s.qualify_exchange p m.number)).trans he
  obtain ⟨hrecord, hsession⟩ := State.readAttention_spec heu a
  have hagain : (a.pending.getLsbD 0 && u.messageAgain p e) = again := by
    rw [State.messageAgain, s.qualify_exchange]
  rw [hagain] at hrecord hsession
  refine ⟨_, _, hexec, hrecord, rfl, rfl, rfl, rfl, rfl, rfl, rfl, rfl, a.slot_cleared _, ?_, ?_, ?_⟩
  · exact atnLevel_message again a.mask
  · rw [s.qualify_exchange, s.qualify_clock] at hsession
    exact hsession
  · rw [State.replied_link]
    simp only [AttentionRecord.report, funext slotBytes_eq]
    rfl

end Sys2Proof.Machine
end

section
/-! CLEAR_FAULT and ACK_FAULT (R178, R179). -/

namespace Sys2Proof.Machine

/-! ## The conditions that hold an entry (R172) -/

theorem PortRecord.lostCondition_iff (r : PortRecord) : r.lostCondition = true ↔ r = .lost := by
  cases r <;> simp [PortRecord.lostCondition]

theorem State.zoneCondition_iff (s : State) (n : Nat) :
    s.zoneCondition n = true ↔ ∃ z r, n = 4032 + z ∧ 1 ≤ z ∧ z ≤ 31 ∧ s.zone z = some r ∧ r.status = .orphaned := by
  have horphaned : ∀ r : ZoneRecord, r.isOrphaned = true ↔ r.status = .orphaned := by
    intro r
    unfold ZoneRecord.isOrphaned
    cases r.status <;> simp
  simp only [State.zoneCondition, Bool.and_eq_true, decide_eq_true_eq, Option.any_eq_true, horphaned]
  constructor
  · rintro ⟨⟨hlow, hhigh⟩, r, hr, hstatus⟩
    exact ⟨n - 4032, r, by omega, by omega, by omega, hr, hstatus⟩
  · rintro ⟨z, r, rfl, hlow, hhigh, hr, hstatus⟩
    exact ⟨⟨by omega, by omega⟩, r, by rwa [Nat.add_sub_cancel_left], hstatus⟩

theorem State.portCondition_iff (s : State) (n : Nat) :
    s.portCondition n = true ↔ ∃ q : Port, n = 4080 + q.index ∧ s.ports.get q = .lost := by
  have hall : ∀ q : Port, q ∈ Port.all := fun q => by cases q <;> decide
  simp only [State.portCondition, List.any_eq_true, Bool.and_eq_true, beq_iff_eq, PortRecord.lostCondition_iff, hall, true_and]

/-- R25: the monitor's part of a request makes no port LOST, and ends no LOST condition. -/
theorem State.lost_qualify {s : State} {p : Port} {m : Membership} (hserves : s.serves p m) (q : Port) :
    (s.qualify p m.number).ports.get q = .lost ↔ s.ports.get q = .lost := by
  by_cases hq : q = p
  · subst hq
    rw [State.qualify_ports s q m hserves.2]
    refine ⟨(nomatch ·), fun hlost => ?_⟩
    have hsession := hserves.2
    rw [hlost] at hsession
    nomatch hsession
  · rw [State.qualify_ports_ne s p q m.number hq]

/-! ## CLEAR_FAULT (R178) -/

theorem serveClearFault_of_length (who : SessionRef) {body : List Byte} (h : body.length ≠ 2) (s : State) :
    serveClearFault who body s = (s, .refuse .badRequest 0) := by
  unfold serveClearFault
  split
  · exact absurd rfl h
  · rfl

theorem serveClearFault_of_range (who : SessionRef) {n : Half} (h : n.toNat = 0 ∨ 4095 < n.toNat) (s : State) :
    serveClearFault who (halfBytes n) s = (s, .refuse .range 1) := by
  simp only [serveClearFault, halfBytes, half_halfBytes, if_pos h]

section
variable (who : SessionRef) {n : Half} (hlow : 1 ≤ n.toNat) (hhigh : n.toNat ≤ 4095) (s : State)
include hlow hhigh

theorem serveClearFault_of_number : serveClearFault who (halfBytes n) s =
    if !s.hasFault n then (s, .refuse .notFound 0)
    else if s.zoneCondition n.toNat then (s, .refuse .conditionActive 1)
    else if s.portCondition n.toNat then (s, .refuse .conditionActive 2)
    else (s.removeFault n, .done (s.faults.filter fun e => e.number != n).length []) := by
  have hrange : ¬ (n.toNat = 0 ∨ 4095 < n.toNat) := by omega
  simp only [serveClearFault, halfBytes, half_halfBytes, if_neg hrange]

theorem serveClearFault_of_absent (h : ∀ f ∈ s.faults, f.number ≠ n) :
    serveClearFault who (halfBytes n) s = (s, .refuse .notFound 0) := by
  rw [serveClearFault_of_number who hlow hhigh, if_pos]
  simpa using State.not_hasFault h

theorem serveClearFault_of_listed (h : ∃ f ∈ s.faults, f.number = n) : serveClearFault who (halfBytes n) s =
    if s.zoneCondition n.toNat then (s, .refuse .conditionActive 1)
    else if s.portCondition n.toNat then (s, .refuse .conditionActive 2)
    else (s.removeFault n, .done (s.faults.filter fun e => e.number != n).length []) := by
  rw [serveClearFault_of_number who hlow hhigh, (s.hasFault_iff n).2 h]
  rfl

end

theorem State.removeFault_faults (s : State) (n : Half) : (s.removeFault n).faults = s.faults.filter fun e => e.number != n := by
  simp [State.removeFault, State.raiseFaultAttention, State.writeFaults]

theorem State.removeFault_overflow (s : State) (n : Half) : (s.removeFault n).overflow = s.overflow := by
  simp [State.removeFault, State.raiseFaultAttention, State.writeFaults]

theorem State.removeFault_ports (s : State) (n : Half) : (s.removeFault n).ports = s.ports := by
  simp [State.removeFault, State.raiseFaultAttention, State.writeFaults]

/-- R177: a raise for every port leaves the list and its points. -/
theorem State.showsFaults_raiseFaultAttention {s : State} (h : s.showsFaults) : s.raiseFaultAttention.showsFaults :=
  State.showsFaults_congr h (fun i _ _ => State.raiseFor_bit _ _ _ _ i) (fun i _ _ => State.raiseFor_word _ _ _ _ i)
    (State.raiseFor_faults ..) (State.raiseFor_overflow ..)

theorem State.removeFault_shows {s : State} (h : s.showsFaults) (n : Half) : (s.removeFault n).showsFaults :=
  State.showsFaults_raiseFaultAttention (State.showsFaults_writeFaults h (fun _ _ _ => rfl) fun _ _ _ => rfl)

/-- R70: a write ends and begins no session's record. -/
theorem State.writeSystem_records {α : Type} (s : State) (w : Points) (q : Port) (x : α) :
    ((s.writeSystem w).attention.get q).map (fun _ => x) = (s.attention.get q).map fun _ => x := by
  simpa [Function.comp_def] using congrArg (Option.map fun _ => x) (State.writeSystem_details s w q)

/-- R177: the sessions to which the removal raises FAULT. -/
theorem State.removeFault_pending (s : State) (n : Half) (q : Port) :
    ((s.removeFault n).attention.get q).map (fun a => a.pending &&& 32) = (s.attention.get q).map fun _ => 32 := by
  have hraised : ∀ a : AttentionRecord, (a.raise .fault .none).pending &&& 32 = 32 := fun a =>
    (congrArg (· &&& 32) (a.pending_raise .fault .none)).trans (CauseSet.or_and_self _ _)
  have hkept : ((s.writeFaults { s with faults := s.faults.filter fun e => e.number != n }).attention.get q).map
      (fun _ => (32 : CauseSet)) = (s.attention.get q).map fun _ => 32 :=
    State.writeSystem_records _ _ q 32
  rw [State.removeFault, State.attention_raiseFaultAttention, Option.map_map]
  simpa only [Function.comp_def, hraised] using hkept

/-! ## ACK_FAULT (R179) -/

theorem serveAckFault_of_length (who : SessionRef) {body : List Byte} (h : body.length ≠ 2) (s : State) :
    serveAckFault who body s = (s, .refuse .badRequest 0) := by
  unfold serveAckFault
  split
  · exact absurd rfl h
  · rfl

theorem serveAckFault_of_range (who : SessionRef) {n : Half} (h : 4095 < n.toNat) (s : State) :
    serveAckFault who (halfBytes n) s = (s, .refuse .range 1) := by
  simp only [serveAckFault, halfBytes, half_halfBytes, if_pos h]

section
variable (who : SessionRef) {n : Half} (hhigh : n.toNat ≤ 4095) (s : State)
include hhigh

theorem serveAckFault_of_absent (hn : n ≠ 0) (h : ∀ f ∈ s.faults, f.number ≠ n) :
    serveAckFault who (halfBytes n) s = (s, .refuse .notFound 0) := by
  have habsent : n ≠ 0 ∧ (!s.hasFault n) = true := ⟨hn, by simpa using State.not_hasFault h⟩
  simp only [serveAckFault, halfBytes, half_halfBytes, if_neg (Nat.not_lt.2 hhigh), if_pos habsent]

theorem serveAckFault_of_listed (h : n = 0 ∨ ∃ f ∈ s.faults, f.number = n) :
    serveAckFault who (halfBytes n) s = (s.acknowledgeFaults who.port n, .done (s.ackGain who.port n) []) := by
  have hlisted : ¬ (n ≠ 0 ∧ (!s.hasFault n) = true) := by
    rw [← State.hasFault_iff] at h
    simpa [Decidable.or_iff_not_imp_left] using h
  simp only [serveAckFault, halfBytes, half_halfBytes, if_neg (Nat.not_lt.2 hhigh), if_neg hlisted]

end

theorem ackNames_iff (n : Half) (f : FaultEntry) : ackNames n f = true ↔ n = 0 ∨ f.number = n := by simp [ackNames]

theorem ackNames_eq (n : Half) (f : FaultEntry) : ackNames n f = decide (n = 0 ∨ f.number = n) :=
  Bool.eq_iff_iff.2 ((ackNames_iff n f).trans decide_eq_true_iff.symm)

theorem State.acknowledgeFaults_faults (s : State) (p : Port) (n : Half) : (s.acknowledgeFaults p n).faults =
    s.faults.map fun f => if n = 0 ∨ f.number = n then { f with acknowledged := f.acknowledged ||| p.single } else f := by
  rw [State.acknowledgeFaults, State.writeFaults, State.writeSystem_faults]
  simp only [ackNames_iff, FaultEntry.acknowledge]

theorem State.ackGain_eq (s : State) (p : Port) (n : Half) : s.ackGain p n =
    (s.faults.filter fun f => decide (n = 0 ∨ f.number = n) && !portIn p f.acknowledged).length := by
  rw [State.ackGain, List.countP_eq_length_filter]
  simp only [ackNames_eq]

/-! ## The two requests -/

section
variable {s : State} {p : Port} {m : Membership} (serves : s.serves p m) (tag : Byte)
include serves

theorem exec_clearFault_refused {body : List Byte} {o : ReplyOutcome} {detail : Nat}
    (h : serveClearFault (m.on p) body (s.qualify p m.number) = (s.qualify p m.number, .refuse o detail)) :
    exec (.clearFault p tag m.number body) s = .next (s.refused p m tag .clearFault o detail) :=
  exec_of_refusal serves .clearFault tag body (serveClearFault · body) rfl o detail h

theorem exec_ackFault_refused {body : List Byte} {o : ReplyOutcome} {detail : Nat}
    (h : serveAckFault (m.on p) body (s.qualify p m.number) = (s.qualify p m.number, .refuse o detail)) :
    exec (.ackFault p tag m.number body) s = .next (s.refused p m tag .ackFault o detail) :=
  exec_of_refusal serves .ackFault tag body (serveAckFault · body) rfl o detail h

theorem exec_clearFault_of_listed {n : Half} (hlow : 1 ≤ n.toNat) (hhigh : n.toNat ≤ 4095) (hlisted : ∃ f ∈ s.faults, f.number = n)
    (hzone : (s.qualify p m.number).zoneCondition n.toNat = false)
    (hport : (s.qualify p m.number).portCondition n.toNat = false) :
    exec (.clearFault p tag m.number (halfBytes n)) s = .next (((s.qualify p m.number).removeFault n).replied p
      ((Answer.mk .done (natHalf ((s.qualify p m.number).removeFault n).faults.length) []).frame tag 0x51 1)) := by
  have hserve := serveClearFault_of_listed (m.on p) hlow hhigh (s.qualify p m.number) (by rwa [State.qualify_faults])
  rw [hzone, hport, ← State.removeFault_faults] at hserve
  exact exec_of_answer serves .clearFault tag _ (serveClearFault · (halfBytes n)) rfl _ _ hserve
    (congrArg (PerPort.get · p) (State.removeFault_ports _ n))

theorem exec_ackFault_of_listed {n : Half} (hhigh : n.toNat ≤ 4095) (hlisted : n = 0 ∨ ∃ f ∈ s.faults, f.number = n) :
    exec (.ackFault p tag m.number (halfBytes n)) s = .next (((s.qualify p m.number).acknowledgeFaults p n).replied p
      ((Answer.mk .done (natHalf ((s.qualify p m.number).ackGain p n)) []).frame tag 0x52 1)) := by
  have hserve := serveAckFault_of_listed (m.on p) hhigh (s.qualify p m.number) (by rwa [State.qualify_faults])
  exact exec_of_answer serves .ackFault tag _ (serveAckFault · (halfBytes n)) rfl _ _ hserve
    (congrArg (PerPort.get · p) (State.writeSystem_ports ..))

end

/-- Settles O51: the checks in their order, then the removal and the acknowledgement of the qualified state. -/
theorem faultsAreClearedAndAcknowledged : Obligations.FaultsAreClearedAndAcknowledged := by
  intro s p m tag serves
  have hfaults : (s.qualify p m.number).faults = s.faults := State.qualify_faults ..
  refine ⟨fun body hlength => ⟨exec_clearFault_refused serves tag (serveClearFault_of_length _ hlength _),
      exec_ackFault_refused serves tag (serveAckFault_of_length _ hlength _)⟩,
    fun n hrange => exec_clearFault_refused serves tag (serveClearFault_of_range _ hrange _),
    fun n hrange => exec_ackFault_refused serves tag (serveAckFault_of_range _ hrange _), fun n hhigh => ?_⟩
  refine ⟨fun hn habsent => ?absent, fun z r hlisted hz hlow hz31 hr hstatus => ?orphaned, fun q hlisted hq hlost => ?lost,
    fun hlisted hlow hzones hports => ?cleared, fun hlisted => ?acknowledged⟩
  case absent =>
    have hlow : 1 ≤ n.toNat := Nat.pos_of_ne_zero fun hzero => hn (BitVec.eq_of_toNat_eq hzero)
    exact ⟨exec_clearFault_refused serves tag (serveClearFault_of_absent _ hlow hhigh _ (hfaults ▸ habsent)),
      exec_ackFault_refused serves tag (serveAckFault_of_absent _ hhigh _ hn (hfaults ▸ habsent))⟩
  case orphaned =>
    have hcondition : (s.qualify p m.number).zoneCondition n.toNat = true :=
      (State.zoneCondition_iff _ _).2 ⟨z, r, hz, hlow, hz31, by rwa [State.qualify_zone], hstatus⟩
    refine exec_clearFault_refused serves tag ?_
    rw [serveClearFault_of_listed _ (by omega) hhigh _ (hfaults ▸ hlisted), if_pos hcondition]
  case lost =>
    have hzone : ¬ (s.qualify p m.number).zoneCondition n.toNat = true := by
      rw [State.zoneCondition_iff]
      rintro ⟨z, -, hz, -, hz31, -⟩
      omega
    have hport : (s.qualify p m.number).portCondition n.toNat = true :=
      (State.portCondition_iff _ _).2 ⟨q, hq, (State.lost_qualify serves q).2 hlost⟩
    refine exec_clearFault_refused serves tag ?_
    rw [serveClearFault_of_listed _ (by omega) hhigh _ (hfaults ▸ hlisted), if_neg hzone, if_pos hport]
  case cleared =>
    have hzone : (s.qualify p m.number).zoneCondition n.toNat = false := by
      rw [Bool.eq_false_iff, Ne, State.zoneCondition_iff]
      rintro ⟨z, r, hz, hlow', hz31, hr, hstatus⟩
      exact hzones z r hz hlow' hz31 (by rwa [State.qualify_zone] at hr) hstatus
    have hport : (s.qualify p m.number).portCondition n.toNat = false := by
      rw [Bool.eq_false_iff, Ne, State.portCondition_iff]
      rintro ⟨q, hq, hlost⟩
      exact hports q hq ((State.lost_qualify serves q).1 hlost)
    refine ⟨_, exec_clearFault_of_listed serves tag hlow hhigh hlisted hzone hport, ?_, ?_, fun hshows => ?_, fun q => ?_, ?_⟩
    · rw [State.replied_faults, State.removeFault_faults, hfaults]
    · rw [State.replied_overflow, State.removeFault_overflow, State.qualify_overflow]
    · exact State.removeFault_shows (State.showsFaults_qualify hshows p m.number) n
    · have hsessions := congrArg (Option.map fun _ : CauseSet => (32 : CauseSet)) (s.qualify_pendingFault p m.number q)
      rw [Option.map_map, Option.map_map] at hsessions
      exact (State.removeFault_pending _ n q).trans hsessions
    · rw [State.replied_link]
      rfl
  case acknowledged =>
    refine ⟨_, exec_ackFault_of_listed serves tag hhigh hlisted, ?_, ?_, fun hshows => ?_, ?_⟩
    · rw [State.replied_faults, State.acknowledgeFaults_faults, hfaults]
    · exact (State.writeSystem_overflow ..).trans (State.qualify_overflow ..)
    · exact State.showsFaults_writeFaults (State.showsFaults_qualify hshows p m.number) (fun _ _ _ => rfl) fun _ _ _ => rfl
    · rw [State.replied_link, State.ackGain_eq, hfaults]

end Sys2Proof.Machine
end

section
/-! The exchange's write of its words (R140), a reference released (R137, R139, R144), and RECEIVE (R145). -/

namespace Sys2Proof.Machine

/-! ## The exchange's words (R140) -/

/-- R140: the exchange writes words alone, so nothing follows from its write. -/
theorem State.writeExchange_eq (s t : State) : s.writeExchange t = t.store (exchangePoints s t) :=
  State.writeSystem_no_edges t (exchangePoints s t) fun _ => rfl

theorem State.writeExchange_exchange (s t : State) : (s.writeExchange t).exchange = t.exchange := by
  rw [State.writeExchange_eq]
  rfl

theorem State.writeExchange_attention (s t : State) : (s.writeExchange t).attention = t.attention := by
  rw [State.writeExchange_eq]
  rfl

theorem State.writeExchange_ports (s t : State) : (s.writeExchange t).ports = t.ports := by
  rw [State.writeExchange_eq]
  rfl

theorem State.writeExchange_buffer (s t : State) (b : Nat) : (s.writeExchange t).buffer b = t.buffer b := by
  rw [State.writeExchange_eq]
  rfl

/-- R25, R140: a request's change of the exchange keeps the words that show it. -/
theorem State.showsExchange_served {s : State} (h : s.showsExchange) (p : Port) (n : Half) {t : State}
    (hwords : t.words = (s.qualify p n).words) : ((s.qualify p n).writeExchange t).showsExchange := by
  have hport := Port.index_lt p
  have hqualified : (s.qualify p n).showsExchange :=
    State.showsExchange_congr h (fun i hlow hhigh => State.qualify_word s p n i (by omega) (by omega)) (State.qualify_exchange ..)
  exact State.showsExchange_writeExchange hqualified fun i _ _ => congrArg (Memory.read 0 · i) hwords

/-! ## A reference released (R137, R139, R144) -/

theorem State.isCurrent_iff (s : State) (r : SessionRef) : s.isCurrent r = true ↔ s.session r.port = some r := by
  simp [State.isCurrent]

/-- R139: the last release takes 1 off the quota of the sender, where its session is still current. -/
theorem State.releaseBuffer_sessions {s : State} {b : Nat} {k : Buffer} (hk : s.buffer b = some k) (q : Port) :
    (s.releaseBuffer b).exchange.sessions.get q = (s.exchange.sessions.get q).map fun x =>
      { x with quota := if k.references ≤ 1 ∧ s.session q = some k.sender then x.quota - 1 else x.quota } := by
  unfold State.releaseBuffer
  rw [hk]
  dsimp only
  split
  · rename_i hlast
    simp only [hlast, true_and]
    unfold State.freeBuffer
    dsimp only
    split
    · rename_i hcurrent
      rw [State.isCurrent_iff] at hcurrent
      by_cases hq : q = k.sender.port
      · subst hq
        simp [State.mapMessages, hcurrent, State.setBuffer]
      · have hother : s.session q ≠ some k.sender := fun h => hq (State.session_port h).symm
        simp [State.mapMessages, hq, hother, State.setBuffer]
    · rename_i hcurrent
      rw [State.isCurrent_iff] at hcurrent
      have hother : s.session q ≠ some k.sender := fun h => by
        obtain rfl := State.session_port h
        exact hcurrent h
      simp [hother, State.setBuffer]
  · rename_i hshared
    simp [hshared, State.setBuffer]

/-! ## RECEIVE (R145) -/

theorem messageFlags_eq : ∀ returned urgent returnFlag broadcast : Bool,
    natByte (flagNat returned + 2 * flagNat urgent + 4 * flagNat returnFlag + 8 * flagNat broadcast) =
      (if returned then 1 else 0) + (if urgent then 2 else 0) + (if returnFlag then 4 else 0) + (if broadcast then 8 else 0) := by
  decide

theorem Buffer.report_eq (k : Buffer) (delivery : Delivery) (clock : Clock) : k.report delivery clock =
    [k.sender.port.code] ++ halfBytes k.sender.number ++ halfBytes k.number ++
      [(if delivery = .returned then 1 else 0) + (if k.urgent then 2 else 0) + (if k.returnFlag then 4 else 0) +
        (if k.broadcast then 8 else 0)] ++ clockBytes (clock - k.sendTime) ++ [natByte k.payload.length] ++ k.payload := by
  rw [Buffer.report, messageFlags_eq]
  simp only [beq_iff_eq]

/-- R144, R145, R150: what a RECEIVE leaves of the exchange. -/
def State.taken (s : State) (p : Port) (e : Entry) (urgent normal : List Entry) : State :=
  let t := (s.setQueues p urgent normal).releaseBuffer e.buffer
  if normal.isEmpty then t.stopCoalesce p else t

section
variable (s : State) (p : Port) (e : Entry) (urgent normal : List Entry)

theorem State.taken_keeps : (s.taken p e urgent normal).ports = s.ports ∧ (s.taken p e urgent normal).words = s.words ∧
    (s.taken p e urgent normal).attention = s.attention := by
  unfold State.taken
  dsimp only
  split <;> simp [State.stopCoalesce, State.setQueues]

theorem State.taken_queues : (s.taken p e urgent normal).exchange.urgent = s.exchange.urgent.set p urgent ∧
    (s.taken p e urgent normal).exchange.normal = s.exchange.normal.set p normal ∧
      (s.taken p e urgent normal).exchange.discards = s.exchange.discards := by
  have hqueues := (s.setQueues p urgent normal).releaseBuffer_queues e.buffer
  unfold State.taken
  dsimp only
  split <;> exact hqueues

variable {k : Buffer} (hk : s.buffer e.buffer = some k)
include hk

theorem State.taken_sessions (q : Port) : (s.taken p e urgent normal).exchange.sessions.get q =
    (s.exchange.sessions.get q).map fun x => { x with
      quota := if k.references ≤ 1 ∧ s.session q = some k.sender then x.quota - 1 else x.quota
      deadline := if q = p ∧ normal = [] then none else x.deadline } := by
  have hreleased := State.releaseBuffer_sessions (s := s.setQueues p urgent normal) hk q
  have hreleased' : ((s.setQueues p urgent normal).releaseBuffer e.buffer).exchange.sessions.get q =
    (s.exchange.sessions.get q).map fun x =>
      { x with quota := if k.references ≤ 1 ∧ s.session q = some k.sender then x.quota - 1 else x.quota } := hreleased
  unfold State.taken
  cases normal with
  | cons e' rest => simpa using hreleased'
  | nil =>
    by_cases hq : q = p
    · subst hq
      simp [State.stopCoalesce, State.mapMessages, hreleased', Function.comp_def]
    · simpa [State.stopCoalesce, State.mapMessages, hq] using hreleased'

theorem State.taken_of_last (hlast : k.references ≤ 1) : (s.taken p e urgent normal).buffer e.buffer = none ∧
    (s.taken p e urgent normal).exchange.free = s.exchange.free ++ [e.buffer] := by
  obtain ⟨hbuffer, hfree⟩ := (s.setQueues p urgent normal).releaseBuffer_last e.buffer k hk hlast
  have hgone := (hbuffer e.buffer).trans (if_pos rfl)
  unfold State.taken
  dsimp only
  split <;> exact ⟨hgone, hfree⟩

theorem State.taken_of_shared (hshared : 2 ≤ k.references) :
    (s.taken p e urgent normal).buffer e.buffer = some { k with references := k.references - 1 } ∧
      (s.taken p e urgent normal).exchange.free = s.exchange.free := by
  unfold State.taken
  rw [State.releaseBuffer_shared (s.setQueues p urgent normal) _ k hk hshared]
  have hbuffer := (State.buffer_setBuffer (s.setQueues p urgent normal) e.buffer e.buffer
    (some { k with references := k.references - 1 })).trans (if_pos rfl)
  split <;> exact ⟨hbuffer, rfl⟩

theorem State.taken_buffer_other {b : Nat} (hb : b ≠ e.buffer) : (s.taken p e urgent normal).buffer b = s.buffer b := by
  have hother : ((s.setQueues p urgent normal).releaseBuffer e.buffer).buffer b = s.buffer b := by
    rcases Nat.lt_or_ge 1 k.references with hshared | hlast
    · rw [State.releaseBuffer_shared (s.setQueues p urgent normal) _ k hk hshared, State.buffer_setBuffer, if_neg hb]
      rfl
    · rw [((s.setQueues p urgent normal).releaseBuffer_last e.buffer k hk hlast).1, if_neg hb]
      rfl
  unfold State.taken
  dsimp only
  split <;> exact hother

end

/-- R145: the two queues from which the head is taken. -/
theorem serveReceive_of_head {who : SessionRef} {s : State} {e : Entry} {urgent normal : List Entry}
    (hqueues : (s.exchange.urgent.get who.port = e :: urgent ∧ s.exchange.normal.get who.port = normal) ∨
      (s.exchange.urgent.get who.port = [] ∧ urgent = [] ∧ s.exchange.normal.get who.port = e :: normal)) {k : Buffer}
    (hk : s.buffer e.buffer = some k) :
    serveReceive who [] s = (s.writeExchange (s.taken who.port e urgent normal),
      .done (urgent.length + normal.length) (k.report e.delivery s.clock)) := by
  have hentry : serveReceive who [] s = s.receiveEntry who.port e urgent normal := by
    unfold serveReceive
    rcases hqueues with ⟨hurgent, hnormal⟩ | ⟨hurgent, rfl, hnormal⟩ <;> rw [if_pos rfl, hurgent, hnormal]
  rw [hentry, State.receiveEntry, hk]
  rfl

/-- Settles O44: the head's entry is taken, and its reference released, in the qualified state. -/
theorem receiveTakesTheHead : Obligations.ReceiveTakesTheHead := by
  refine fun s p m tag serves => ⟨fun body hbody => ?_, fun hurgent hnormal => ?_, fun e k urgent normal hk hqueues => ?_⟩
  · exact exec_of_refusal serves .receive tag body (serveReceive · body) rfl .badRequest 0 (if_neg hbody)
  · refine exec_of_refusal serves .receive tag [] (serveReceive · []) rfl .queueEmpty 0 ?_
    rw [serveReceive, if_pos rfl, State.qualify_exchange, hurgent, hnormal]
  have hexchange : (s.qualify p m.number).exchange = s.exchange := State.qualify_exchange ..
  have hku : (s.qualify p m.number).buffer e.buffer = some k := (congrArg (fun x : Exchange => x.buffers.read none e.buffer) hexchange).trans hk
  have hserve := serveReceive_of_head (who := m.on p) (s := s.qualify p m.number) (hexchange ▸ hqueues) hku
  rw [State.qualify_clock, Buffer.report_eq] at hserve
  obtain ⟨hports, hwords, hattention⟩ := (s.qualify p m.number).taken_keeps p e urgent normal
  obtain ⟨hurgent, hnormal, hdiscards⟩ := (s.qualify p m.number).taken_queues p e urgent normal
  have hsessions := (s.qualify p m.number).taken_sessions p e urgent normal hku
  have hlast := (s.qualify p m.number).taken_of_last p e urgent normal hku
  have hshared := (s.qualify p m.number).taken_of_shared p e urgent normal hku
  have hothers := fun b => (s.qualify p m.number).taken_buffer_other p e urgent normal hku (b := b)
  rw [hexchange] at hurgent hnormal hdiscards hsessions
  refine ⟨_, exec_of_answer serves .receive tag [] (serveReceive · []) rfl _ _ hserve
    (congrArg (PerPort.get · p) ((State.writeExchange_ports ..).trans hports)), ?_⟩
  simp only [State.replied_exchange, State.writeExchange_exchange, State.replied_attention, State.writeExchange_attention]
  refine ⟨?_, ?_, fun q hq => ⟨?_, ?_⟩, fun h => ⟨?_, ?_⟩, fun h => ⟨?_, ?_⟩, fun b hb => ?_, fun q => ?_, hattention, hdiscards,
    fun hshows => ?_, ?_⟩
  · rw [hurgent, PerPort.get_set_same]
  · rw [hnormal, PerPort.get_set_same]
  · rw [hurgent, PerPort.get_set_ne _ _ _ _ hq]
  · rw [hnormal, PerPort.get_set_ne _ _ _ _ hq]
  · exact (State.writeExchange_buffer _ _ _).trans (hlast h).1
  · rw [(hlast h).2, hexchange]
  · exact (State.writeExchange_buffer _ _ _).trans (hshared h).1
  · rw [(hshared h).2, hexchange]
  · refine (State.writeExchange_buffer _ _ _).trans ((hothers b hb).trans ?_)
    exact congrArg (fun x : Exchange => x.buffers.read none b) hexchange
  · simpa only [State.qualify_session] using hsessions q
  · exact State.showsExchange_served hshows p m.number hwords
  · rw [State.replied_link]
    rfl

end Sys2Proof.Machine
end

section
/-! An append, seen from one port (R138, R150): its queues, its exchange state and its attention record. -/

namespace Sys2Proof.Machine

/-- R138, R139, R157: what the message exchange and the attention unit hold for a port. -/
structure Mailbox where
  urgent : List Entry
  normal : List Entry
  session : Option MessageSession
  record : Option AttentionRecord

def State.mailbox (s : State) (q : Port) : Mailbox :=
  ⟨s.exchange.urgent.get q, s.exchange.normal.get q, s.exchange.sessions.get q, s.attention.get q⟩

/-- R150: the NORMAL queue with one more entry stands at the threshold. -/
def Mailbox.fills (b : Mailbox) : Bool := b.session.any fun x => decide (x.threshold.toNat ≤ b.normal.length + 1)

/-- R150: the coalesce deadline after a NORMAL append. -/
def MessageSession.afterNormal (x : MessageSession) (depth : Nat) (clock : Clock) : Option Clock :=
  if x.threshold.toNat ≤ depth + 1 then none
  else if depth = 0 ∧ x.time ≠ 0 then some (clock + BitVec.ofNat 32 x.time.toNat)
  else x.deadline

/-- R138, R150: an URGENT entry appended. -/
def Mailbox.appendUrgent (b : Mailbox) (e : Entry) : Mailbox :=
  { b with urgent := b.urgent ++ [e], record := b.record.map (AttentionRecord.raise · .message .none) }

/-- R138, R150: a NORMAL entry appended at a clock value. -/
def Mailbox.appendNormal (b : Mailbox) (clock : Clock) (e : Entry) : Mailbox :=
  { b with
      normal := b.normal ++ [e]
      session := b.session.map fun x => { x with deadline := x.afterNormal b.normal.length clock }
      record := if b.fills then b.record.map (AttentionRecord.raise · .message .none) else b.record }

def Mailbox.append (b : Mailbox) (urgent : Bool) (clock : Clock) (e : Entry) : Mailbox :=
  if urgent then b.appendUrgent e else b.appendNormal clock e

section
variable (b : Mailbox) (urgent : Bool) (clock : Clock) (e : Entry)

theorem Mailbox.urgent_append : (b.append urgent clock e).urgent = b.urgent ++ if urgent then [e] else [] := by
  cases urgent <;> simp [Mailbox.append, Mailbox.appendUrgent, Mailbox.appendNormal]

theorem Mailbox.normal_append : (b.append urgent clock e).normal = b.normal ++ if urgent then [] else [e] := by
  cases urgent <;> simp [Mailbox.append, Mailbox.appendUrgent, Mailbox.appendNormal]

theorem Mailbox.session_append : (b.append urgent clock e).session =
    b.session.map fun x => { x with deadline := if urgent then x.deadline else x.afterNormal b.normal.length clock } := by
  cases urgent <;> simp [Mailbox.append, Mailbox.appendUrgent, Mailbox.appendNormal]

theorem Mailbox.record_append : (b.append urgent clock e).record =
    b.record.map fun a => if urgent = true ∨ b.fills = true then a.raise .message .none else a := by
  cases urgent <;> cases hfills : b.fills <;> simp [Mailbox.append, Mailbox.appendUrgent, Mailbox.appendNormal, hfills]

end

theorem State.mailbox_raise (s : State) (c : Cause) (d : Detail) (p q : Port) :
    (s.raise c d p).mailbox q =
      if q = p then { s.mailbox q with record := (s.attention.get q).map (AttentionRecord.raise · c d) } else s.mailbox q := by
  unfold State.mailbox
  rw [State.raise_exchange, State.attention_raise]
  by_cases hq : q = p <;> simp [hq]

theorem State.mailbox_pushEntry_urgent (s : State) (p : Port) (e : Entry) (q : Port) : (s.pushEntry p true e).mailbox q =
    if q = p then { s.mailbox q with urgent := s.exchange.urgent.get q ++ [e] } else s.mailbox q := by
  by_cases hq : q = p
  · subst hq
    simp [State.pushEntry, State.mailbox]
  · simp [State.pushEntry, State.mailbox, hq]

theorem State.mailbox_pushEntry_normal (s : State) (p : Port) (e : Entry) (q : Port) : (s.pushEntry p false e).mailbox q =
    if q = p then { s.mailbox q with normal := s.exchange.normal.get q ++ [e] } else s.mailbox q := by
  by_cases hq : q = p
  · subst hq
    simp [State.pushEntry, State.mailbox]
  · simp [State.pushEntry, State.mailbox, hq]

theorem State.mailbox_mapMessages (s : State) (p : Port) (f : MessageSession → MessageSession) (q : Port) :
    (s.mapMessages p f).mailbox q =
      if q = p then { s.mailbox q with session := (s.exchange.sessions.get q).map f } else s.mailbox q := by
  by_cases hq : q = p
  · subst hq
    simp [State.mapMessages, State.mailbox]
  · simp [State.mapMessages, State.mailbox, hq]

/-- R150: what a NORMAL append does beside its queue, by the threshold and the depth before it. -/
theorem State.appendEntry_normal_eq (s : State) (p : Port) (e : Entry) : s.appendEntry p false e =
    match s.exchange.sessions.get p with
    | none => s.pushEntry p false e
    | some x =>
      if x.threshold.toNat ≤ (s.exchange.normal.get p).length + 1 then
        ((s.pushEntry p false e).stopCoalesce p).raise .message .none p
      else if (s.exchange.normal.get p).length = 0 ∧ x.time ≠ 0 then (s.pushEntry p false e).startCoalesce p
      else s.pushEntry p false e := by
  have hdepth : ((s.pushEntry p false e).exchange.normal.get p).length = (s.exchange.normal.get p).length + 1 := by
    simp [State.pushEntry]
  unfold State.appendEntry
  simp only [Bool.false_eq_true, if_false, hdepth, Bool.and_eq_true, List.isEmpty_iff, bne_iff_ne, List.length_eq_zero_iff] <;> rfl

theorem State.mailbox_appendEntry (s : State) (p : Port) (urgent : Bool) (e : Entry) (q : Port) :
    (s.appendEntry p urgent e).mailbox q = if q = p then (s.mailbox q).append urgent s.clock e else s.mailbox q := by
  cases urgent with
  | true =>
    show ((s.pushEntry p true e).raise .message .none p).mailbox q = _
    rw [State.mailbox_raise, State.mailbox_pushEntry_urgent]
    split <;> rfl
  | false =>
    have hpush := s.mailbox_pushEntry_normal p e q
    have hsessions : (s.pushEntry p false e).exchange.sessions = s.exchange.sessions := rfl
    have hattention : (s.pushEntry p false e).attention = s.attention := rfl
    rw [State.appendEntry_normal_eq]
    cases hx : s.exchange.sessions.get p with
    | none =>
      dsimp only
      rw [hpush]
      by_cases hq : q = p
      · subst hq
        simp [Mailbox.append, Mailbox.appendNormal, Mailbox.fills, State.mailbox, hx]
      · simp [hq]
    | some x =>
      dsimp only
      by_cases hq : q = p
      · subst hq
        have happend : (s.mailbox q).append false s.clock e = ⟨s.exchange.urgent.get q, s.exchange.normal.get q ++ [e],
            some { x with deadline := x.afterNormal (s.exchange.normal.get q).length s.clock },
            if x.threshold.toNat ≤ (s.exchange.normal.get q).length + 1 then
              (s.attention.get q).map (AttentionRecord.raise · .message .none) else s.attention.get q⟩ := by
          simp [Mailbox.append, Mailbox.appendNormal, Mailbox.fills, State.mailbox, hx]
        rw [if_pos rfl] at hpush ⊢
        rw [happend, MessageSession.afterNormal]
        split
        case isTrue hfull =>
          rw [State.mailbox_raise, State.stopCoalesce, State.mailbox_mapMessages, hpush]
          simp [State.mailbox, hx, hsessions, State.mapMessages, hattention]
        case isFalse hroom =>
          split
          case isTrue hstarts =>
            rw [State.startCoalesce, State.mailbox_mapMessages, hpush]
            simp [State.mailbox, hx, hsessions, msAfter]
          case isFalse hwaits =>
            rw [hpush]
            simp [State.mailbox, hx]
      · rw [if_neg hq] at hpush ⊢
        split
        · rw [State.mailbox_raise, if_neg hq, State.stopCoalesce, State.mailbox_mapMessages, if_neg hq, hpush]
        · split
          · rw [State.startCoalesce, State.mailbox_mapMessages, if_neg hq, hpush]
          · exact hpush

/-- R143: a message's entries appended to the queues of several ports, each once. -/
theorem State.mailbox_appends (urgent : Bool) (e : Entry) (q : Port) {ps : List Port} (hps : ps.Nodup) (s : State) :
    (ps.foldl (fun s p => s.appendEntry p urgent e) s).mailbox q =
      if q ∈ ps then (s.mailbox q).append urgent s.clock e else s.mailbox q := by
  induction ps generalizing s with
  | nil => rfl
  | cons p rest ih =>
    obtain ⟨hp, hrest⟩ := List.nodup_cons.1 hps
    rw [List.foldl_cons, ih hrest, State.mailbox_appendEntry, State.appendEntry_clock]
    by_cases hq : q = p
    · subst hq
      simp [hp]
    · simp [hq]

end Sys2Proof.Machine
end

section
/-! SEND (R142, R143): the six checks in their order, and the message posted. -/

namespace Sys2Proof.Machine

/-! ## The codes of a SEND (R142, R184) -/

/-- R184: the byte of a destination. -/
def destinationByte (destination : Option Port) : Byte := match destination with | some q => q.code | none => 0xFF

/-- R184: the byte of the options. -/
def optionsByte (urgent returnFlag : Bool) : Byte := (if urgent then 1 else 0) + (if returnFlag then 2 else 0)

theorem destinationOf_byte (destination : Option Port) : destinationOf (destinationByte destination) = some destination := by
  cases destination with
  | none => rfl
  | some q => cases q <;> rfl

theorem sendOptions_byte : ∀ urgent returnFlag : Bool,
    sendOptions (optionsByte urgent returnFlag) = some (urgent, returnFlag) := by decide

theorem destinationOf_of_code {code : Byte} (h : code.toNat = 0 ∨ (4 < code.toNat ∧ code.toNat < 255)) :
    destinationOf code = none := by
  have hall : code ≠ 0xFF := by
    rintro rfl
    simp at h
  have hport : Port.ofCode code = none := by
    refine List.find?_eq_none.2 fun q _ hq => ?_
    obtain rfl := beq_iff_eq.1 hq
    revert h
    cases q <;> decide
  rw [destinationOf, if_neg hall, hport]
  rfl

theorem sendOptions_of_code {options : Byte} (h : 3 < options.toNat) : sendOptions options = none := by
  refine if_neg fun hbits => ?_
  have hlt := options.isLt
  have hnat := congrArg BitVec.toNat hbits
  rw [BitVec.extractLsb'_toNat, Nat.shiftRight_eq_div_pow] at hnat
  simp only [BitVec.toNat_ofNat] at hnat
  omega

/-! ## The destinations (R142 check 4) -/

theorem State.mem_destinations (s : State) (p : Port) (destination : Option Port) (q : Port) :
    q ∈ s.destinations p destination ↔ (s.session q).isSome ∧ (destination = some q ∨ (destination = none ∧ q ≠ p)) := by
  have hall : q ∈ Port.all := by cases q <;> decide
  cases destination with
  | none => simp [State.destinations, Port.others, hall, and_comm]
  | some r =>
    unfold State.destinations
    dsimp only
    split
    · rename_i hsome
      simp only [List.mem_singleton, Option.some.injEq, reduceCtorEq, false_and, or_false]
      exact ⟨fun hq => ⟨hq ▸ hsome, hq.symm⟩, fun hq => hq.2.symm⟩
    · rename_i hnone
      simp only [List.not_mem_nil, Option.some.injEq, reduceCtorEq, false_and, or_false, false_iff, not_and]
      exact fun hsome hq => hnone (hq ▸ hsome)

/-- R143, R184: the destinations stand in the order of the ports. -/
theorem State.destinations_ordered (s : State) (p : Port) (destination : Option Port) :
    ∃ f, s.destinations p destination = Port.all.filter f := by
  cases destination with
  | none => exact ⟨_, List.filter_filter⟩
  | some r =>
    unfold State.destinations
    dsimp only
    split
    · exact ⟨(· == r), by cases r <;> rfl⟩
    · exact ⟨fun _ => false, rfl⟩

theorem State.destinations_nodup (s : State) (p : Port) (destination : Option Port) : (s.destinations p destination).Nodup := by
  obtain ⟨f, hf⟩ := s.destinations_ordered p destination
  rw [hf]
  exact nodup_ports f

/-- R184: the ports of an ordered list as a byte. -/
theorem portSet_byte (f : Port → Bool) : (portSet (Port.all.filter f)).setWidth 8 =
    natByte ((if f .A then 1 else 0) + (if f .B then 2 else 0) + (if f .C then 4 else 0) + (if f .D then 8 else 0)) := by
  have hports : Port.all.filter f = (if f .A then [.A] else []) ++ (if f .B then [.B] else []) ++ (if f .C then [.C] else []) ++
      (if f .D then [.D] else []) := by
    cases hA : f .A <;> cases hB : f .B <;> cases hC : f .C <;> cases hD : f .D <;> simp [Port.all, hA, hB, hC, hD]
  rw [hports]
  generalize f .A = a, f .B = b, f .C = c, f .D = d
  revert a b c d
  decide

theorem State.destinations_byte (s : State) (p : Port) (destination : Option Port) :
    (portSet (s.destinations p destination)).setWidth 8 =
      natByte ((if .A ∈ s.destinations p destination then 1 else 0) + (if .B ∈ s.destinations p destination then 2 else 0) +
        (if .C ∈ s.destinations p destination then 4 else 0) + (if .D ∈ s.destinations p destination then 8 else 0)) := by
  obtain ⟨f, hf⟩ := s.destinations_ordered p destination
  have hmem : ∀ q, (q ∈ Port.all.filter f) = (f q = true) := fun q => by
    rw [List.mem_filter, eq_true (by cases q <;> decide : q ∈ Port.all), true_and]
  rw [hf, portSet_byte]
  simp only [hmem]

theorem State.destinations_qualify (s : State) (p : Port) (n : Half) (requester : Port) (destination : Option Port) :
    (s.qualify p n).destinations requester destination = s.destinations requester destination := by
  simp only [State.destinations, State.qualify_session]

/-! ## A message posted (R143) -/

section
variable (s : State) (who : SessionRef) (b : Nat) (rest : List Nat) (urgent returnFlag : Bool) (destination : Option Port)
  (payload : List Byte)

/-- R143: the buffer of a message. -/
def State.message : Buffer :=
  { sender := who, number := seqNext s.exchange.counter, urgent := urgent, returnFlag := returnFlag,
    broadcast := destination.isNone, payload := payload, references := (s.destinations who.port destination).length,
    sendTime := s.clock }

/-- R143: the free list's head filled with the message. -/
def State.filled : State :=
  { s with exchange := { s.exchange with counter := seqNext s.exchange.counter, free := rest } }.setBuffer b
    (some (s.message who urgent returnFlag destination payload))

/-- R143: the message in the queues of its destinations. -/
def State.queuedFor : State :=
  (s.destinations who.port destination).foldl (fun s q => s.appendEntry q urgent ⟨b, .direct⟩)
    (s.filled who b rest urgent returnFlag destination payload)

/-- R139, R143: the message on its sender's quota. -/
def State.posted : State :=
  (s.queuedFor who b rest urgent returnFlag destination payload).mapMessages who.port fun m => { m with quota := m.quota + 1 }

theorem State.post_eq : s.post who b rest urgent returnFlag destination payload =
    (s.writeExchange (s.posted who b rest urgent returnFlag destination payload),
      ⟨.done, seqNext s.exchange.counter, [(portSet (s.destinations who.port destination)).setWidth 8]⟩) := rfl

/-- R138: what appends leave of a state. -/
structure AppendsKeep (s t : State) : Prop where
  words : t.words = s.words
  ports : t.ports = s.ports
  counter : t.exchange.counter = s.exchange.counter
  free : t.exchange.free = s.exchange.free
  buffers : t.exchange.buffers = s.exchange.buffers

theorem appendsKeep (e : Entry) (ps : List Port) (s : State) :
    AppendsKeep s (ps.foldl (fun s q => s.appendEntry q urgent e) s) := by
  refine List.foldlRecOn (motive := AppendsKeep s) ps _ ⟨rfl, rfl, rfl, rfl, rfl⟩ fun t ht q _ => ?_
  refine ⟨?_, ?_, ?_, ?_, ?_⟩
  · rw [State.appendEntry_words, ht.words]
  · rw [State.appendEntry_ports, ht.ports]
  all_goals rw [State.appendEntry_exchange]
  · exact ht.counter
  · exact ht.free
  · exact ht.buffers

theorem State.posted_keeps :
    AppendsKeep (s.filled who b rest urgent returnFlag destination payload)
      (s.posted who b rest urgent returnFlag destination payload) :=
  have h := appendsKeep urgent ⟨b, .direct⟩ (s.destinations who.port destination)
    (s.filled who b rest urgent returnFlag destination payload)
  ⟨h.words, h.ports, h.counter, h.free, h.buffers⟩

theorem State.posted_buffer (c : Nat) : (s.posted who b rest urgent returnFlag destination payload).buffer c =
    if c = b then some (s.message who urgent returnFlag destination payload) else s.buffer c :=
  (congrArg (Memory.read none · c) (s.posted_keeps who b rest urgent returnFlag destination payload).buffers).trans
    (State.buffer_setBuffer ..)

theorem State.posted_mailbox (q : Port) :
    let box := if q ∈ s.destinations who.port destination then (s.mailbox q).append urgent s.clock ⟨b, .direct⟩ else s.mailbox q
    (s.posted who b rest urgent returnFlag destination payload).mailbox q =
      if q = who.port then { box with session := box.session.map fun m => { m with quota := m.quota + 1 } } else box := by
  intro box
  have hqueued : (s.queuedFor who b rest urgent returnFlag destination payload).mailbox q = box :=
    State.mailbox_appends urgent ⟨b, .direct⟩ q (s.destinations_nodup who.port destination)
      (s.filled who b rest urgent returnFlag destination payload)
  rw [State.posted, State.mailbox_mapMessages, hqueued]
  have hsession := congrArg Mailbox.session hqueued
  split
  · exact congrArg (fun x : Option MessageSession =>
      ({ box with session := x.map fun m => { m with quota := m.quota + 1 } } : Mailbox)) hsession
  · rfl

theorem State.posted_urgent (q : Port) : (s.posted who b rest urgent returnFlag destination payload).exchange.urgent.get q =
    s.exchange.urgent.get q ++ (if urgent && q ∈ s.destinations who.port destination then [⟨b, .direct⟩] else []) := by
  refine (congrArg Mailbox.urgent (s.posted_mailbox who b rest urgent returnFlag destination payload q)).trans ?_
  rw [apply_ite Mailbox.urgent, ite_self]
  by_cases hq : q ∈ s.destinations who.port destination <;> simp [hq, Mailbox.urgent_append, State.mailbox]

theorem State.posted_normal (q : Port) : (s.posted who b rest urgent returnFlag destination payload).exchange.normal.get q =
    s.exchange.normal.get q ++ (if !urgent && q ∈ s.destinations who.port destination then [⟨b, .direct⟩] else []) := by
  refine (congrArg Mailbox.normal (s.posted_mailbox who b rest urgent returnFlag destination payload q)).trans ?_
  rw [apply_ite Mailbox.normal, ite_self]
  by_cases hq : q ∈ s.destinations who.port destination <;> cases urgent <;> simp [hq, Mailbox.normal_append, State.mailbox]

theorem State.posted_sessions (q : Port) : (s.posted who b rest urgent returnFlag destination payload).exchange.sessions.get q =
    (s.exchange.sessions.get q).map fun e => { e with
      quota := if q = who.port then e.quota + 1 else e.quota
      deadline :=
        if urgent = true ∨ q ∉ s.destinations who.port destination then e.deadline
        else e.afterNormal (s.exchange.normal.get q).length s.clock } := by
  refine (congrArg Mailbox.session (s.posted_mailbox who b rest urgent returnFlag destination payload q)).trans ?_
  rw [apply_ite Mailbox.session]
  rcases eq_or_ne q who.port with rfl | hown
  · by_cases hq : who.port ∈ s.destinations who.port destination <;>
      simp [hq, Mailbox.session_append, State.mailbox, Function.comp_def]
  · by_cases hq : q ∈ s.destinations who.port destination <;> simp [hq, hown, Mailbox.session_append, State.mailbox]

theorem State.posted_attention (q : Port) : (s.posted who b rest urgent returnFlag destination payload).attention.get q =
    (s.attention.get q).map fun a =>
      if q ∈ s.destinations who.port destination ∧ (urgent = true ∨ (s.mailbox q).fills = true) then a.raise .message .none
      else a := by
  refine (congrArg Mailbox.record (s.posted_mailbox who b rest urgent returnFlag destination payload q)).trans ?_
  rw [apply_ite Mailbox.record, ite_self]
  by_cases hq : q ∈ s.destinations who.port destination <;> simp [hq, Mailbox.record_append, State.mailbox]

end

/-! ## The checks (R142) -/

theorem serveSend_of_length (who : SessionRef) {body : List Byte} (h : body.length < 2) (s : State) :
    serveSend who body s = (s, .refuse .badRequest 0) := by
  unfold serveSend
  split
  · simp at h
  · rfl

theorem serveSend_of_codes (who : SessionRef) {code options : Byte} (payload : List Byte)
    (h : (code.toNat = 0 ∨ (4 < code.toNat ∧ code.toNat < 255)) ∨ 3 < options.toNat) (s : State) :
    serveSend who (code :: options :: payload) s = (s, .refuse .badRequest 1) := by
  unfold serveSend
  dsimp only
  rcases h with h | h
  · rw [destinationOf_of_code h]
  · rw [sendOptions_of_code h]
    cases destinationOf code <;> rfl

/-- R142: the codes read, the other checks decide. -/
theorem serveSend_of_decide (who : SessionRef) (destination : Option Port) (urgent returnFlag : Bool) (payload : List Byte)
    (s : State) : serveSend who (destinationByte destination :: optionsByte urgent returnFlag :: payload) s =
      s.decideSend who urgent returnFlag destination payload := by
  unfold serveSend
  dsimp only
  rw [destinationOf_byte, sendOptions_byte]

section
variable {s : State} {who : SessionRef} {urgent returnFlag : Bool} {destination : Option Port} {payload : List Byte}

theorem State.decideSend_of_long (h : 60 < payload.length) :
    s.decideSend who urgent returnFlag destination payload = (s, .refuse .badRequest 2) := if_pos h

variable (hlength : payload.length ≤ 60)
include hlength

theorem State.decideSend_of_no_route (h : ∀ q, q ∉ s.destinations who.port destination) :
    s.decideSend who urgent returnFlag destination payload = (s, .refuse .noRoute (routeDetail destination)) := by
  have hfits : ¬ Config.payloadBytes < payload.length := Nat.not_lt.2 hlength
  rw [State.decideSend, if_neg hfits, if_pos (List.eq_nil_iff_forall_not_mem.2 h)]

theorem State.decideSend_of_route {q : Port} (h : q ∈ s.destinations who.port destination) :
    s.decideSend who urgent returnFlag destination payload =
      if 24 ≤ s.quota who.port then (s, .refuse .quota 24)
      else match s.exchange.free with
        | [] => (s, .refuse .poolEmpty 0)
        | b :: rest => s.post who b rest urgent returnFlag destination payload := by
  have hfits : ¬ Config.payloadBytes < payload.length := Nat.not_lt.2 hlength
  rw [State.decideSend, if_neg hfits, if_neg (List.ne_nil_of_mem h)]
  rfl

end

theorem State.quota_qualify (s : State) (p : Port) (n : Half) (q : Port) : (s.qualify p n).quota q = s.quota q := by
  rw [State.quota, State.qualify_exchange, State.quota]

/-- Settles O43: the checks in their order, and the message posted in the qualified state, port by port. -/
theorem sendPostsTheMessage : Obligations.SendPostsTheMessage := by
  intro s p m tag serves refusedWith
  have refused : ∀ {body : List Byte} {o : ReplyOutcome} {detail : Nat},
      serveSend (m.on p) body (s.qualify p m.number) = (s.qualify p m.number, .refuse o detail) → refusedWith body o detail :=
    fun h => exec_of_refusal serves .send tag _ (serveSend · _) rfl _ _ h
  refine ⟨fun body hbody => refused (serveSend_of_length _ hbody _),
    fun code options payload hcodes => refused (serveSend_of_codes _ payload hcodes _),
    fun destination urgent returnFlag payload => ?_⟩
  intro body reachedPorts
  have hbody : body = destinationByte destination :: optionsByte urgent returnFlag :: payload := rfl
  have hserve := serveSend_of_decide (m.on p) destination urgent returnFlag payload (s.qualify p m.number)
  rw [← hbody] at hserve
  have hreached : (s.qualify p m.number).destinations p destination = reachedPorts := State.destinations_qualify ..
  have hmem : ∀ q, q ∈ reachedPorts ↔ (s.session q).isSome ∧ (destination = some q ∨ (destination = none ∧ q ≠ p)) :=
    s.mem_destinations p destination
  refine ⟨fun hlong => refused (hserve.trans (State.decideSend_of_long hlong)), fun hlength => ⟨fun q hq hnone => ?single,
    fun hall hnone => ?all, fun ⟨q, hq⟩ => ⟨hmem, fun hquota => ?quota, fun hquota => ⟨fun hfree => ?pool, fun b rest hfree => ?posted⟩⟩⟩⟩
  case single =>
    subst hq
    refine refused (hserve.trans (State.decideSend_of_no_route hlength fun r hr => ?_))
    rw [hreached, hmem] at hr
    obtain ⟨hsome, hr | ⟨hr, -⟩⟩ := hr
    · obtain rfl := Option.some.inj hr
      rw [hnone] at hsome
      nomatch hsome
    · nomatch hr
  case all =>
    subst hall
    refine refused (hserve.trans (State.decideSend_of_no_route hlength fun r hr => ?_))
    rw [hreached, hmem] at hr
    obtain ⟨hsome, hr | ⟨-, hr⟩⟩ := hr
    · nomatch hr
    · rw [hnone r hr] at hsome
      nomatch hsome
  all_goals
    have hroute : q ∈ (s.qualify p m.number).destinations (m.on p).port destination :=
      (hreached ▸ (hmem q).2 hq : q ∈ (s.qualify p m.number).destinations p destination)
    rw [State.decideSend_of_route hlength hroute, State.quota_qualify] at hserve
  case quota => exact refused (hserve.trans (if_pos hquota))
  case pool =>
    rw [if_neg (Nat.not_le.2 hquota), State.qualify_exchange, hfree] at hserve
    exact refused hserve
  case posted =>
    rw [if_neg (Nat.not_le.2 hquota), State.qualify_exchange, hfree] at hserve
    have hanswer := hserve.trans (State.post_eq ..)
    rw [State.qualify_exchange, show (s.qualify p m.number).destinations (m.on p).port destination = reachedPorts from hreached,
      State.destinations_byte] at hanswer
    have hexchange : (s.qualify p m.number).exchange = s.exchange := State.qualify_exchange ..
    have hkeeps := (s.qualify p m.number).posted_keeps (m.on p) b rest urgent returnFlag destination payload
    have hbuffer := (s.qualify p m.number).posted_buffer (m.on p) b rest urgent returnFlag destination payload
    have hurgent := (s.qualify p m.number).posted_urgent (m.on p) b rest urgent returnFlag destination payload
    have hnormal := (s.qualify p m.number).posted_normal (m.on p) b rest urgent returnFlag destination payload
    have hsessions := (s.qualify p m.number).posted_sessions (m.on p) b rest urgent returnFlag destination payload
    have hattention := (s.qualify p m.number).posted_attention (m.on p) b rest urgent returnFlag destination payload
    have hfills : ∀ q, ((s.qualify p m.number).mailbox q).fills = (s.mailbox q).fills := fun q => by
      unfold Mailbox.fills State.mailbox
      rw [hexchange]
    have hmessage : (s.qualify p m.number).message (m.on p) urgent returnFlag destination payload =
        s.message (m.on p) urgent returnFlag destination payload := by
      simp only [State.message, hexchange, State.destinations_qualify, State.qualify_clock]
    simp only [show (s.qualify p m.number).destinations (m.on p).port destination = reachedPorts from hreached, hexchange,
      State.qualify_clock, hfills] at hurgent hnormal hsessions hattention
    refine ⟨_, exec_of_answer serves .send tag body (serveSend · body) rfl _ _ hanswer
      (congrArg (PerPort.get · p) ((State.writeExchange_ports ..).trans hkeeps.ports)), ?_⟩
    simp only [State.replied_exchange, State.writeExchange_exchange, State.replied_attention, State.writeExchange_attention]
    refine ⟨?_, hkeeps.free, ?_, fun c hc => ?_, hurgent, hnormal, hsessions, hattention, fun hshows => ?_, ?_⟩
    · exact hkeeps.counter.trans (congrArg (fun x : Exchange => seqNext x.counter) hexchange)
    · exact (State.writeExchange_buffer ..).trans ((hbuffer b).trans (by rw [if_pos rfl, hmessage]; rfl))
    · refine (State.writeExchange_buffer ..).trans ((hbuffer c).trans ((if_neg hc).trans ?_))
      exact congrArg (fun x : Exchange => x.buffers.read none c) hexchange
    · exact State.showsExchange_served hshows p m.number hkeeps.words
    · rw [State.replied_link]
      rfl

end Sys2Proof.Machine
end

section
/-! The undelivered handling of a list of entries, seen from one port (R137, R139, R146, R150). -/

namespace Sys2Proof.Machine

/-! ## Returned entries and freed buffers in a mailbox -/

/-- R150: the coalesce deadline after NORMAL entries `ns` have joined a queue of `depth`. -/
def MessageSession.afterReturns (x : MessageSession) (depth : Nat) (ns : List Entry) (clock : Clock) : Option Clock :=
  if ns = [] then x.deadline
  else if x.threshold.toNat ≤ depth + ns.length then none
  else if depth = 0 ∧ x.time ≠ 0 then some (clock + BitVec.ofNat 32 x.time.toNat)
  else x.deadline

/-- R150: a session whose NORMAL queue has come to the depth. -/
def Mailbox.standsAt (b : Mailbox) (depth : Nat) : Bool := b.session.any fun x => decide (x.threshold.toNat ≤ depth)

/-- R139, R146, R150: a mailbox that entries were returned to, and whose session had buffers freed. -/
def Mailbox.after (b : Mailbox) (us ns : List Entry) (freed : Nat) (clock : Clock) : Mailbox where
  urgent := b.urgent ++ us
  normal := b.normal ++ ns
  session := b.session.map fun x =>
    { x with quota := x.quota - freed, deadline := x.afterReturns b.normal.length ns clock }
  record := b.record.map fun a =>
    if us ≠ [] ∨ (ns ≠ [] ∧ b.standsAt (b.normal.length + ns.length) = true) then a.raise .message .none else a

theorem AttentionRecord.raise_message_twice (a : AttentionRecord) :
    (a.raise .message .none).raise .message .none = a.raise .message .none := by
  simp [AttentionRecord.raise, AttentionRecord.add, AttentionRecord.relevel, BitVec.or_assoc]

theorem Mailbox.after_nothing (b : Mailbox) (clock : Clock) : b.after [] [] 0 clock = b := by
  simp [Mailbox.after, MessageSession.afterReturns]

theorem Mailbox.after_urgent (b : Mailbox) (e : Entry) (us ns : List Entry) (freed : Nat) (clock : Clock) :
    (b.append true clock e).after us ns freed clock = b.after (e :: us) ns freed clock := by
  have hrecord : ∀ a : AttentionRecord, (if us ≠ [] ∨ (ns ≠ [] ∧ b.standsAt (b.normal.length + ns.length) = true) then
      (a.raise .message .none).raise .message .none else a.raise .message .none) = a.raise .message .none := fun a => by
    rw [AttentionRecord.raise_message_twice, ite_self]
  have hafter : (b.append true clock e).after us ns freed clock =
      ⟨(b.urgent ++ [e]) ++ us, b.normal ++ ns, (b.after us ns freed clock).session,
        (b.record.map (AttentionRecord.raise · .message .none)).map fun a =>
          if us ≠ [] ∨ (ns ≠ [] ∧ b.standsAt (b.normal.length + ns.length) = true) then a.raise .message .none else a⟩ := rfl
  rw [hafter, Option.map_map, List.append_assoc]
  simp only [Function.comp_def, hrecord]
  simp [Mailbox.after]

/-- R150: one NORMAL entry more, then the others. -/
theorem MessageSession.afterReturns_cons (x : MessageSession) (depth : Nat) (e : Entry) (ns : List Entry) (clock : Clock) :
    ({ x with deadline := x.afterNormal depth clock } : MessageSession).afterReturns (depth + 1) ns clock =
      x.afterReturns depth (e :: ns) clock := by
  unfold MessageSession.afterReturns MessageSession.afterNormal
  rw [if_neg (List.cons_ne_nil e ns), List.length_cons]
  dsimp only
  by_cases hns : ns = []
  · subst hns
    simp
  · rw [if_neg hns, if_neg (by omega : ¬ (depth + 1 = 0 ∧ x.time ≠ 0)), (by omega : depth + 1 + ns.length = depth + (ns.length + 1))]
    split
    · rfl
    · rw [if_neg (by omega)]

theorem Mailbox.standsAt_mono (b : Mailbox) {m n : Nat} (hmn : m ≤ n) (h : b.standsAt m = true) : b.standsAt n = true := by
  obtain ⟨x, hx, hdepth⟩ := (Option.any_eq_true _ _).1 h
  exact (Option.any_eq_true _ _).2 ⟨x, hx, decide_eq_true ((of_decide_eq_true hdepth).trans hmn)⟩

/-- R150: MESSAGE raised by the first of several NORMAL entries, or by the others. -/
theorem Mailbox.raised_twice (b : Mailbox) (us ns : List Entry) (e : Entry) (a : AttentionRecord) :
    (if us ≠ [] ∨ (ns ≠ [] ∧ b.standsAt (b.normal.length + (ns.length + 1)) = true) then
        (if b.fills = true then a.raise .message .none else a).raise .message .none
      else if b.fills = true then a.raise .message .none else a) =
      if us ≠ [] ∨ (e :: ns ≠ [] ∧ b.standsAt (b.normal.length + (ns.length + 1)) = true) then a.raise .message .none else a := by
  have hfills : b.fills = b.standsAt (b.normal.length + 1) := rfl
  by_cases hus : us = []
  · by_cases hfull : b.standsAt (b.normal.length + (ns.length + 1)) = true
    · by_cases hns : ns = []
      · subst hns hus
        simp_all
      · by_cases hfirst : b.fills = true <;> simp [hus, hns, hfull, hfirst, AttentionRecord.raise_message_twice]
    · have hfirst : ¬ b.fills = true := fun h => hfull (b.standsAt_mono (by omega) (hfills ▸ h))
      simp [hfull, hfirst]
  · by_cases hfirst : b.fills = true <;> simp [hus, hfirst, AttentionRecord.raise_message_twice]

theorem Mailbox.after_normal (b : Mailbox) (e : Entry) (us ns : List Entry) (freed : Nat) (clock : Clock) :
    (b.append false clock e).after us ns freed clock = b.after us (e :: ns) freed clock := by
  have hdepth : (b.normal ++ [e]).length + ns.length = b.normal.length + (ns.length + 1) := by
    rw [List.length_append, List.length_singleton]
    omega
  have hstands : (b.append false clock e).standsAt = b.standsAt := by
    funext n
    rw [Mailbox.standsAt, Mailbox.session_append, Option.any_map]
    rfl
  have hsession : (b.append false clock e).session =
      b.session.map fun x => { x with deadline := x.afterNormal b.normal.length clock } := by
    simpa using b.session_append false clock e
  have hrecord : (b.append false clock e).record = b.record.map fun a => if b.fills = true then a.raise .message .none else a := by
    simpa using b.record_append false clock e
  have hnormal : (b.append false clock e).normal = b.normal ++ [e] := by simpa using b.normal_append false clock e
  have hurgent : (b.append false clock e).urgent = b.urgent := by simpa using b.urgent_append false clock e
  unfold Mailbox.after
  rw [hstands, hsession, hrecord, hnormal, hurgent, hdepth, Option.map_map, Option.map_map, List.append_assoc,
    List.length_append, List.length_singleton]
  simp only [Function.comp_def, Mailbox.raised_twice b us ns e]
  refine congrArg₂ (Mailbox.mk (b.urgent ++ us) (b.normal ++ e :: ns)) (congrArg (Option.map · b.session) (funext fun x => ?_)) rfl
  exact congrArg (MessageSession.mk (x.quota - freed) x.threshold x.time) (x.afterReturns_cons ..)

theorem Mailbox.after_freed (b : Mailbox) (us ns : List Entry) (freed : Nat) (clock : Clock) (c : Bool) :
    ({ b with session := b.session.map fun x => { x with quota := if c then x.quota - 1 else x.quota } } : Mailbox).after us ns
      freed clock = b.after us ns (freed + flagNat c) clock := by
  have hquota : ∀ quota : Nat, (if c then quota - 1 else quota) - freed = quota - (freed + flagNat c) := by
    intro quota
    cases c with
    | false => rfl
    | true => exact (Nat.sub_sub quota 1 freed).trans (by rw [Nat.add_comm]; rfl)
  unfold Mailbox.after Mailbox.standsAt
  simp only [Option.map_map, Option.any_map, Function.comp_def, hquota]
  rfl

/-! ## The entries that leave, one by one -/

/-- R146: what is returned to port `q`'s queue of a priority, of entries that leave port `p`'s. -/
def State.backTo (s : State) (p : Port) (es : List Entry) (q : Port) (urgent : Bool) : List Entry :=
  ((es.filter (s.comesBack p)).filter (s.goesTo q urgent)).map fun e => ⟨e.buffer, .returned⟩

/-- R137, R139: the buffer's sender is port `q`'s current session. -/
def State.sentFrom (s : State) (q : Port) (b : Nat) : Bool :=
  (s.buffer b).any fun k => decide (s.session q = some k.sender)

section
variable {s : State} {p : Port} {e : Entry} {rest : List Entry} {k : Buffer} (h : s.referenced (e :: rest))
  (hk : s.buffer e.buffer = some k)
include h

/-- R136: an append leaves the buffers that the other entries name. -/
theorem State.referenced_appendEntry (q : Port) (urgent : Bool) (e' : Entry) : (s.appendEntry q urgent e').referenced rest := by
  intro f hf
  obtain ⟨j, hj, hreferences⟩ := h f (List.mem_cons_of_mem _ hf)
  refine ⟨j, (State.appendEntry_buffer ..).trans hj, le_trans (List.Sublist.length_le ?_) hreferences⟩
  exact (List.sublist_cons_self _ _).filter _

include hk

theorem State.referenced_head : (rest.filter fun f => f.buffer == e.buffer).length + 1 ≤ k.references := by
  obtain ⟨j, hj, hreferences⟩ := h e List.mem_cons_self
  obtain rfl := Option.some.inj (hk.symm.trans hj)
  rwa [List.filter_cons_of_pos (by simp), List.length_cons] at hreferences

/-- R136, R144: a discard leaves a buffer of another entry in use, with what is told of it. -/
theorem State.discardEntry_buffer_of_rest {f : Entry} (hf : f ∈ rest) {j : Buffer} (hj : s.buffer f.buffer = some j) :
    ∃ j', (s.discardEntry e).buffer f.buffer = some j' ∧ (j'.sender, j'.urgent, j'.returnFlag) = (j.sender, j.urgent, j.returnFlag) ∧
      (rest.filter fun g => g.buffer == f.buffer).length ≤ j'.references := by
  rw [State.discardEntry_buffer s e k hk]
  by_cases hsame : f.buffer = e.buffer
  · obtain rfl := Option.some.inj (hk.symm.trans (hsame ▸ hj))
    have hreferences := State.referenced_head h hk
    have hnamed : 0 < (rest.filter fun g => g.buffer == e.buffer).length :=
      List.length_pos_of_mem (List.mem_filter.2 ⟨hf, by simpa using hsame⟩)
    rw [if_pos hsame, if_neg (by omega), hsame]
    exact ⟨_, rfl, rfl, Nat.le_sub_one_of_lt hreferences⟩
  · obtain ⟨j', hj', hreferences⟩ := h f (List.mem_cons_of_mem _ hf)
    obtain rfl := Option.some.inj (hj.symm.trans hj')
    rw [if_neg hsame]
    exact ⟨j, hj, rfl, le_trans (List.Sublist.length_le ((List.sublist_cons_self _ _).filter _)) hreferences⟩

theorem State.referenced_discardEntry : (s.discardEntry e).referenced rest := by
  intro f hf
  obtain ⟨j, hj, -⟩ := h f (List.mem_cons_of_mem _ hf)
  obtain ⟨j', hj', -, hreferences⟩ := State.discardEntry_buffer_of_rest h hk hf hj
  exact ⟨j', hj', hreferences⟩

theorem State.judged_discardEntry {f : Entry} (hf : f ∈ rest) :
    (∀ p, (s.discardEntry e).comesBack p f = s.comesBack p f) ∧ ∀ q u, (s.discardEntry e).goesTo q u f = s.goesTo q u f := by
  obtain ⟨j, hj, -⟩ := h f (List.mem_cons_of_mem _ hf)
  obtain ⟨j', hj', htold, -⟩ := State.discardEntry_buffer_of_rest h hk hf hj
  refine State.judged_congr f (fun r => State.discardEntry_session ..) ?_
  rw [hj, hj']
  exact congrArg some htold

end

/-- R137, R139: a discard takes 1 off the quota of the sender of a buffer that it frees. -/
theorem State.mailbox_discardEntry {s : State} {e : Entry} {k : Buffer} (hk : s.buffer e.buffer = some k) (q : Port) :
    (s.discardEntry e).mailbox q = { s.mailbox q with session := (s.mailbox q).session.map fun x =>
      { x with quota := if decide (k.references ≤ 1) && s.sentFrom q e.buffer then x.quota - 1 else x.quota } } := by
  obtain ⟨hurgent, hnormal, -⟩ := s.releaseBuffer_queues e.buffer
  have hsessions := State.releaseBuffer_sessions hk q
  have hattention := s.releaseBuffer_attention e.buffer
  have hmailbox : (s.discardEntry e).mailbox q = (s.releaseBuffer e.buffer).mailbox q := rfl
  have hsent : s.sentFrom q e.buffer = decide (s.session q = some k.sender) := by rw [State.sentFrom, hk, Option.any_some]
  rw [hmailbox, State.mailbox, hurgent, hnormal, hsessions, hattention, hsent]
  simp only [Bool.and_eq_true, decide_eq_true_eq]
  rfl

theorem State.backTo_cons_of_back {s : State} {p : Port} {e : Entry} (hback : s.comesBack p e = true) (rest : List Entry)
    (q : Port) (urgent : Bool) : s.backTo p (e :: rest) q urgent =
      if s.goesTo q urgent e then ⟨e.buffer, .returned⟩ :: s.backTo p rest q urgent else s.backTo p rest q urgent := by
  unfold State.backTo
  rw [List.filter_cons_of_pos hback, List.filter_cons]
  split <;> rfl

theorem State.backTo_cons_of_not {s : State} {p : Port} {e : Entry} (hback : s.comesBack p e = false) (rest : List Entry)
    (q : Port) (urgent : Bool) : s.backTo p (e :: rest) q urgent = s.backTo p rest q urgent := by
  unfold State.backTo
  rw [List.filter_cons_of_neg (by simp [hback])]

theorem State.backTo_congr {s t : State} {es : List Entry}
    (h : ∀ f ∈ es, (∀ p, t.comesBack p f = s.comesBack p f) ∧ ∀ q u, t.goesTo q u f = s.goesTo q u f) (p q : Port) (urgent : Bool) :
    t.backTo p es q urgent = s.backTo p es q urgent := by
  unfold State.backTo
  rw [List.filter_congr fun f hf => (h f hf).1 p, List.filter_congr fun f hf => (h f (List.mem_of_mem_filter hf)).2 q urgent]

/-- R144: a discard leaves the sender of every buffer still in use. -/
theorem State.sentFrom_discardEntry {s : State} {e : Entry} {k : Buffer} (hk : s.buffer e.buffer = some k) (q : Port) {b : Nat}
    (hb : (s.discardEntry e).buffer b ≠ none) : (s.discardEntry e).sentFrom q b = s.sentFrom q b := by
  have hbuffer := State.discardEntry_buffer s e k hk b
  unfold State.sentFrom
  rw [State.discardEntry_session]
  by_cases hsame : b = e.buffer
  · subst hsame
    rw [if_pos rfl] at hbuffer
    split at hbuffer
    · exact absurd hbuffer hb
    · rw [hbuffer, hk]
      rfl
  · rw [hbuffer, if_neg hsame]

/-- R137, R139, R146, R150: the undelivered handling of entries whose buffers are in use with a reference for each of them:
the buffers freed, and what every port's mailbox comes to. -/
theorem State.undeliverAll_mailbox (p : Port) (es : List Entry) (s : State) (h : s.referenced es) :
    ∃ freed, (s.undeliverAll p es).1.exchange.free = s.exchange.free ++ freed ∧ freed.Nodup ∧
      (∀ b ∈ freed, s.buffer b ≠ none) ∧
      ∀ q, (s.undeliverAll p es).1.mailbox q =
        (s.mailbox q).after (s.backTo p es q true) (s.backTo p es q false) (freed.filter (s.sentFrom q)).length s.clock := by
  induction es generalizing s with
  | nil =>
    refine ⟨[], (List.append_nil _).symm, List.nodup_nil, fun b hb => absurd hb List.not_mem_nil, fun q => ?_⟩
    exact (Mailbox.after_nothing _ _).symm
  | cons e rest ih =>
    obtain ⟨k, hk, -⟩ := h e List.mem_cons_self
    cases hback : s.comesBack p e with
    | true =>
      have hstep : (s.undeliverAll p (e :: rest)).1 =
          ((s.appendEntry k.sender.port k.urgent ⟨e.buffer, .returned⟩).undeliverAll p rest).1 := by
        rw [State.undeliverAll, State.undelivered_of_back s p e k hk hback]
      obtain ⟨freed, hfree, hnodup, hused, hmailbox⟩ := ih _ (State.referenced_appendEntry h k.sender.port k.urgent ⟨e.buffer, .returned⟩)
      have hjudged := fun f (_ : f ∈ rest) => State.judged_congr (s := s)
        (t := s.appendEntry k.sender.port k.urgent ⟨e.buffer, .returned⟩) f (fun r => by rw [State.appendEntry_session])
        (by rw [State.appendEntry_buffer])
      have hsent : ∀ q, (s.appendEntry k.sender.port k.urgent ⟨e.buffer, .returned⟩).sentFrom q = s.sentFrom q := fun q => by
        funext b
        rw [State.sentFrom, State.appendEntry_buffer, State.appendEntry_session, State.sentFrom]
      have hgoes : ∀ q urgent, s.goesTo q urgent e = (decide (k.sender.port = q) && k.urgent == urgent) := fun q urgent => by
        rw [State.goesTo, hk, Option.any_some]
      refine ⟨freed, ?_, hnodup, fun b hb => ?_, fun q => ?_⟩
      · rw [hstep, hfree, State.appendEntry_free]
      · have hbuffer := hused b hb
        rwa [State.appendEntry_buffer] at hbuffer
      · rw [hstep, hmailbox, State.mailbox_appendEntry, State.backTo_congr hjudged, State.backTo_congr hjudged, hsent,
          State.appendEntry_clock, State.backTo_cons_of_back hback, State.backTo_cons_of_back hback, hgoes, hgoes]
        by_cases hq : q = k.sender.port
        · subst hq
          cases hurgent : k.urgent
          · simp [Mailbox.after_normal]
          · simp [Mailbox.after_urgent]
        · simp [hq, Ne.symm hq]
    | false =>
      have hstep : (s.undeliverAll p (e :: rest)).1 = ((s.discardEntry e).undeliverAll p rest).1 := by
        rw [State.undeliverAll, State.undelivered_of_not s p e hback]
      obtain ⟨freed, hfree, hnodup, hused, hmailbox⟩ := ih _ (State.referenced_discardEntry h hk)
      have hjudged := fun f (hf : f ∈ rest) => State.judged_discardEntry h hk hf
      have hbuffer := State.discardEntry_buffer s e k hk
      refine ⟨(if k.references ≤ 1 then [e.buffer] else []) ++ freed, ?_, ?_, fun b hb => ?_, fun q => ?_⟩
      · rw [hstep, hfree, State.discardEntry_free s e k hk, List.append_assoc]
      · split
        · rename_i hlast
          refine List.nodup_cons.2 ⟨fun hb => hused e.buffer hb ?_, hnodup⟩
          rw [hbuffer, if_pos rfl, if_pos hlast]
        · exact hnodup
      · rcases List.mem_append.1 hb with hb | hb
        · split at hb
          · rw [List.mem_singleton.1 hb, hk]
            exact Option.some_ne_none k
          · nomatch hb
        · intro hnone
          refine hused b hb ?_
          rw [hbuffer, hnone]
          by_cases hsame : b = e.buffer
          · rw [hsame, hk] at hnone
            nomatch hnone
          · exact if_neg hsame
      · have hsent : freed.filter ((s.discardEntry e).sentFrom q) = freed.filter (s.sentFrom q) :=
          List.filter_congr fun b hb => State.sentFrom_discardEntry hk q (hused b hb)
        rw [hstep, hmailbox, State.mailbox_discardEntry hk, Mailbox.after_freed, State.backTo_congr hjudged,
          State.backTo_congr hjudged, hsent, State.discardEntry_clock, State.backTo_cons_of_not hback,
          State.backTo_cons_of_not hback, List.filter_append, List.length_append, Nat.add_comm]
        congr 2
        by_cases hlast : k.references ≤ 1 <;> cases hown : s.sentFrom q e.buffer <;> simp [hlast, hown, flagNat]

end Sys2Proof.Machine
end

section
/-! FLUSH_QUEUE (R148): the named queues emptied through undelivered handling. -/

namespace Sys2Proof.Machine

/-! ## What the handling counts (R146, R148) -/

theorem satInc_toNat (n : Half) : (satInc n).toNat = min 65535 (n.toNat + 1) := by
  have hlt := n.isLt
  unfold satInc
  split
  · rename_i hall
    rw [hall]
    decide
  · rename_i hnot
    have hroom : n.toNat ≠ 65535 := fun h => hnot (BitVec.eq_of_toNat_eq h)
    rw [BitVec.toNat_add_of_lt (by simp; omega)]
    simp
    omega

theorem State.undeliverAll_count (q : Port) (es : List Entry) (s : State) :
    (s.undeliverAll q es).2.1 + (s.undeliverAll q es).2.2 = es.length := by
  induction es generalizing s with
  | nil => rfl
  | cons e rest ih =>
    have hrest := ih (s.undelivered q e).1
    have hone : flagNat (s.undelivered q e).2 + flagNat (!(s.undelivered q e).2) = 1 := by
      cases (s.undelivered q e).2 <;> rfl
    simp only [State.undeliverAll, List.length_cons]
    omega

theorem State.undelivered_discards (s : State) (q : Port) (e : Entry) :
    (s.undelivered q e).1.exchange.discards.toNat =
      min 65535 (s.exchange.discards.toNat + flagNat (!(s.undelivered q e).2)) := by
  have hkept : s.exchange.discards.toNat = min 65535 (s.exchange.discards.toNat + 0) := by
    have := s.exchange.discards.isLt
    omega
  have hdiscard : (s.discardEntry e).exchange.discards.toNat = min 65535 (s.exchange.discards.toNat + 1) := by
    obtain ⟨-, -, hdiscards⟩ := s.releaseBuffer_queues e.buffer
    rw [← satInc_toNat, ← hdiscards]
    rfl
  cases hback : s.comesBack q e with
  | false =>
    rw [State.undelivered_of_not s q e hback]
    exact hdiscard
  | true =>
    cases hk : s.buffer e.buffer with
    | none => simp [State.comesBack, hk] at hback
    | some k =>
      rw [State.undelivered_of_back s q e k hk hback, State.appendEntry_discards]
      exact hkept

/-- R146, R155: the count of discards stands at its greatest value. -/
theorem State.undeliverAll_discards (q : Port) (es : List Entry) (s : State) :
    (s.undeliverAll q es).1.exchange.discards.toNat =
      min 65535 (s.exchange.discards.toNat + (s.undeliverAll q es).2.2) := by
  induction es generalizing s with
  | nil =>
    have := s.exchange.discards.isLt
    simp only [State.undeliverAll]
    omega
  | cons e rest ih =>
    have hrest := ih (s.undelivered q e).1
    have hone := s.undelivered_discards q e
    simp only [State.undeliverAll]
    omega

/-! ## The queues emptied (R148) -/

/-- R146: nothing is returned to the port that it left. -/
theorem State.backTo_own (s : State) (p : Port) (es : List Entry) (urgent : Bool) : s.backTo p es p urgent = [] := by
  unfold State.backTo
  rw [List.filter_filter, List.map_eq_nil_iff, List.filter_eq_nil_iff]
  intro e _ hboth
  obtain ⟨hgoes, hback⟩ := Bool.and_eq_true_iff.1 hboth
  obtain ⟨k, hk, hgoes⟩ := (Option.any_eq_true _ _).1 hgoes
  simp only [State.comesBack, hk, Option.any_some, Bool.and_eq_true, decide_eq_true_eq] at hback hgoes
  exact hback.2.2 hgoes.1

theorem State.mailbox_emptyQueues (s : State) (p : Port) (urgent normal : Bool) (q : Port) :
    (s.emptyQueues p urgent normal).mailbox q = { s.mailbox q with
      urgent := if q = p ∧ urgent = true then [] else s.exchange.urgent.get q
      normal := if q = p ∧ normal = true then [] else s.exchange.normal.get q } := by
  by_cases hq : q = p
  · subst hq
    cases urgent <;> cases normal <;> simp [State.emptyQueues, State.mailbox]
  · cases urgent <;> cases normal <;> simp [State.emptyQueues, State.mailbox, hq]

/-- R146, R148: the named queues of a port emptied, and its coalesce timer stopped with its NORMAL queue. -/
def State.flushed (s : State) (p : Port) (urgent normal : Bool) : State :=
  if normal then (s.drain p urgent normal).1.stopCoalesce p else (s.drain p urgent normal).1

section
variable (s : State) (p : Port) (urgent normal : Bool)

theorem State.flushed_keeps : (s.flushed p urgent normal).words = s.words ∧ (s.flushed p urgent normal).ports = s.ports := by
  have hdrain := (s.emptyQueues p urgent normal).undeliverAll_frame p (s.queued p urgent normal)
  have hwords : (s.drain p urgent normal).1.words = s.words := by
    rw [State.drain, hdrain]
    rfl
  have hports : (s.drain p urgent normal).1.ports = s.ports := by
    rw [State.drain, hdrain]
    rfl
  unfold State.flushed
  split <;> exact ⟨hwords, hports⟩

theorem State.flushed_buffer (b : Nat) : (s.flushed p urgent normal).buffer b = (s.drain p urgent normal).1.buffer b := by
  unfold State.flushed
  split <;> rfl

theorem State.flushed_free : (s.flushed p urgent normal).exchange.free = (s.drain p urgent normal).1.exchange.free := by
  unfold State.flushed
  split <;> rfl

theorem State.flushed_discards : (s.flushed p urgent normal).exchange.discards = (s.drain p urgent normal).1.exchange.discards := by
  unfold State.flushed
  split <;> rfl

theorem State.flushed_mailbox (q : Port) : (s.flushed p urgent normal).mailbox q =
    { (s.drain p urgent normal).1.mailbox q with
      session := ((s.drain p urgent normal).1.exchange.sessions.get q).map fun x =>
        { x with deadline := if q = p ∧ normal = true then none else x.deadline } } := by
  unfold State.flushed
  cases normal with
  | false => simp [State.mailbox]
  | true =>
    rw [if_pos rfl, State.stopCoalesce, State.mailbox_mapMessages]
    by_cases hq : q = p <;> simp [hq, State.mailbox]

theorem State.flush_eq : s.flush p urgent normal = (s.writeExchange (s.flushed p urgent normal),
    .done (s.queued p urgent normal).length
      [natByte (s.drain p urgent normal).2.1, natByte (s.drain p urgent normal).2.2]) := rfl

/-- R148: what is left of the queues of the port. -/
theorem State.flushed_queues :
    (s.flushed p urgent normal).exchange.urgent.get p = (if urgent then [] else s.exchange.urgent.get p) ∧
      (s.flushed p urgent normal).exchange.normal.get p = if normal then [] else s.exchange.normal.get p := by
  obtain ⟨hurgent, hnormal⟩ := State.undeliverAll_queues p (s.queued p urgent normal) (s.emptyQueues p urgent normal)
  have hempty := s.mailbox_emptyQueues p urgent normal p
  simp only [true_and] at hempty
  have hflushed := s.flushed_mailbox p urgent normal p
  exact ⟨(congrArg Mailbox.urgent hflushed).trans (hurgent.trans (congrArg Mailbox.urgent hempty)),
    (congrArg Mailbox.normal hflushed).trans (hnormal.trans (congrArg Mailbox.normal hempty))⟩

theorem State.flushed_deadline (h : normal = true) :
    ((s.flushed p urgent normal).exchange.sessions.get p).bind MessageSession.deadline = none := by
  have hsession := congrArg Mailbox.session (s.flushed_mailbox p urgent normal p)
  rw [show (s.flushed p urgent normal).exchange.sessions.get p = _ from hsession]
  cases (s.drain p urgent normal).1.exchange.sessions.get p <;> simp [h]

/-- R146, R150: what the flush comes to for one port. -/
structure FlushedFor (q : Port) (freed : List Nat) : Prop where
  queues : q ≠ p → (s.flushed p urgent normal).exchange.urgent.get q =
      s.exchange.urgent.get q ++ s.backTo p (s.queued p urgent normal) q true ∧
    (s.flushed p urgent normal).exchange.normal.get q =
      s.exchange.normal.get q ++ s.backTo p (s.queued p urgent normal) q false
  attention : (s.flushed p urgent normal).attention.get q = (s.attention.get q).map fun a =>
    if s.backTo p (s.queued p urgent normal) q true ≠ [] ∨ (s.backTo p (s.queued p urgent normal) q false ≠ [] ∧
      (s.mailbox q).standsAt ((s.exchange.normal.get q).length + (s.backTo p (s.queued p urgent normal) q false).length) = true)
    then a.raise .message .none else a
  sessions : (s.flushed p urgent normal).exchange.sessions.get q = (s.exchange.sessions.get q).map fun x => { x with
    quota := x.quota - (freed.filter (s.sentFrom q)).length
    deadline :=
      if q = p then (if normal then none else x.deadline)
      else x.afterReturns (s.exchange.normal.get q).length (s.backTo p (s.queued p urgent normal) q false) s.clock }

theorem flushedFor (q : Port) (freed : List Nat)
    (h : (s.drain p urgent normal).1.mailbox q = ((s.emptyQueues p urgent normal).mailbox q).after
      (s.backTo p (s.queued p urgent normal) q true) (s.backTo p (s.queued p urgent normal) q false)
        (freed.filter (s.sentFrom q)).length s.clock) : FlushedFor s p urgent normal q freed := by
  have hflushed := s.flushed_mailbox p urgent normal q
  rw [show (s.drain p urgent normal).1.exchange.sessions.get q = _ from congrArg Mailbox.session h, h,
    State.mailbox_emptyQueues] at hflushed
  have hattention := congrArg Mailbox.record hflushed
  have hsession := congrArg Mailbox.session hflushed
  rcases eq_or_ne q p with rfl | hq
  · simp only [State.backTo_own] at hattention hsession ⊢
    refine ⟨fun hq => absurd rfl hq, hattention.trans ?_, hsession.trans ?_⟩
    · simp [Mailbox.after, State.mailbox, State.backTo_own]
    · simp [Mailbox.after, State.mailbox, MessageSession.afterReturns, Function.comp_def]
  · simp only [hq, false_and, if_false] at hattention hsession hflushed
    refine ⟨fun _ => ⟨(congrArg Mailbox.urgent hflushed).trans rfl, (congrArg Mailbox.normal hflushed).trans rfl⟩, hattention,
      hsession.trans ?_⟩
    simp [Mailbox.after, State.mailbox, hq, Function.comp_def]

/-- R137, R144, R146: the flush of entries whose buffers are in use with a reference for each of them. -/
theorem State.flushed_referenced (h : s.referenced (s.queued p urgent normal)) :
    let released (b : Nat) : Nat := ((s.queued p urgent normal).filter fun e => !s.comesBack p e && e.buffer == b).length
    let t := s.flushed p urgent normal
    (s.drain p urgent normal).2.1 = ((s.queued p urgent normal).filter (s.comesBack p)).length ∧
      (∀ b, released b = 0 → t.buffer b = s.buffer b) ∧
      (∀ b k, released b ≠ 0 → s.buffer b = some k →
        t.buffer b = if released b < k.references then some { k with references := k.references - released b } else none) ∧
      ∃ freed, t.exchange.free = s.exchange.free ++ freed ∧ freed.Nodup ∧
        (∀ b, b ∈ freed ↔ s.buffer b ≠ none ∧ t.buffer b = none) ∧ ∀ q, FlushedFor s p urgent normal q freed := by
  intro released t
  obtain ⟨hcount, -, -, hkept, hreleased, freed', hfree', hfreed⟩ :=
    State.undeliverAll_referenced (s.emptyQueues p urgent normal) p (s.queued p urgent normal) h
  obtain ⟨freed, hfree, hnodup, -, hmailbox⟩ :=
    State.undeliverAll_mailbox p (s.queued p urgent normal) (s.emptyQueues p urgent normal) h
  obtain rfl : freed' = freed := List.append_cancel_left (hfree'.symm.trans hfree)
  have hbuffer := s.flushed_buffer p urgent normal
  refine ⟨hcount, fun b hb => (hbuffer b).trans (hkept b hb), fun b k hb hk => (hbuffer b).trans (hreleased b k hb hk),
    freed', ?_, hnodup, fun b => ?_, fun q => flushedFor s p urgent normal q freed' (hmailbox q)⟩
  · exact (s.flushed_free p urgent normal).trans hfree
  · exact (hfreed b).trans (by rw [hbuffer]; rfl)

end

/-! ## The request (R148) -/

theorem flushCode_of_range {code : Byte} (h : code.toNat = 0 ∨ 3 < code.toNat) : flushCode code = none := by
  have hne : ∀ b : Byte, 1 ≤ b.toNat → b.toNat ≤ 3 → code ≠ b := fun b hlow hhigh heq => by
    rw [heq] at h
    omega
  rw [flushCode, if_neg (hne 1 (by decide) (by decide)), if_neg (hne 2 (by decide) (by decide)),
    if_neg (hne 3 (by decide) (by decide))]

theorem serveFlushQueue_of_length (who : SessionRef) {body : List Byte} (h : body.length ≠ 1) (s : State) :
    serveFlushQueue who body s = (s, .refuse .badRequest 0) := by
  unfold serveFlushQueue
  split
  · exact absurd rfl h
  · rfl

section
variable (s : State) (p : Port) (n : Half)

theorem State.buffer_qualify (b : Nat) : (s.qualify p n).buffer b = s.buffer b :=
  congrArg (fun x : Exchange => x.buffers.read none b) (State.qualify_exchange s p n)

theorem State.judged_qualify (e : Entry) :
    (∀ q, (s.qualify p n).comesBack q e = s.comesBack q e) ∧ ∀ q u, (s.qualify p n).goesTo q u e = s.goesTo q u e :=
  State.judged_congr e (fun _ => State.qualify_session ..) (by rw [State.buffer_qualify])

theorem State.sentFrom_qualify (q : Port) : (s.qualify p n).sentFrom q = s.sentFrom q := by
  funext b
  rw [State.sentFrom, State.buffer_qualify, State.qualify_session, State.sentFrom]

theorem State.queued_qualify (q : Port) (urgent normal : Bool) : (s.qualify p n).queued q urgent normal = s.queued q urgent normal := by
  rw [State.queued, State.qualify_exchange, State.queued]

end

/-- R137, R146, R150: a flush of the qualified state, in terms of the state that the request arrives in. -/
theorem FlushedFor.of_qualify {s : State} {p : Port} {n : Half} {urgent normal : Bool} {q : Port} {freed : List Nat}
    (h : FlushedFor (s.qualify p n) p urgent normal q freed) :
    let t := (s.qualify p n).flushed p urgent normal
    let backTo := s.backTo p (s.queued p urgent normal) q
    (q ≠ p → t.exchange.urgent.get q = s.exchange.urgent.get q ++ backTo true ∧
        t.exchange.normal.get q = s.exchange.normal.get q ++ backTo false) ∧
      (t.attention.get q = ((s.qualify p n).attention.get q).map fun a =>
        if backTo true ≠ [] ∨ (backTo false ≠ [] ∧
          (s.mailbox q).standsAt ((s.exchange.normal.get q).length + (backTo false).length) = true)
        then a.raise .message .none else a) ∧
      t.exchange.sessions.get q = (s.exchange.sessions.get q).map fun x => { x with
        quota := x.quota - (freed.filter (s.sentFrom q)).length
        deadline :=
          if q = p then (if normal then none else x.deadline)
          else x.afterReturns (s.exchange.normal.get q).length (backTo false) s.clock } := by
  have hback : ∀ u, (s.qualify p n).backTo p (s.queued p urgent normal) q u = s.backTo p (s.queued p urgent normal) q u :=
    fun u => State.backTo_congr (fun f _ => s.judged_qualify p n f) p q u
  have hstands : ((s.qualify p n).mailbox q).standsAt = (s.mailbox q).standsAt := by
    unfold Mailbox.standsAt State.mailbox
    rw [State.qualify_exchange]
  obtain ⟨hqueues, hattention, hsessions⟩ := h
  rw [State.queued_qualify] at hqueues hattention hsessions
  simp only [hback, State.qualify_exchange, State.qualify_clock, State.sentFrom_qualify, hstands] at hqueues hattention hsessions
  exact ⟨hqueues, hattention, hsessions⟩

/-- Settles O45: the counts and the requester's queues in every state; buffers, queues, quotas and attention of the others
where the leaving entries' buffers are referenced. -/
theorem flushQueueEmptiesTheNamedQueues : Obligations.FlushQueueEmptiesTheNamedQueues := by
  intro s p m tag serves
  refine ⟨fun body hlength => ?_, fun code hcode => ?_, fun code urgent normal hcode => ?_⟩
  · exact exec_of_refusal serves .flushQueue tag body (serveFlushQueue · body) rfl _ _ (serveFlushQueue_of_length _ hlength _)
  · refine exec_of_refusal serves .flushQueue tag [code] (serveFlushQueue · [code]) rfl .badRequest 1 ?_
    simp only [serveFlushQueue, flushCode_of_range hcode]
  intro leaving back backTo released depth full
  have hexchange : (s.qualify p m.number).exchange = s.exchange := State.qualify_exchange ..
  have hleaving : (s.qualify p m.number).queued p urgent normal = leaving := State.queued_qualify ..
  have hserve : serveFlushQueue (m.on p) [code] (s.qualify p m.number) = (s.qualify p m.number).flush p urgent normal := by
    simp only [serveFlushQueue, hcode]
  rw [State.flush_eq, hleaving] at hserve
  obtain ⟨hwords, hports⟩ := (s.qualify p m.number).flushed_keeps p urgent normal
  obtain ⟨hurgent, hnormal⟩ := (s.qualify p m.number).flushed_queues p urgent normal
  have hcount := State.undeliverAll_count p ((s.qualify p m.number).queued p urgent normal)
    ((s.qualify p m.number).emptyQueues p urgent normal)
  have hflushed := (s.qualify p m.number).flushed_discards p urgent normal
  refine ⟨_, ((s.qualify p m.number).drain p urgent normal).2.1, ((s.qualify p m.number).drain p urgent normal).2.2,
    exec_of_answer serves .flushQueue tag [code] (serveFlushQueue · [code]) rfl _ _ hserve
    (congrArg (PerPort.get · p) ((State.writeExchange_ports ..).trans hports)), ?_⟩
  simp only [State.replied_exchange, State.writeExchange_exchange, State.replied_attention, State.writeExchange_attention]
  refine ⟨?_, ?_, ?_, ?_, (s.qualify p m.number).flushed_deadline p urgent normal, ?_,
    fun hshows => State.showsExchange_served hshows p m.number hwords, fun hreferenced => ?_⟩
  · rw [hurgent, hexchange]
  · rw [hnormal, hexchange]
  · exact hcount.trans (congrArg List.length hleaving)
  · have hdiscards : ((s.qualify p m.number).emptyQueues p urgent normal).exchange.discards = s.exchange.discards :=
      (congrArg Exchange.discards hexchange :)
    rw [hflushed, State.drain, State.undeliverAll_discards, hdiscards]
  · rw [State.replied_link]
    rfl
  have hbuffer : ∀ b, (((s.qualify p m.number).writeExchange ((s.qualify p m.number).flushed p urgent normal)).replied p
      ((Answer.done leaving.length [natByte ((s.qualify p m.number).drain p urgent normal).2.1,
        natByte ((s.qualify p m.number).drain p urgent normal).2.2]).frame tag Kind.flushQueue.code 1)).buffer b =
      ((s.qualify p m.number).flushed p urgent normal).buffer b := fun b => State.writeExchange_buffer ..
  have hreleased : ∀ b, released b = (leaving.filter fun e => !(s.qualify p m.number).comesBack p e && e.buffer == b).length := by
    intro b
    refine congrArg List.length (List.filter_congr fun e he => ?_)
    have hback : e ∈ back ↔ (s.qualify p m.number).comesBack p e = true := by
      rw [(s.judged_qualify p m.number e).1 p]
      exact List.mem_filter.trans (and_iff_right he)
    simp [hback]
  have hreferenced' : (s.qualify p m.number).referenced leaving := fun e he => by
    rw [State.buffer_qualify]
    exact hreferenced e he
  rw [← hleaving] at hreferenced'
  obtain ⟨hreturned, hkept, hlowered, freed, hfree, hnodup, hfreed, hfor⟩ :=
    (s.qualify p m.number).flushed_referenced p urgent normal hreferenced'
  rw [hleaving] at hreturned hkept hlowered
  simp only [State.buffer_qualify, ← hreleased] at hkept hlowered hfreed
  refine ⟨hreturned.trans ?_, fun q hq => (hfor q).of_qualify.1 hq, fun q => (hfor q).of_qualify.2.1,
    fun b hb => (hbuffer b).trans (hkept b hb), fun b k hb hk => (hbuffer b).trans (hlowered b k hb hk), freed, ?_, hnodup,
    fun b => (hfreed b).trans (by rw [hbuffer]), fun q => (hfor q).of_qualify.2.2.trans ?_⟩
  · exact congrArg List.length (List.filter_congr fun e _ => (s.judged_qualify p m.number e).1 p)
  · rw [hfree, hexchange]
  · simp only [MessageSession.afterReturns, List.length_eq_zero_iff]
    rfl

end Sys2Proof.Machine
end

section
/-! SET_ZONE_POLICY and LOAD_SAFE_IMAGE (R51 to R54). -/

namespace Sys2Proof.Machine

/-! ## The codes (R51, R184) -/

/-- R184: the byte of a loss policy. -/
def PolicyCode.byte (policy : PolicyCode) : Byte := match policy with | .hold => 0 | .clear => 1 | .substitute => 2

/-- R51, R184: the byte of a standby. -/
def standbyByte (standby : Option Port) : Byte := match standby with | none => 0 | some q => q.code

theorem policyCode_byte (policy : PolicyCode) : policyCode policy.byte = some policy := by cases policy <;> rfl

theorem standbyCode_byte (standby : Option Port) : standbyCode (standbyByte standby) = some standby := by
  cases standby with
  | none => rfl
  | some q => cases q <;> rfl

theorem portSetOf_byte : ∀ ps : PortSet, portSetOf (ps.setWidth 8) = some ps := by decide

theorem policyCode_of_gt {b : Byte} (h : 2 < b.toNat) : policyCode b = none := by
  have hne : ∀ c : Byte, c.toNat ≤ 2 → b ≠ c := fun c hc heq => by
    rw [heq] at h
    omega
  rw [policyCode, if_neg (hne 0 (by decide)), if_neg (hne 1 (by decide)), if_neg (hne 2 (by decide))]

theorem standbyCode_of_gt {b : Byte} (h : 4 < b.toNat) : standbyCode b = none := by
  have hzero : b ≠ 0 := by
    rintro rfl
    simp at h
  have hport : Port.ofCode b = none := by
    refine List.find?_eq_none.2 fun q _ hq => ?_
    obtain rfl := beq_iff_eq.1 hq
    revert h
    cases q <;> decide
  rw [standbyCode, if_neg hzero, hport]
  rfl

/-- R184: a byte is a set of ports where its four highest bits are 0. -/
theorem portBits_iff (b : Byte) : b.extractLsb' 4 4 = 0#4 ↔ b.toNat ≤ 15 := by
  have hlt := b.isLt
  rw [← BitVec.toNat_inj, BitVec.extractLsb'_toNat, Nat.shiftRight_eq_div_pow]
  simp only [BitVec.toNat_ofNat]
  omega

theorem portSetOf_of_gt {b : Byte} (h : 15 < b.toNat) : portSetOf b = none :=
  if_neg fun hbits => Nat.not_le_of_lt h ((portBits_iff b).1 hbits)

/-! ## The safe store (R53) -/

theorem ZoneRecord.isSubstitute_iff (r : ZoneRecord) : r.isSubstitute = true ↔ ∃ image, r.policy = .substitute image := by
  unfold ZoneRecord.isSubstitute
  cases r.policy <;> simp

theorem State.safeFree_qualify (s : State) (p : Port) (n : Half) :
    (s.qualify p n).safeFreeBits = s.safeFreeBits ∧ (s.qualify p n).safeFreeWords = s.safeFreeWords := by
  simp only [State.safeFreeBits, State.safeFreeWords, State.definedZones, State.qualify_zone, and_self]

theorem State.safeShort_eq (s : State) (r : ZoneRecord) : s.safeShort r =
    (if s.safeFreeBits < r.bitCount then 1 else 0) + if s.safeFreeWords < r.wordCount then 2 else 0 := by
  unfold State.safeShort flagNat
  by_cases hb : s.safeFreeBits < r.bitCount <;> by_cases hw : s.safeFreeWords < r.wordCount <;> simp [hb, hw]

theorem State.safeShort_eq_zero_iff (s : State) (r : ZoneRecord) :
    s.safeShort r = 0 ↔ r.bitCount ≤ s.safeFreeBits ∧ r.wordCount ≤ s.safeFreeWords := by
  rw [State.safeShort_eq]
  split <;> split <;> omega

/-! ## SET_ZONE_POLICY (R51, R52) -/

/-- R51: the body of a SET_ZONE_POLICY. -/
abbrev policyBody (n : Byte) (policy : PolicyCode) (standby : Option Port) (delay : Byte) (requested : PortSet) : List Byte :=
  [n, policy.byte, standbyByte standby, delay, requested.setWidth 8]

/-- R52: the record after a SET_ZONE_POLICY. -/
def ZoneRecord.withPolicy (r : ZoneRecord) (policy : PolicyCode) (standby : Option Port) (delay : Byte) (rights : PortSet) :
    ZoneRecord :=
  { r with policy := r.newPolicy policy, standby := standby, delay := delay, rights := rights }

theorem ZoneRecord.withPolicy_eq (r : ZoneRecord) (policy : PolicyCode) (standby : Option Port) (delay : Byte)
    (rights : PortSet) : r.withPolicy policy standby delay rights =
      { r with
        policy :=
          match policy, r.policy with
          | .hold, _ => .hold
          | .clear, _ => .clear
          | .substitute, .substitute image => .substitute image
          | .substitute, _ => .substitute ⟨false, List.replicate r.bitCount false, List.replicate r.wordCount 0⟩
        standby := standby
        delay := delay
        rights := rights } := by
  unfold ZoneRecord.withPolicy ZoneRecord.newPolicy ZoneRecord.isSubstitute
  cases policy <;> cases r.policy <;> rfl

theorem serveSetZonePolicy_of_length (who : SessionRef) {body : List Byte} (h : body.length ≠ 5) (s : State) :
    serveSetZonePolicy who body s = (s, .refuse .badRequest 0) := by
  unfold serveSetZonePolicy
  split
  · exact absurd rfl h
  · rfl

theorem serveSetZonePolicy_of_codes (who : SessionRef) (n delay : Byte) {policyByte standbyByte rightsByte : Byte}
    (h : 2 < policyByte.toNat ∨ 4 < standbyByte.toNat ∨ 15 < rightsByte.toNat) (s : State) :
    serveSetZonePolicy who [n, policyByte, standbyByte, delay, rightsByte] s = (s, .refuse .badRequest 1) := by
  unfold serveSetZonePolicy
  dsimp only
  split
  · rename_i hpolicy hstandby hrights
    rcases h with h | h | h
    · rw [policyCode_of_gt h] at hpolicy
      nomatch hpolicy
    · rw [standbyCode_of_gt h] at hstandby
      nomatch hstandby
    · rw [portSetOf_of_gt h] at hrights
      nomatch hrights
  · rfl

section
variable {s : State} {who : SessionRef} {n : Byte} (policy : PolicyCode) (standby : Option Port) (delay : Byte) (requested : PortSet)

theorem serveSetZonePolicy_of_error {a : Answer} (h : s.definedZone n = .error a) :
    serveSetZonePolicy who (policyBody n policy standby delay requested) s = (s, a) := by
  simp only [serveSetZonePolicy, policyCode_byte, standbyCode_byte, portSetOf_byte, h]

/-- R52, R53: the request makes the zone's policy SUBSTITUTE. -/
def ZoneRecord.enters (r : ZoneRecord) (policy : PolicyCode) : Prop :=
  policy = .substitute ∧ ∀ image, r.policy ≠ .substitute image

theorem ZoneRecord.enters_iff (r : ZoneRecord) (policy : PolicyCode) :
    (policy == .substitute && !r.isSubstitute) = true ↔ r.enters policy := by
  rw [ZoneRecord.enters, ← not_exists, ← r.isSubstitute_iff]
  simp

theorem ZoneRecord.not_ownedBy {r : ZoneRecord} {who : SessionRef} (h : r.status ≠ .owned who) : (!r.ownedBy who) = true := by
  rw [Bool.not_eq_true', ← Bool.not_eq_true, r.ownedBy_iff]
  exact h

theorem ZoneRecord.ownedBy_of_owner {r : ZoneRecord} {who : SessionRef} (h : r.status = .owned who) :
    ¬ (!r.ownedBy who) = true := by
  rw [(r.ownedBy_iff who).2 h]
  simp

/-- R51: a standby that the claim rights do not cover, or that is the requesting port. -/
def forbidsStandby (p : Port) (rights : PortSet) (standby : Option Port) : Bool :=
  standby.any fun q => !portIn q rights || q == p

theorem forbidsStandby_some (p : Port) (rights : PortSet) (q : Port) :
    forbidsStandby p rights (some q) = true ↔ portIn q rights = false ∨ q = p := by
  simp [forbidsStandby]

theorem not_forbidsStandby {p : Port} {rights : PortSet} {standby : Option Port}
    (h : ∀ q, standby = some q → portIn q rights = true ∧ q ≠ p) : ¬ forbidsStandby p rights standby = true := by
  cases standby with
  | none => exact Bool.false_ne_true
  | some q =>
    obtain ⟨hin, hne⟩ := h q rfl
    rw [forbidsStandby_some, hin]
    simp [hne]

variable {r : ZoneRecord} (hz : s.definesZone n.toNat r)
include hz

/-- R51: the checks of a SET_ZONE_POLICY at a defined zone, in the order of their table. -/
theorem serveSetZonePolicy_of_defined :
    serveSetZonePolicy who (policyBody n policy standby delay requested) s =
      if !r.ownedBy who then (s, .refuse .notOwner 0)
      else if forbidsStandby who.port (requested ||| who.port.single) standby then (s, .refuse .notPermitted 0)
      else if (policy == .substitute && !r.isSubstitute) && decide (255 < r.imageSize) then (s, .refuse .tooLarge r.imageSize)
      else if (policy == .substitute && !r.isSubstitute) && s.safeShort r != 0 then (s, .refuse .safeStoreFull (s.safeShort r))
      else (s.setZone n.toNat (some (r.withPolicy policy standby delay (requested ||| who.port.single))), .done 0 []) := by
  simp only [serveSetZonePolicy, policyCode_byte, standbyCode_byte, portSetOf_byte, hz.definedZone]
  rfl

theorem serveSetZonePolicy_of_other (hstatus : r.status ≠ .owned who) :
    serveSetZonePolicy who (policyBody n policy standby delay requested) s = (s, .refuse .notOwner 0) := by
  rw [serveSetZonePolicy_of_defined policy standby delay requested hz, if_pos (r.not_ownedBy hstatus)]

variable (hstatus : r.status = .owned who)
include hstatus

theorem serveSetZonePolicy_of_forbidden (hforbidden : forbidsStandby who.port (requested ||| who.port.single) standby = true) :
    serveSetZonePolicy who (policyBody n policy standby delay requested) s = (s, .refuse .notPermitted 0) := by
  rw [serveSetZonePolicy_of_defined policy standby delay requested hz, if_neg (r.ownedBy_of_owner hstatus), if_pos hforbidden]

variable (hallowed : ¬ forbidsStandby who.port (requested ||| who.port.single) standby = true)
include hallowed

theorem serveSetZonePolicy_of_large (henters : r.enters policy) (hlarge : 255 < r.imageSize) :
    serveSetZonePolicy who (policyBody n policy standby delay requested) s = (s, .refuse .tooLarge r.imageSize) := by
  rw [serveSetZonePolicy_of_defined policy standby delay requested hz, if_neg (r.ownedBy_of_owner hstatus), if_neg hallowed,
    (r.enters_iff policy).2 henters, if_pos (by simpa using hlarge)]

theorem serveSetZonePolicy_of_short (henters : r.enters policy) (hsize : r.imageSize ≤ 255) (hshort : s.safeShort r ≠ 0) :
    serveSetZonePolicy who (policyBody n policy standby delay requested) s = (s, .refuse .safeStoreFull (s.safeShort r)) := by
  rw [serveSetZonePolicy_of_defined policy standby delay requested hz, if_neg (r.ownedBy_of_owner hstatus), if_neg hallowed,
    (r.enters_iff policy).2 henters, if_neg (by simpa using hsize), if_pos (by simpa using hshort)]

theorem serveSetZonePolicy_of_fit (hfits : r.enters policy → r.imageSize ≤ 255 ∧ s.safeShort r = 0) :
    serveSetZonePolicy who (policyBody n policy standby delay requested) s =
      (s.setZone n.toNat (some (r.withPolicy policy standby delay (requested ||| who.port.single))), .done 0 []) := by
  rw [serveSetZonePolicy_of_defined policy standby delay requested hz, if_neg (r.ownedBy_of_owner hstatus), if_neg hallowed]
  by_cases henters : r.enters policy
  · obtain ⟨hsize, hshort⟩ := hfits henters
    rw [if_neg (by simp [hsize]), if_neg (by simp [hshort])]
  · rw [← r.enters_iff, Bool.not_eq_true] at henters
    rw [henters, Bool.false_and, Bool.false_and, if_neg Bool.false_ne_true, if_neg Bool.false_ne_true]

end

/-! ## LOAD_SAFE_IMAGE (R54) -/

theorem serveLoadSafeImage_of_error {s : State} (who : SessionRef) {n : Byte} (values : List Byte) {a : Answer}
    (h : s.definedZone n = .error a) : serveLoadSafeImage who (n :: values) s = (s, a) := by
  simp only [serveLoadSafeImage, h]

section
variable {s : State} {who : SessionRef} {n : Byte} {values : List Byte} {r : ZoneRecord} (hz : s.definesZone n.toNat r)
include hz

theorem serveLoadSafeImage_of_defined : serveLoadSafeImage who (n :: values) s =
      if !r.ownedBy who then (s, .refuse .notOwner 0)
      else if !r.isSubstitute then (s, .refuse .zoneState 0)
      else if values.length ≠ r.imageSize then (s, .refuse .badRequest 2)
      else (s.setZone n.toNat (some { r with policy := .substitute (r.loadedImage values) }), .done 0 []) := by
  simp only [serveLoadSafeImage, hz.definedZone]

theorem serveLoadSafeImage_of_other (hstatus : r.status ≠ .owned who) :
    serveLoadSafeImage who (n :: values) s = (s, .refuse .notOwner 0) := by
  rw [serveLoadSafeImage_of_defined hz, if_pos (r.not_ownedBy hstatus)]

variable (hstatus : r.status = .owned who)
include hstatus

theorem serveLoadSafeImage_of_plain (hpolicy : ∀ image, r.policy ≠ .substitute image) :
    serveLoadSafeImage who (n :: values) s = (s, .refuse .zoneState 0) := by
  rw [← not_exists, ← r.isSubstitute_iff] at hpolicy
  rw [serveLoadSafeImage_of_defined hz, if_neg (r.ownedBy_of_owner hstatus), if_pos (by simpa using hpolicy)]

variable {image : SafeImage} (hpolicy : r.policy = .substitute image)
include hpolicy

theorem serveLoadSafeImage_of_length (hlength : values.length ≠ r.imageSize) :
    serveLoadSafeImage who (n :: values) s = (s, .refuse .badRequest 2) := by
  rw [serveLoadSafeImage_of_defined hz, if_neg (r.ownedBy_of_owner hstatus), r.isSubstitute_iff.2 ⟨image, hpolicy⟩,
    if_neg (by simp), if_pos hlength]

theorem serveLoadSafeImage_of_fit (hlength : values.length = r.imageSize) : serveLoadSafeImage who (n :: values) s =
    (s.setZone n.toNat (some { r with policy := .substitute (r.loadedImage values) }), .done 0 []) := by
  rw [serveLoadSafeImage_of_defined hz, if_neg (r.ownedBy_of_owner hstatus), r.isSubstitute_iff.2 ⟨image, hpolicy⟩,
    if_neg (by simp), if_neg (not_not.2 hlength)]

end

/-- Settles O25: the checks of each request in the order of its table, on the qualified state. -/
theorem policyAndSafeImageAreSet : Obligations.PolicyAndSafeImageAreSet := by
  intro s p m tag serves u policyRefused loadRefused
  have policyRefuses : ∀ {body : List Byte} {o : ReplyOutcome} {detail : Nat},
      serveSetZonePolicy (m.on p) body u = (u, .refuse o detail) → policyRefused body o detail :=
    fun h => exec_of_refusal serves .setZonePolicy tag _ (serveSetZonePolicy · _) rfl _ _ h
  have loadRefuses : ∀ {body : List Byte} {o : ReplyOutcome} {detail : Nat},
      serveLoadSafeImage (m.on p) body u = (u, .refuse o detail) → loadRefused body o detail :=
    fun h => exec_of_refusal serves .loadSafeImage tag _ (serveLoadSafeImage · _) rfl _ _ h
  refine ⟨fun body hlength => policyRefuses (serveSetZonePolicy_of_length _ hlength _), loadRefuses rfl,
    fun n policyByte standbyByte delay rightsByte h => policyRefuses (serveSetZonePolicy_of_codes _ n delay h _),
    fun n delay policy standby requested values => ?_⟩
  intro body rights
  have hbody : body = policyBody n policy standby delay requested := rfl
  refine ⟨fun hrange => ?_, fun hlow hhigh => ⟨fun hnone => ?_, fun r hr => ?_⟩⟩
  · have herror := u.definedZone_of_range hrange
    exact ⟨policyRefuses (serveSetZonePolicy_of_error policy standby delay requested herror),
      loadRefuses (serveLoadSafeImage_of_error _ values herror)⟩
  · have herror := State.definedZone_of_none hlow hhigh ((State.qualify_zone s p m.number n.toNat).trans hnone)
    exact ⟨policyRefuses (serveSetZonePolicy_of_error policy standby delay requested herror),
      loadRefuses (serveLoadSafeImage_of_error _ values herror)⟩
  have hz : u.definesZone n.toNat r := State.definesZone.qualify (s := s) ⟨hlow, hhigh, hr⟩ p m.number
  obtain ⟨hbits, hwords⟩ := State.safeFree_qualify s p m.number
  have hshort : u.safeShort r =
      (if s.safeFreeBits < r.bitCount then 1 else 0) + if s.safeFreeWords < r.wordCount then 2 else 0 := by
    rw [u.safeShort_eq, hbits, hwords]
  have hfree : u.safeShort r = 0 ↔ r.bitCount ≤ s.safeFreeBits ∧ r.wordCount ≤ s.safeFreeWords := by
    rw [u.safeShort_eq_zero_iff, hbits, hwords]
  refine ⟨fun hother => ⟨policyRefuses (serveSetZonePolicy_of_other policy standby delay requested hz hother),
      loadRefuses (serveLoadSafeImage_of_other hz hother)⟩,
    fun howned => ⟨fun q hq hforbidden => ?_, fun hallowed => ?_,
      fun hplain => loadRefuses (serveLoadSafeImage_of_plain hz howned hplain),
      fun image himage => ⟨fun hlength => loadRefuses (serveLoadSafeImage_of_length hz howned himage hlength),
        fun hlength => ?_⟩⟩⟩
  · subst hq
    exact policyRefuses
      (serveSetZonePolicy_of_forbidden policy _ delay requested hz howned ((forbidsStandby_some _ _ q).2 hforbidden))
  · have hstandby := not_forbidsStandby hallowed
    refine ⟨fun henters hlarge =>
        policyRefuses (serveSetZonePolicy_of_large policy standby delay requested hz howned hstandby henters hlarge),
      fun henters hsize hlack => ?_, fun hfits => ?_⟩
    · rw [← hshort]
      refine policyRefuses (serveSetZonePolicy_of_short policy standby delay requested hz howned hstandby henters hsize ?_)
      rw [Ne, hfree]
      omega
    · have hserve := serveSetZonePolicy_of_fit policy standby delay requested hz howned hstandby fun henters =>
        (hfits henters).imp_right hfree.2
      rw [ZoneRecord.withPolicy_eq] at hserve
      exact exec_of_answer serves .setZonePolicy tag body (serveSetZonePolicy · body) rfl _ _ hserve rfl
  · exact exec_of_answer serves .loadSafeImage tag _ (serveLoadSafeImage · _) rfl _ _
      (serveLoadSafeImage_of_fit hz howned himage hlength) rfl

end Sys2Proof.Machine
end

section
/-! Zone 0 (R42, R43, R70). -/

namespace Sys2Proof.Machine

/-! ## Its report (R42, R188) -/

theorem serveQueryZone_zero (who : SessionRef) (s : State) : serveQueryZone who [0] s =
    (s, .done 0 ([0, 1, 0, 0, 0, 128, 0, 0, 0, 96, 15, 0, 0, 0, 0, 0, 0, 0] ++ halfBytes s.systemZone.generation ++ [0] ++
      clockBytes s.systemZone.lastTime ++ [s.systemZone.lastEpoch] ++ [0, 0, 0, 0] ++
      (halfBytes (natHalf s.safeFreeBits) ++ halfBytes (natHalf s.safeFreeWords)))) := rfl

/-! ## A write (R43, R70) -/

/-- The last value that a list of points gives a number, or the value that it had. -/
theorem find?_reverse_of_agree {β : Type} (points : List (Nat × β)) (i : Nat) (v : β) (h : ∀ x ∈ points, x.1 = i → x.2 = v) :
    ((points.reverse.find? fun x => x.1 == i).map Prod.snd).getD v = v := by
  cases hfind : points.reverse.find? fun x => x.1 == i with
  | none => rfl
  | some x =>
    have hmem := List.mem_reverse.1 (List.mem_of_find?_eq_some hfind)
    have hnumber : x.1 = i := by simpa using List.find?_some hfind
    exact h x hmem hnumber

theorem State.bit_store_of_agree {s : State} {w : Points} (h : ∀ b ∈ w.bits, s.bit b.1 = b.2) (i : Nat) :
    (s.store w).bit i = s.bit i := by
  rw [State.bit_store]
  exact find?_reverse_of_agree _ _ _ fun b hb hi => by rw [← hi, h b hb]

/-- A point that one item of a write names has that item's value. -/
theorem State.bit_store_of_nodup (s : State) {w : Points} (hnodup : (w.bits.map Prod.fst).Nodup) {b : Nat × Bool}
    (hb : b ∈ w.bits) : (s.store w).bit b.1 = b.2 := by
  rw [State.bit_store]
  cases hfind : w.bits.reverse.find? fun x => x.1 == b.1 with
  | none => exact absurd (List.find?_eq_none.1 hfind b (List.mem_reverse.2 hb)) (by simp)
  | some x =>
    have hmem := List.mem_reverse.1 (List.mem_of_find?_eq_some hfind)
    have hnumber : x.1 = b.1 := by simpa using List.find?_some hfind
    rw [List.inj_on_of_nodup_map hnodup hmem hb hnumber]
    rfl

section
variable {s : State} {w : Points} (hunnamed : ∀ n a, s.timer n = some a → ∀ b ∈ w.bits, a.source ≠ b.1 ∧ a.resetBit ≠ some b.1)
include hunnamed

/-- R124: no timer answers a write of bits that none names. -/
theorem State.take_unnamed (n : Nat) (a : Armed) (ha : s.timer n = some a) (bits : Memory Bool) (c : Clock) :
    a.take (s.storeSystem w).2 bits c = a := by
  have hnone : ∀ i, (∀ b ∈ w.bits, i ≠ b.1) → (s.storeSystem w).2.edgeOf i = none := fun i hi => by
    unfold Notice.edgeOf
    rw [State.storeSystem_edges, List.find?_eq_none.2 fun e he hei => ?_]
    · rfl
    obtain rfl : e.1 = i := by simpa using hei
    obtain ⟨hafter, hbefore⟩ := (mem_bitEdges _ _ _ _).1 he
    exact hbefore (hafter ▸ (State.bit_store_ne s w e.1 fun b hb heq => hi b hb heq.symm).symm)
  refine Armed.take_unseen _ bits c a (hnone _ fun b hb => (hunnamed n a ha b hb).1) ?_
  cases hreset : a.resetBit with
  | none => rfl
  | some r => exact hnone r fun b hb heq => (hunnamed n a ha b hb).2 (heq ▸ hreset)

theorem State.writeSystem_unnamed :
    (s.writeSystem w).systemZone = (s.storeSystem w).1.systemZone ∧ ∀ i, (s.writeSystem w).bit i = (s.store w).bit i := by
  obtain ⟨hdeliver, -⟩ := State.deliver_unseen Config.chainLimit (s.storeSystem w).1 (s.storeSystem w).2 fun n a ha =>
    State.take_unnamed hunnamed n a (by rwa [State.storeSystem_fst] at ha) _ _
  rw [← State.writeSystem_eq] at hdeliver
  rw [hdeliver]
  refine ⟨rfl, fun i => ?_⟩
  rw [State.storeSystem_fst]
  rfl

end

/-- R43: a changed bit counts one generation of zone 0. -/
theorem State.storeSystem_counts {s : State} {w : Points} {i : Nat} (h : (s.store w).bit i ≠ s.bit i) :
    (s.storeSystem w).1.systemZone =
      { generation := seqNext s.systemZone.generation, lastTime := s.clock, lastEpoch := s.epoch } := by
  have hedges : bitEdges s.bits (s.store w).bits ≠ [] := fun hnil => h ((bitEdges_eq_nil_iff _ _).1 hnil i)
  rw [State.storeSystem_fst, if_neg (by simpa using hedges)]

/-- Settles O27. -/
theorem zoneZeroIsFixed : Obligations.ZoneZeroIsFixed := by
  refine ⟨fun s p m tag serves => ?_, fun s w hagree => ?_, fun s w hnodup hchange hunnamed => ?_⟩
  · exact ⟨_, _, exec_of_answer serves .queryZone tag [0] (serveQueryZone · [0]) rfl _ _ (serveQueryZone_zero _ _) rfl,
      by rw [State.replied_link]; rfl⟩
  · have hwrite := State.writeSystem_no_edges s w (State.bit_store_of_agree hagree)
    rw [hwrite]
    exact ⟨_, _, rfl, State.bit_store_of_agree hagree, State.word_store s w⟩
  · intro t
    obtain ⟨b, hb, hne⟩ := hchange
    obtain ⟨hzone, hbit⟩ := State.writeSystem_unnamed hunnamed
    rw [State.storeSystem_counts (i := b.1) (by rw [State.bit_store_of_nodup s hnodup hb]; exact hne.symm)] at hzone
    refine ⟨congrArg SystemZone.generation hzone, congrArg SystemZone.lastTime hzone, congrArg SystemZone.lastEpoch hzone,
      fun x hx => (hbit _).trans (State.bit_store_of_nodup s hnodup hx), fun i hi => (hbit i).trans (State.bit_store_ne s w i hi)⟩

end Sys2Proof.Machine
end

section
/-! The items of a PUBLISH and the stages that refuse it (R62 to R65, R187). -/

namespace Sys2Proof.Machine

/-! ## Values laid from an index on -/

theorem natByte_toNat {n : Nat} (h : n ≤ 255) : (natByte n).toNat = n := by
  rw [natByte, BitVec.toNat_ofNat]
  omega

theorem layFrom_eq {β : Type} (d : β) (values : List β) (first : Nat) :
    layFrom first values = (List.range values.length).map fun i => (first + i, values.getD i d) := by
  induction values generalizing first with
  | nil => rfl
  | cons v rest ih =>
    rw [layFrom, ih, List.length_cons, List.range_succ_eq_map, List.map_cons, List.map_map]
    congr 1
    refine List.map_congr_left fun i _ => ?_
    simp only [Function.comp, List.getD_cons_succ, Prod.mk.injEq, and_true]
    omega

theorem unpackBytes_cons (b : Byte) (rest : List Byte) : unpackBytes (b :: rest) = unpackByte b ++ unpackBytes rest := rfl

@[simp] theorem unpackByte_length (b : Byte) : (unpackByte b).length = 8 := by simp [unpackByte]

@[simp] theorem unpackBytes_length (values : List Byte) : (unpackBytes values).length = 8 * values.length := by
  simp [unpackBytes, List.length_flatMap, Nat.mul_comm]

theorem unpackByte_getD (b : Byte) {i : Nat} (hi : i < 8) : (unpackByte b).getD i false = b.getLsbD (7 - i) := by
  simp [unpackByte, List.getD_eq_getElem?_getD, hi]

/-- R183: bit `i` of the bytes' bits, each byte's most significant bit first. -/
theorem unpackBytes_getD (values : List Byte) (i : Nat) (hi : i < 8 * values.length) :
    (unpackBytes values).getD i false = (values.getD (i / 8) 0).getLsbD (7 - i % 8) := by
  induction values generalizing i with
  | nil => simp at hi
  | cons b rest ih =>
    rw [unpackBytes_cons]
    by_cases hlow : i < 8
    · rw [List.getD_append _ _ _ _ (by simpa using hlow), unpackByte_getD b hlow, Nat.div_eq_of_lt hlow, Nat.mod_eq_of_lt hlow]
      rfl
    · obtain ⟨j, rfl⟩ : ∃ j, i = j + 8 := ⟨i - 8, by omega⟩
      rw [List.getD_append_right _ _ _ _ (by simp), unpackByte_length, Nat.add_sub_cancel,
        ih j (by simp at hi; omega), Nat.add_div_right _ (by decide), Nat.add_mod_right]
      rfl

theorem halves_flatMap_halfBytes (values : List Half) : halves (values.flatMap halfBytes) = values := by
  induction values with
  | nil => rfl
  | cons v rest ih =>
    rw [List.flatMap_cons]
    show half _ _ :: halves (rest.flatMap halfBytes) = _
    rw [ih, half_halfBytes]

theorem half_mod_eight (hi lo : Byte) : (half hi lo).toNat % 8 = lo.toNat % 8 := by
  have hlt := lo.isLt
  rw [half, BitVec.toNat_append, ← Nat.shiftLeft_add_eq_or_of_lt hlt, Nat.shiftLeft_eq]
  omega

/-! ## One item (R62, R63) -/

theorem readItem_bit (first : Half) (v : Bool) (rest : List Byte) :
    readItem ([1] ++ halfBytes first ++ [if v then 1 else 0] ++ rest) = some (⟨[(first.toNat, v)], []⟩, rest) := by
  show readItem (1 :: _ :: _ :: _ :: rest) = _
  unfold readItem
  cases v <;> simp

theorem readItem_bitRun (first : Half) (values rest : List Byte) (haligned : first.toNat % 8 = 0) (hsome : 1 ≤ values.length)
    (hlength : values.length ≤ 255) :
    readItem ([2] ++ halfBytes first ++ [natByte values.length] ++ values ++ rest) =
      some (⟨(List.range (8 * values.length)).map fun i =>
        (first.toNat + i, (values.getD (i / 8) 0).getLsbD (7 - i % 8)), []⟩, rest) := by
  show readItem (2 :: _ :: _ :: _ :: (values ++ rest)) = _
  have hcount := natByte_toNat (by omega : values.length ≤ 255)
  have hbits := layFrom_eq false (unpackBytes values) first.toNat
  rw [unpackBytes_length] at hbits
  have hlay : layFrom first.toNat (unpackBytes values) = (List.range (8 * values.length)).map fun i =>
      (first.toNat + i, (values.getD (i / 8) 0).getLsbD (7 - i % 8)) :=
    hbits.trans (List.map_congr_left fun i hi => by rw [unpackBytes_getD values i (List.mem_range.1 hi)])
  unfold readItem
  simp [hcount, haligned, hsome, hlay]

theorem readItem_word (first value : Half) (rest : List Byte) :
    readItem ([3] ++ halfBytes first ++ halfBytes value ++ rest) = some (⟨[], [(first.toNat, value)]⟩, rest) := by
  show readItem (3 :: _ :: _ :: _ :: _ :: rest) = _
  unfold readItem
  simp

theorem readItem_wordRun (first : Half) (values : List Half) (rest : List Byte) (hsome : 1 ≤ values.length)
    (hlength : values.length ≤ 255) :
    readItem ([4] ++ halfBytes first ++ [natByte values.length] ++ values.flatMap halfBytes ++ rest) =
      some (⟨[], (List.range values.length).map fun i => (first.toNat + i, values.getD i 0)⟩, rest) := by
  show readItem (4 :: _ :: _ :: _ :: (values.flatMap halfBytes ++ rest)) = _
  have hcount := natByte_toNat (by omega : values.length ≤ 255)
  have hbytes : (values.flatMap halfBytes).length = 2 * values.length := by
    simp [List.length_flatMap, halfBytes, Nat.mul_comm]
  unfold readItem
  simp only [← layFrom_eq (0 : Half) values]
  simp [hcount, hbytes, hsome, List.take_left' hbytes, List.drop_left' hbytes, halves_flatMap_halfBytes]

theorem readItem_of_short {body : List Byte} (h : body.length < 4) : readItem body = none := by
  unfold readItem
  split
  · simp at h
    omega
  · rfl

/-- R63, R187: four bytes or more that begin no item. -/
theorem readItem_of_malformed {code hi lo x : Byte} {rest : List Byte}
    (h : (code ≠ 1 ∧ code ≠ 2 ∧ code ≠ 3 ∧ code ≠ 4) ∨ (code = 1 ∧ x ≠ 0 ∧ x ≠ 1) ∨
      (code = 2 ∧ (lo.toNat % 8 ≠ 0 ∨ x = 0 ∨ rest.length < x.toNat)) ∨ (code = 3 ∧ rest = []) ∨
      (code = 4 ∧ (x = 0 ∨ rest.length < 2 * x.toNat))) : readItem (code :: hi :: lo :: x :: rest) = none := by
  unfold readItem
  dsimp only
  rcases h with ⟨h1, h2, h3, h4⟩ | ⟨rfl, h0, h1⟩ | ⟨rfl, h⟩ | ⟨rfl, rfl⟩ | ⟨rfl, h⟩
  · rw [if_neg h1, if_neg h2, if_neg h3, if_neg h4]
  · rw [if_pos rfl, if_neg h0, if_neg h1]
  · have hnot : ¬ ((half hi lo).toNat % 8 = 0 ∧ 1 ≤ x.toNat ∧ x.toNat ≤ rest.length) := by
      rw [half_mod_eight]
      rcases h with h | rfl | h
      · omega
      · simp
      · omega
    simp [hnot]
  · simp
  · have hnot : ¬ (1 ≤ x.toNat ∧ 2 * x.toNat ≤ rest.length) := by
      rcases h with rfl | h
      · simp
      · omega
    simp [hnot]

/-! ## A list of items (R63) -/

theorem readItems_of_item {body rest : List Byte} {item : Points} (h : readItem body = some (item, rest)) (fuel number : Nat) :
    readItems (fuel + 1) number body = (readItems fuel (number + 1) rest).map (item :: ·) := by
  have hne : body.isEmpty = false := by
    cases body with
    | nil => nomatch h
    | cons => rfl
  rw [readItems, hne, h]
  dsimp only [Bool.false_eq_true, if_false]
  cases readItems fuel (number + 1) rest <;> rfl

theorem readItems_of_malformed {body : List Byte} (hne : body ≠ []) (h : readItem body = none) (fuel number : Nat) :
    readItems (fuel + 1) number body = .error number := by
  unfold readItems
  rw [h, if_neg (by simpa using hne)]

theorem firstItem_of_split {bad : Points → Bool} {before after : List Points} {item : Points} (hbad : bad item = true)
    (hgood : ∀ j ∈ before, bad j = false) : firstItem bad (before ++ item :: after) = some (before.length + 1) := by
  unfold firstItem
  rw [List.findIdx?_append, List.findIdx?_eq_none_iff.2 hgood, List.findIdx?_cons, hbad]
  simp

theorem firstItem_of_good {bad : Points → Bool} {items : List Points} (hgood : ∀ j ∈ items, bad j = false) :
    firstItem bad items = none := by
  unfold firstItem
  rw [List.findIdx?_eq_none_iff.2 hgood]
  rfl

/-! ## The holding zones on the qualified state -/

theorem State.holders_congr {s t : State} (h : ∀ z, t.zone z = s.zone z) (item : Points) : t.holders item = s.holders item := by
  simp only [State.holders, State.bitHolder, State.wordHolder, State.findZone, h]

theorem State.leavesImage_qualify (s : State) (p : Port) (n : Half) : (s.qualify p n).leavesImage = s.leavesImage :=
  funext fun item => by rw [State.leavesImage, State.holders_congr (State.qualify_zone s p n), State.leavesImage]

theorem State.notOwned_qualify (s : State) (p : Port) (n : Half) (who : SessionRef) :
    (s.qualify p n).notOwned who = s.notOwned who := by
  funext item
  have howned : (s.qualify p n).holdingOwned who = s.holdingOwned who := by
    funext h
    cases h <;> simp only [State.holdingOwned, State.qualify_zone]
  rw [State.notOwned, State.holders_congr (State.qualify_zone s p n), howned]
  rfl

/-! ## The stages (R63 to R65) -/

theorem servePublish_of_malformed {body : List Byte} (who : SessionRef) (hne : body ≠ []) {n : Nat}
    (h : readItems body.length 1 body = .error n) (s : State) : servePublish who body s = (s, .refuse .badRequest n) := by
  simp only [servePublish, if_neg hne, h]

section
variable {body : List Byte} {who : SessionRef} (hne : body ≠ []) {items : List Points}
  (h : readItems body.length 1 body = .ok items) (s : State)
include hne h

theorem servePublish_of_leaving {n : Nat} (hleaves : firstItem s.leavesImage items = some n) :
    servePublish who body s = (s, .refuse .range n) := by
  simp only [servePublish, if_neg hne, h, hleaves]

theorem servePublish_of_other {n : Nat} (hleaves : firstItem s.leavesImage items = none)
    (hother : firstItem (s.notOwned who) items = some n) : servePublish who body s = (s, .refuse .notOwner n) := by
  simp only [servePublish, if_neg hne, h, hleaves, hother]

theorem servePublish_of_good (hleaves : firstItem s.leavesImage items = none)
    (howned : firstItem (s.notOwned who) items = none) : servePublish who body s = s.publish items := by
  simp only [servePublish, if_neg hne, h, hleaves, howned]

end

theorem readItems_nil (fuel number : Nat) : readItems fuel number [] = .ok [] := by
  cases fuel <;> rfl

/-- R63, R187: bytes that begin no item. -/
theorem readItem_of_bad {bad : List Byte} (h : (bad ≠ [] ∧ bad.length < 4) ∨
      ∃ code hi lo x rest, bad = code :: hi :: lo :: x :: rest ∧
        ((code ≠ 1 ∧ code ≠ 2 ∧ code ≠ 3 ∧ code ≠ 4) ∨ (code = 1 ∧ x ≠ 0 ∧ x ≠ 1) ∨
          (code = 2 ∧ (lo.toNat % 8 ≠ 0 ∨ x = 0 ∨ rest.length < x.toNat)) ∨ (code = 3 ∧ rest = []) ∨
          (code = 4 ∧ (x = 0 ∨ rest.length < 2 * x.toNat)))) : bad ≠ [] ∧ readItem bad = none := by
  rcases h with ⟨hne, hshort⟩ | ⟨code, hi, lo, x, rest, rfl, hform⟩
  · exact ⟨hne, readItem_of_short hshort⟩
  · exact ⟨List.cons_ne_nil _ _, readItem_of_malformed hform⟩

/-- Settles O29: the stages on the qualified state, whose holding zones are those of the state before. -/
theorem publishIsRefusedByStages : Obligations.PublishIsRefusedByStages := by
  intro s p m tag body serves
  have refuses : ∀ {body : List Byte} {o : ReplyOutcome} {detail : Nat},
      servePublish (m.on p) body (s.qualify p m.number) = (s.qualify p m.number, .refuse o detail) →
      exec (.publish p tag m.number body) s = .next (s.refused p m tag .publish o detail) :=
    fun h => exec_of_refusal serves .publish tag _ (servePublish · _) rfl _ _ h
  refine ⟨?_, fun n herror => ?_, fun bad hbad => ?_, fun before after item hitems => ?_⟩
  · rintro rfl
    exact refuses rfl
  · have hne : body ≠ [] := by
      rintro rfl
      nomatch herror
    exact refuses (servePublish_of_malformed _ hne herror _)
  · obtain ⟨hne, hread⟩ := readItem_of_bad hbad
    obtain ⟨k, hk⟩ := Nat.exists_eq_succ_of_ne_zero (mt List.length_eq_zero_iff.1 hne)
    refine ⟨refuses (servePublish_of_malformed _ hne (by rw [hk]; exact readItems_of_malformed hne hread k 1) _), fun first v => ?_⟩
    have hcons : [1] ++ halfBytes first ++ [if v then 1 else 0] ++ bad ≠ [] := List.cons_ne_nil _ _
    refine refuses (servePublish_of_malformed _ hcons ?_ _)
    have hlength : ([1] ++ halfBytes first ++ [if v then 1 else 0] ++ bad).length = (k + 4) + 1 := by
      simp [halfBytes, hk]
    rw [hlength, readItems_of_item (readItem_bit first v bad), readItems_of_malformed hne hread]
    rfl
  · have hne : body ≠ [] := by
      rintro rfl
      have hlength := congrArg List.length (Except.ok.inj hitems)
      simp at hlength
    refine ⟨fun hout hgood => ?_, fun hother hgood hinside => ?_⟩
    · refine refuses (servePublish_of_leaving hne hitems _ ?_)
      rw [State.leavesImage_qualify]
      exact firstItem_of_split hout hgood
    · refine refuses (servePublish_of_other hne hitems _ ?_ ?_)
      · rw [State.leavesImage_qualify]
        exact firstItem_of_good hinside
      · rw [State.notOwned_qualify]
        exact firstItem_of_split hother hgood

end Sys2Proof.Machine
end

section
/-! An executed PUBLISH (R62 to R69, R163). -/

namespace Sys2Proof.Machine

/-! ## Watches that the system zone does not fire (R163) -/

/-- R163: the watch is a CHANGE watch of a definable zone, a RISE or FALL watch of a definable bit, or an OWNERSHIP watch. -/
structure Watch.definable (w : Watch) : Prop where
  change : w.kind = .change → w.zone ≠ 0
  edge : ∀ i, w.kind = .rise i ∨ w.kind = .fall i → 128 ≤ i

/-- R68, R70: the notice names the system zone alone. -/
structure Notice.ofSystem (n : Notice) : Prop where
  generations : ∀ z ∈ n.generations, z = 0
  edges : ∀ e ∈ n.edges, e.1 < 128

theorem Watch.definable.fire {w : Watch} (h : w.definable) : w.fire.definable := by
  obtain ⟨hkind, hzone⟩ := w.fire_names
  exact ⟨fun hc => hzone ▸ h.change (hkind ▸ hc), fun i hi => h.edge i (hkind ▸ hi)⟩

theorem Watch.seesChange_ofSystem {w : Watch} (hw : w.definable) {n : Notice} (hn : n.ofSystem) : w.seesChange n = false := by
  cases hkind : w.kind with
  | change =>
    simp only [Watch.seesChange, hkind, List.contains_eq_mem, decide_eq_false_iff_not]
    exact fun hmem => hw.change hkind (hn.generations _ hmem)
  | rise i =>
    simp only [Watch.seesChange, hkind, List.contains_eq_mem, decide_eq_false_iff_not]
    exact fun hmem => Nat.not_lt_of_le (hw.edge i (.inl hkind)) (hn.edges _ hmem)
  | fall i =>
    simp only [Watch.seesChange, hkind, List.contains_eq_mem, decide_eq_false_iff_not]
    exact fun hmem => Nat.not_lt_of_le (hw.edge i (.inr hkind)) (hn.edges _ hmem)
  | ownership => simp only [Watch.seesChange, hkind]

theorem State.storeSystem_ofSystem (s : State) {w : Points} (hw : ∀ b ∈ w.bits, b.1 < 128) : (s.storeSystem w).2.ofSystem := by
  refine ⟨fun z hz => ?_, fun e he => ?_⟩
  · rw [State.storeSystem_snd] at hz
    split at hz
    · nomatch hz
    · exact List.mem_singleton.1 hz
  · rw [State.storeSystem_edges] at he
    obtain ⟨hafter, hbefore⟩ := (mem_bitEdges _ _ e.1 e.2).1 he
    by_contra hlow
    refine hbefore (hafter ▸ (State.bit_store_ne s w e.1 fun b hb heq => ?_).symm)
    have := hw b hb
    omega

theorem State.timersTake_ofSystem (s : State) (n : Notice) : (s.timersTake n).2.ofSystem :=
  State.storeSystem_ofSystem _ fun b hb => by
    have := timerPoints_bits_lt _ _ b hb
    omega

/-- A slot of a port's record holds the watch, and WATCH is pending where the watch was just fired. -/
def State.holdsWatch (s : State) (q : Port) (k : Nat) (w : Watch) (fired : Bool) : Prop :=
  ∃ a, s.attention.get q = some a ∧ a.slot k = some w ∧ (fired = true → a.pending.getLsbD 1 = true)

section
variable {s : State} {q : Port} {k : Nat} {w : Watch} {fired : Bool}

theorem AttentionRecord.watchPending_fireWhere (f : Watch → Bool) (r : AttentionRecord) (h : r.pending.getLsbD 1 = true) :
    (r.fireWhere f).pending.getLsbD 1 = true := by
  rcases AttentionRecord.pending_fireWhere f r with hp | hp <;> simp [hp, h]

theorem State.holdsWatch.fireChange_unseen (h : s.holdsWatch q k w fired) {n : Notice} (hn : w.seesChange n = false) :
    (s.fireChange n).holdsWatch q k w fired := by
  obtain ⟨a, ha, hslot, hpending⟩ := h
  refine ⟨a.fireWhere (Watch.seesChange n), by rw [State.attention_fireChange, ha]; rfl, ?_,
    fun hf => a.watchPending_fireWhere _ (hpending hf)⟩
  rw [AttentionRecord.slot_fireWhere, hslot, Option.map_some, hn]
  rfl

theorem State.holdsWatch.fireChange (h : s.holdsWatch q k w fired) (n : Notice) :
    (s.fireChange n).holdsWatch q k (if w.seesChange n then w.fire else w) (w.seesChange n) := by
  obtain ⟨a, ha, hslot, -⟩ := h
  refine ⟨a.fireWhere (Watch.seesChange n), by rw [State.attention_fireChange, ha]; rfl, ?_, fun hf => ?_⟩
  · rw [AttentionRecord.slot_fireWhere, hslot]
    rfl
  · rw [(AttentionRecord.fireWhere_of_slot _ a k w hslot hf).1]
    simp [Cause.bit]

theorem State.holdsWatch.timersTake (h : s.holdsWatch q k w fired) (n : Notice) : (s.timersTake n).1.holdsWatch q k w fired := by
  rw [State.timersTake_fst]
  exact h

theorem State.holdsWatch.deliver_ofSystem (hw : w.definable) (limit : Nat) (h : s.holdsWatch q k w fired) {n : Notice}
    (hn : n.ofSystem) : (s.deliver limit n).holdsWatch q k w fired := by
  induction limit generalizing s n with
  | zero =>
    unfold State.deliver
    split
    · exact h
    · exact h.fireChange_unseen (Watch.seesChange_ofSystem hw hn)
  | succ limit ih =>
    unfold State.deliver
    split
    · exact h
    · exact ih ((h.fireChange_unseen (Watch.seesChange_ofSystem hw hn)).timersTake n) (State.timersTake_ofSystem _ n)

theorem State.holdsWatch.writeSystem (hw : w.definable) (h : s.holdsWatch q k w fired) {points : Points}
    (hpoints : ∀ b ∈ points.bits, b.1 < 128) : (s.writeSystem points).holdsWatch q k w fired := by
  rw [State.writeSystem_eq]
  refine State.holdsWatch.deliver_ofSystem hw _ ?_ (State.storeSystem_ofSystem s hpoints)
  rw [State.storeSystem_fst]
  exact h

theorem State.holdsWatch.raise (h : s.holdsWatch q k w fired) (c : Cause) (d : Detail) (p : Port) :
    (s.raise c d p).holdsWatch q k w fired := by
  obtain ⟨a, ha, hslot, hpending⟩ := h
  rw [State.holdsWatch, State.attention_raise, ha]
  split
  · exact ⟨a.raise c d, rfl, by rw [AttentionRecord.slot_raise, hslot], fun hf => by simp [hpending hf]⟩
  · exact ⟨a, rfl, hslot, hpending⟩

theorem State.holdsWatch.raiseFor (c : Cause) (d : Detail) (ps : List Port) (h : s.holdsWatch q k w fired) :
    (s.raiseFor c d ps).holdsWatch q k w fired := by
  induction ps generalizing s with
  | nil => exact h
  | cons p rest ih => exact ih (h.raise c d p)

theorem State.holdsWatch.qualify (hw : w.definable) (h : s.holdsWatch q k w fired) (p : Port) (n : Half) :
    (s.qualify p n).holdsWatch q k w fired := by
  unfold State.qualify
  split
  case h_1 => split <;> exact h
  case h_2 m _ =>
    split
    · have hset : (s.setPort p (.online { m with deadline := monitorDeadline s.clock m.monitorTime })).holdsWatch q k w fired := h
      exact (hset.writeSystem hw (monitorPoints_inSystem _ _).1).raiseFor ..
    · exact h
  all_goals exact h

/-- R66, R69, R163: a counted write event fires the watches that its own notice names, and its chain fires none else. -/
theorem State.holdsWatch.writeZones (hw : w.definable) (h : s.holdsWatch q k w fired) (zs : List Nat) (points : Points) :
    (s.writeZones zs points).holdsWatch q k (if w.seesChange (s.storeCounted zs points).2 then w.fire else w)
      (w.seesChange (s.storeCounted zs points).2) := by
  have hstored : (s.storeCounted zs points).1.holdsWatch q k w fired := by
    rw [State.storeCounted_fst]
    exact h
  unfold State.writeZones
  dsimp only
  rw [show Config.chainLimit = Config.chainLimit - 1 + 1 from rfl, State.deliver]
  split
  · rename_i hempty
    have hfired := hstored.fireChange (s.storeCounted zs points).2
    rwa [State.fireChange_empty _ _ hempty] at hfired
  · refine State.holdsWatch.deliver_ofSystem ?_ _ ((hstored.fireChange _).timersTake _) (State.timersTake_ofSystem _ _)
    split
    · exact hw.fire
    · exact hw

end

/-! ## The touched zones (R66) -/

theorem State.touched_eq (s : State) (items : List Points) : s.touched items = zoneNumbers.filter fun z =>
    (items.flatMap Points.bits).any (fun b => s.bitHolder b.1 == .zone z) ||
      (items.flatMap Points.words).any fun w => s.wordHolder w.1 == .zone z := by
  refine List.filter_congr fun z _ => Bool.eq_iff_iff.2 ?_
  simp only [State.holders, List.any_eq_true, List.contains_eq_mem, decide_eq_true_eq, List.mem_append, List.mem_map,
    Bool.or_eq_true, List.mem_flatMap, beq_iff_eq]
  constructor
  · rintro ⟨item, hitem, ⟨b, hb, hz⟩ | ⟨w, hw, hz⟩⟩
    · exact .inl ⟨b, ⟨item, hitem, hb⟩, hz⟩
    · exact .inr ⟨w, ⟨item, hitem, hw⟩, hz⟩
  · rintro (⟨b, ⟨item, hitem, hb⟩, hz⟩ | ⟨w, ⟨item, hitem, hw⟩, hz⟩)
    · exact ⟨item, hitem, .inl ⟨b, hb, hz⟩⟩
    · exact ⟨item, hitem, .inr ⟨w, hw, hz⟩⟩

theorem State.touched_qualify (s : State) (p : Port) (n : Half) (items : List Points) :
    (s.qualify p n).touched items = s.touched items := by
  simp only [State.touched, State.holders_congr (State.qualify_zone s p n)]

theorem State.nodup_touched (s : State) (items : List Points) : (s.touched items).Nodup := nodup_zoneNumbers.filter _

/-! ## The executed request -/

theorem exec_publish_of_items {s : State} {p : Port} {m : Membership} (serves : s.serves p m) (tag : Byte) {body : List Byte}
    {items : List Points} (hne : body ≠ []) (hitems : readItems body.length 1 body = .ok items)
    (hgood : ∀ item ∈ items, s.leavesImage item = false ∧ s.notOwned (m.on p) item = false) :
    exec (.publish p tag m.number body) s =
      .next (((s.qualify p m.number).writeZones (s.touched items) (allPoints items)).replied p
        ((Answer.done (s.touched items).length ((s.touched items).flatMap
          ((s.qualify p m.number).writeZones (s.touched items) (allPoints items)).generationEntry)).frame tag 0x20 1)) := by
  have hserve : servePublish (m.on p) body (s.qualify p m.number) = (s.qualify p m.number).publish items := by
    refine servePublish_of_good hne hitems _ ?_ ?_
    · rw [State.leavesImage_qualify]
      exact firstItem_of_good fun j hj => (hgood j hj).1
    · rw [State.notOwned_qualify]
      exact firstItem_of_good fun j hj => (hgood j hj).2
  rw [State.publish, State.touched_qualify] at hserve
  exact exec_of_answer serves .publish tag body (servePublish · body) rfl _ _ hserve (by rw [State.writeZones_ports])

/-- R163: what a counted write event of the zones given shows a watch. -/
def Watch.firesOn (touched : List Nat) (before after : Nat → Bool) (w : Watch) : Bool :=
  match w.kind with
  | .change => decide (w.zone ∈ touched)
  | .rise i => !before i && after i
  | .fall i => before i && !after i
  | .ownership => false

theorem Watch.seesChange_storeCounted (s : State) (zs : List Nat) (points : Points) (w : Watch) :
    w.seesChange (s.storeCounted zs points).2 = w.firesOn zs s.bit (s.store points).bit := by
  have hnotice : (s.storeCounted zs points).2 = ⟨zs, bitEdges s.bits (s.store points).bits⟩ := by
    show Notice.mk zs (bitEdges s.bits (s.storeCounted zs points).1.bits) = _
    rw [State.storeCounted_bits]
  rw [hnotice]
  have hedge : ∀ i v, (bitEdges s.bits (s.store points).bits).contains (i, v) =
      decide ((s.store points).bit i = v ∧ s.bit i ≠ v) := fun i v => by
    rw [List.contains_eq_mem, decide_eq_decide]
    exact mem_bitEdges _ _ i v
  cases hkind : w.kind with
  | change => simp [Watch.seesChange, Watch.firesOn, hkind]
  | rise i =>
    simp only [Watch.seesChange, Watch.firesOn, hkind, hedge]
    cases s.bit i <;> cases (s.store points).bit i <;> rfl
  | fall i =>
    simp only [Watch.seesChange, Watch.firesOn, hkind, hedge]
    cases s.bit i <;> cases (s.store points).bit i <;> rfl
  | ownership => simp only [Watch.seesChange, Watch.firesOn, hkind]

theorem Watch.firesOn_congr {touched : List Nat} {before after before' after' : Nat → Bool} {w : Watch} (hw : w.definable)
    (hbefore : ∀ i, 128 ≤ i → before i = before' i) (hafter : ∀ i, 128 ≤ i → after i = after' i) :
    w.firesOn touched before after = w.firesOn touched before' after' := by
  cases hkind : w.kind with
  | change => simp only [Watch.firesOn, hkind]
  | rise i =>
    have hi := hw.edge i (.inl hkind)
    simp only [Watch.firesOn, hkind, hbefore i hi, hafter i hi]
  | fall i =>
    have hi := hw.edge i (.inr hkind)
    simp only [Watch.firesOn, hkind, hbefore i hi, hafter i hi]
  | ownership => simp only [Watch.firesOn, hkind]

theorem State.qualify_bit_definable (s : State) (p : Port) (n : Half) {i : Nat} (hi : 128 ≤ i) :
    (s.qualify p n).bit i = s.bit i := by
  have := Port.index_lt p
  exact State.qualify_bit s p n i (by omega) ⟨by omega, by omega, by omega⟩

theorem State.qualify_word_definable (s : State) (p : Port) (n : Half) {i : Nat} (hi : 96 ≤ i) :
    (s.qualify p n).word i = s.word i := by
  have := Port.index_lt p
  exact State.qualify_word s p n i (by omega) (by omega)

/-- R67: the generations that the reply carries. -/
theorem State.generationEntries_writeZones (s : State) {zs : List Nat} (hzs : zs.Nodup) (points : Points) :
    zs.flatMap (s.writeZones zs points).generationEntry =
      zs.flatMap fun z => natByte z :: halfBytes ((s.zone z).elim 0 fun r => seqNext r.generation) := by
  refine List.flatMap_congr fun z hz => ?_
  rw [State.generationEntry, State.writeZones_zone s zs hzs points z, if_pos hz]
  cases s.zone z <;> rfl

/-- A CHANGE watch of a touched zone has fired after a counted write event. -/
theorem State.firedAt_writeZones {s : State} {q : Port} {k zone : Nat} (h : s.watches q k .change zone) {zs : List Nat}
    (hzone : zone ∈ zs) (points : Points) : (s.writeZones zs points).firedAt q k := by
  have hstored : (s.storeCounted zs points).1.watches q k .change zone := by
    rw [State.storeCounted_fst]
    exact h
  have hnonempty : (s.storeCounted zs points).2.isEmpty ≠ true := by
    obtain ⟨z, rest, rfl⟩ := List.exists_cons_of_ne_nil (List.ne_nil_of_mem hzone)
    exact Bool.false_ne_true
  unfold State.writeZones
  dsimp only
  rw [show Config.chainLimit = Config.chainLimit - 1 + 1 from rfl, State.deliver, if_neg hnonempty]
  refine State.firedAt_deliver ?_ _ _
  rw [State.timersTake_fst]
  refine State.firedAt_fireChange hstored _ fun w hkind hz => ?_
  rw [Watch.seesChange, hkind, hz]
  exact List.contains_iff_mem.2 hzone

/-- Settles O28: one counted write event after the arrival. -/
theorem publishStoresAndCounts : Obligations.PublishStoresAndCounts := by
  refine ⟨fun s p m tag body items serves hne hitems hgood => ?_, fun fuel number first rest => ?_, by decide⟩
  · intro bits words touched
    have htouched : touched = s.touched items := (s.touched_eq items).symm
    have hexec := exec_publish_of_items serves tag hne hitems hgood
    clear_value touched
    subst htouched
    have hnodup := s.nodup_touched items
    have hbit : ∀ i, 128 ≤ i → ((s.qualify p m.number).writeZones (s.touched items) (allPoints items)).bit i =
        ((s.qualify p m.number).store (allPoints items)).bit i := fun i hi => State.writeZones_bit _ _ _ i (by omega)
    refine ⟨_, hexec, fun i hi => ?_, fun i hi => ?_, fun z hz => ?_, fun z hz => ?_, fun q a k w ha hslot hkind hzone => ?_,
      fun q a k w ha hslot hchange hedge => ?_, ?_⟩
    · rw [State.replied_bit, hbit i hi, State.bit_store, State.qualify_bit_definable s p m.number hi]
      rfl
    · rw [State.replied_word, State.writeZones_word _ _ _ i (by omega), State.word_store,
        State.qualify_word_definable s p m.number hi]
      rfl
    · rw [State.replied_zone, State.writeZones_zone _ _ hnodup, if_pos hz, State.qualify_zone, State.qualify_clock,
        State.qualify_epoch]
      rfl
    · rw [State.replied_zone, State.writeZones_zone _ _ hnodup, if_neg hz, State.qualify_zone]
    · have hwatches : s.watches q k .change w.zone := ⟨a, w, ha, hslot, hkind, rfl⟩
      exact State.firedAt_writeZones (State.watches_qualify hwatches p m.number) hzone _
    · have hw : w.definable := ⟨hchange, hedge⟩
      have hholds : s.holdsWatch q k w false := ⟨a, ha, hslot, fun h => nomatch h⟩
      obtain ⟨a', ha', hslot', hpending'⟩ :=
        (hholds.qualify hw p m.number).writeZones hw (s.touched items) (allPoints items)
      rw [Watch.seesChange_storeCounted, Watch.firesOn_congr hw (fun i hi => State.qualify_bit_definable s p m.number hi)
        fun i hi => (hbit i hi).symm] at hslot' hpending'
      refine ⟨a', ha', ?_, hpending'⟩
      rw [hslot', Watch.fire_eq]
      rfl
    · rw [State.replied_link, State.generationEntries_writeZones _ hnodup]
      simp only [State.qualify_zone]
      rfl
  · exact ⟨fun v => readItems_of_item (readItem_bit first v rest) fuel number,
      fun values haligned hsome hlength => readItems_of_item (readItem_bitRun first values rest haligned hsome hlength) fuel number,
      fun value => readItems_of_item (readItem_word first value rest) fuel number,
      fun values hsome hlength => readItems_of_item (readItem_wordRun first values rest hsome hlength) fuel number⟩

end Sys2Proof.Machine
end

section
/-! DEFINE_ZONE (R41, R48, R49, R131). -/

namespace Sys2Proof.Machine

/-! ## The lowest zone number of a kind -/

theorem zoneNumbers_eq : zoneNumbers = List.range' 1 31 := by decide

theorem find?_zoneNumbers_eq_some {f : Nat → Bool} {z : Nat} :
    zoneNumbers.find? f = some z ↔ f z = true ∧ (1 ≤ z ∧ z ≤ 31) ∧ ∀ z', 1 ≤ z' → z' < z → f z' = false := by
  rw [zoneNumbers_eq, List.find?_range'_eq_some, List.mem_range'_1]
  simp only [Bool.not_eq_true', Nat.lt_succ_iff]

theorem find?_zoneNumbers_eq_none {f : Nat → Bool} :
    zoneNumbers.find? f = none ↔ ∀ z, 1 ≤ z → z ≤ 31 → f z = false := by
  simp only [List.find?_eq_none, mem_zoneNumbers, and_imp, Bool.not_eq_true]

/-! ## The holding zone of a bit (R40) -/

theorem State.findZone_ne_nothing_iff (s : State) (f : ZoneRecord → Bool) :
    s.findZone f ≠ .nothing ↔ ∃ z r, 1 ≤ z ∧ z ≤ 31 ∧ s.zone z = some r ∧ f r = true := by
  unfold State.findZone
  constructor
  · intro h
    split at h
    · rename_i z hz
      obtain ⟨hf, ⟨hlow, hhigh⟩, -⟩ := find?_zoneNumbers_eq_some.1 hz
      split at hf
      · exact ⟨z, _, hlow, hhigh, ‹_›, hf⟩
      · nomatch hf
    · exact absurd rfl h
  · rintro ⟨z, r, hlow, hhigh, hr, hf⟩
    split
    · nofun
    · rename_i hnone
      have hz := find?_zoneNumbers_eq_none.1 hnone z hlow hhigh
      rw [hr] at hz
      exact Bool.noConfusion (hf.symm.trans hz)

/-- R40: the bit lies in the system zone or in a defined zone. -/
def State.holdsBit (s : State) (i : Nat) : Prop := i < 128 ∨ ∃ z r, 1 ≤ z ∧ z ≤ 31 ∧ s.zone z = some r ∧ r.hasBit i = true

theorem State.bitHolder_ne_nothing_iff (s : State) (i : Nat) : s.bitHolder i ≠ .nothing ↔ s.holdsBit i := by
  unfold State.bitHolder State.holdsBit
  by_cases hi : i < 128
  · rw [if_pos (show i < Config.systemBits from hi)]
    simp [hi]
  · rw [if_neg (show ¬ i < Config.systemBits from hi), State.findZone_ne_nothing_iff]
    simp [hi]

theorem State.holdsBit_congr {s t : State} (h : ∀ z, t.zone z = s.zone z) (i : Nat) : t.holdsBit i ↔ s.holdsBit i := by
  simp only [State.holdsBit, h]

/-! ## The number (R48 check 7) -/

/-- R48 check 7: the number that a definition of number `n` takes. -/
def State.takesNumber (s : State) (n z : Nat) : Prop :=
  1 ≤ z ∧ z ≤ 31 ∧ s.zone z = none ∧ (z = n ∨ (n = 0 ∧ ∀ z', 1 ≤ z' → z' < z → s.zone z' ≠ none))

theorem State.freeZone_eq_some_iff (s : State) {n : Nat} (hn : n ≤ 31) (z : Nat) :
    s.freeZone n = some z ↔ s.takesNumber n z := by
  unfold State.freeZone State.takesNumber
  by_cases hzero : n = 0
  · subst hzero
    simp only [if_true, find?_zoneNumbers_eq_some, Option.isNone_iff_eq_none, Option.isNone_eq_false_iff,
      Option.isSome_iff_ne_none]
    constructor
    · rintro ⟨hnone, ⟨hlow, hhigh⟩, hleast⟩
      exact ⟨hlow, hhigh, hnone, .inr ⟨trivial, hleast⟩⟩
    · rintro ⟨hlow, hhigh, hnone, rfl | ⟨-, hleast⟩⟩
      · omega
      · exact ⟨hnone, ⟨hlow, hhigh⟩, hleast⟩
  · rw [if_neg hzero]
    cases hz : s.zone n with
    | none =>
      simp only [Option.isNone_none, if_true, Option.some.injEq]
      constructor
      · rintro rfl
        exact ⟨by omega, hn, hz, .inl rfl⟩
      · rintro ⟨-, -, -, rfl | ⟨h0, -⟩⟩
        · rfl
        · exact absurd h0 hzero
    | some r =>
      simp only [Option.isNone_some, Bool.false_eq_true, if_false, reduceCtorEq, false_iff]
      rintro ⟨-, -, hnone, rfl | ⟨h0, -⟩⟩
      · rw [hz] at hnone
        nomatch hnone
      · exact hzero h0

theorem State.freeZone_eq_none {s : State} {n : Nat} (hn : n ≤ 31) (h : ∀ z, ¬ s.takesNumber n z) : s.freeZone n = none :=
  Option.eq_none_iff_forall_ne_some.2 fun z hz => h z ((s.freeZone_eq_some_iff hn z).1 hz)

theorem State.freeZone_qualify (s : State) (p : Port) (session : Half) (n : Nat) :
    (s.qualify p session).freeZone n = s.freeZone n := by
  simp only [State.freeZone, State.qualify_zone]

/-! ## The overlap (R48 check 8) -/

theorem ZoneRecord.overlaps_iff (r : ZoneRecord) (bf bc wf wc : Nat) : r.overlaps bf bc wf wc = true ↔
    (0 < bc ∧ 0 < r.bitCount ∧ bf < r.bitFirst + r.bitCount ∧ r.bitFirst < bf + bc) ∨
      (0 < wc ∧ 0 < r.wordCount ∧ wf < r.wordFirst + r.wordCount ∧ r.wordFirst < wf + wc) := by
  simp only [ZoneRecord.overlaps, rangesMeet, Bool.or_eq_true, decide_eq_true_eq]

theorem State.overlapping_qualify (s : State) (p : Port) (n : Half) (bf bc wf wc : Nat) :
    (s.qualify p n).overlapping bf bc wf wc = s.overlapping bf bc wf wc := by
  simp only [State.overlapping, State.qualify_zone]

theorem State.overlapping_eq_some {s : State} {bf bc wf wc z : Nat} {r : ZoneRecord} (hlow : 1 ≤ z) (hhigh : z ≤ 31)
    (hr : s.zone z = some r) (hover : r.overlaps bf bc wf wc = true)
    (hleast : ∀ z' r', 1 ≤ z' → z' < z → s.zone z' = some r' → ¬ r'.overlaps bf bc wf wc = true) :
    s.overlapping bf bc wf wc = some z := by
  refine find?_zoneNumbers_eq_some.2 ⟨by rw [hr]; exact hover, ⟨hlow, hhigh⟩, fun z' hlow' hlt => ?_⟩
  cases hz' : s.zone z' with
  | none => rfl
  | some r' => exact Bool.eq_false_iff.2 (hleast z' r' hlow' hlt hz')

theorem State.overlapping_eq_none {s : State} {bf bc wf wc : Nat}
    (h : ∀ z r, 1 ≤ z → z ≤ 31 → s.zone z = some r → ¬ r.overlaps bf bc wf wc = true) : s.overlapping bf bc wf wc = none := by
  refine find?_zoneNumbers_eq_none.2 fun z hlow hhigh => ?_
  cases hz : s.zone z with
  | none => rfl
  | some r => exact Bool.eq_false_iff.2 (h z r hlow hhigh hz)

/-! ## A zone added (R44, R49, R80) -/

section
variable {s : State} {z : Nat} {r : ZoneRecord} (hlow : 1 ≤ z) (hhigh : z ≤ 31) (hnone : s.zone z = none)
include hlow hhigh hnone

theorem State.definedZones_length_added :
    (s.setZone z (some r)).definedZones.length = s.definedZones.length + 1 := by
  have hperm : (s.setZone z (some r)).definedZones.Perm (z :: s.definedZones) := by
    refine (List.perm_ext_iff_of_nodup (nodup_zoneNumbers.filter _) (List.nodup_cons.2 ⟨?_, nodup_zoneNumbers.filter _⟩)).2
      fun i => ?_
    · simp [hnone]
    · by_cases hi : i = z
      · subst hi
        simp [mem_zoneNumbers, hlow, hhigh]
      · simp [State.zone_setZone, hi]
  exact hperm.length_eq

theorem State.definedCount_added : s.definedCount ≠ (s.setZone z (some r)).definedCount := by
  have hbound : s.definedZones.length ≤ 31 := (List.length_filter_le _ _).trans (by decide)
  have hlength := State.definedZones_length_added (r := r) hlow hhigh hnone
  intro heq
  have hnat := congrArg BitVec.toNat heq
  rw [State.definedCount, State.definedCount, hlength, natHalf, natHalf, BitVec.toNat_ofNat, BitVec.toNat_ofNat] at hnat
  omega

/-- R44: a new zone is neither ORPHANED nor in HANDOVER. -/
theorem zonePoints_added {owner : SessionRef} (hstatus : r.status = .owned owner) :
    zonePoints s (s.setZone z (some r)) = ⟨[], [(59, (s.setZone z (some r)).definedCount)]⟩ := by
  have horphan : ∀ i, orphanBit (s.zone i) = orphanBit ((s.setZone z (some r)).zone i) := fun i => by
    rw [State.zone_setZone]
    split
    · subst_vars
      rw [hnone]
      simp [orphanBit, ZoneRecord.isOrphaned, hstatus]
    · rfl
  have hhandover : ∀ i, handoverBit (s.zone i) = handoverBit ((s.setZone z (some r)).zone i) := fun i => by
    rw [State.zone_setZone]
    split
    · subst_vars
      rw [hnone]
      simp [handoverBit, ZoneRecord.isHandover, hstatus]
    · rfl
  unfold zonePoints
  simp only [if_pos (horphan _), if_pos (hhandover _), if_neg (State.definedCount_added hlow hhigh hnone)]
  simp

/-- R49: an executed definition writes word 59 and no bit. -/
theorem State.defineZone_eq {owner : SessionRef} (hstatus : r.status = .owned owner) (definer : Port) :
    s.defineZone z r definer =
      ((s.setZone z (some r)).timersDefined.store ⟨[], [(59, (s.setZone z (some r)).definedCount)]⟩).raise .zone (.zone z)
        definer := by
  have hpoints : zonePoints s (s.setZone z (some r)).timersDefined = ⟨[], [(59, (s.setZone z (some r)).definedCount)]⟩ :=
    zonePoints_added hlow hhigh hnone hstatus
  unfold State.defineZone
  dsimp only
  rw [hpoints, State.writeSystem_no_edges]
  exact fun i => State.bit_store_ne _ _ i fun b hb => nomatch hb

end

/-! ## The timers (R131) -/

theorem State.timersDefined_zone (s : State) (z : Nat) : s.timersDefined.zone z = s.zone z := rfl

theorem State.timerDefined_iff (s : State) (a : Armed) :
    s.timerDefined a = true ↔ s.holdsBit a.source ∧ ∀ b, a.resetBit = some b → s.holdsBit b := by
  simp only [State.timerDefined, Bool.and_eq_true, bne_iff_ne, State.bitHolder_ne_nothing_iff, Option.all_eq_true]

theorem State.timersDefined_timer_of_held {s : State} {k : Nat} {a : Armed} (ha : s.timer k = some a)
    (hsource : s.holdsBit a.source) (hreset : ∀ b, a.resetBit = some b → s.holdsBit b) :
    s.timersDefined.timer k = some { a with sourceUndefined := false } := by
  rw [State.timersDefined, State.timer_mapTimers, ha, Option.map_some, if_pos ((s.timerDefined_iff a).2 ⟨hsource, hreset⟩)]

theorem State.timersDefined_timer_of_not_held {s : State} {k : Nat} {a : Armed} (ha : s.timer k = some a)
    (h : ¬ s.holdsBit a.source ∨ ∃ b, a.resetBit = some b ∧ ¬ s.holdsBit b) : s.timersDefined.timer k = some a := by
  rw [State.timersDefined, State.timer_mapTimers, ha, Option.map_some, if_neg]
  rw [State.timerDefined_iff]
  rintro ⟨hsource, hreset⟩
  rcases h with h | ⟨b, hb, h⟩
  · exact h hsource
  · exact h (hreset b hb)

/-! ## The definer's record (R49) -/

theorem State.zones_qualify (s : State) (p : Port) (n : Half) (q : Port) :
    ((s.qualify p n).attention.get q).map AttentionRecord.zones = (s.attention.get q).map AttentionRecord.zones := by
  have hlate : ∀ r : PortRecord, ((((s.setPort p r).writeMonitor p).raisePeer p).attention.get q).map AttentionRecord.zones =
      (s.attention.get q).map AttentionRecord.zones := by
    intro r
    have hwritten := congrArg (Option.map fun d : CauseSet × Byte × Half × Half × Half × BitVec 32 × PortSet => d.2.2.2.2.2.1)
      (State.writeSystem_details (s.setPort p r) (monitorPoints p ((s.setPort p r).ports.get p)) q)
    rw [Option.map_map, Option.map_map] at hwritten
    rw [State.attention_raisePeer]
    split
    · exact hwritten
    · rw [Option.map_map]
      exact hwritten
  unfold State.qualify
  split
  · split <;> rfl
  · split
    · exact hlate _
    · rfl
  · rfl
  · rfl

theorem CauseSet.or_zone_and_zone : ∀ x : CauseSet, (x ||| 8) &&& 8 = 8 := by decide +kernel

theorem AttentionRecord.pendingZone_raise (r : AttentionRecord) (z : Nat) :
    (r.raise .zone (.zone z)).pending &&& 8 = 8 := by
  rw [AttentionRecord.pending_raise]
  exact CauseSet.or_zone_and_zone _

theorem AttentionRecord.zones_raise_zone (r : AttentionRecord) (z : Nat) :
    (r.raise .zone (.zone z)).zones = r.zones ||| (1#32 <<< z) := rfl

/-! ## The checks (R41, R48) -/

theorem portSetOf_of_le {b : Byte} (h : b.toNat ≤ 15) : portSetOf b = some (b.setWidth 4) := by
  rw [portSetOf, if_pos ((portBits_iff b).2 h), BitVec.setWidth_eq_extractLsb' (by decide)]

/-- R48: the body of a DEFINE_ZONE. -/
abbrev defineBody (n : Byte) (firstBit bits firstWord words : Half) (rightsByte : Byte) : List Byte :=
  [n] ++ halfBytes firstBit ++ halfBytes bits ++ halfBytes firstWord ++ halfBytes words ++ [rightsByte]

theorem serveDefineZone_of_length (who : SessionRef) {body : List Byte} (h : body.length ≠ 10) (s : State) :
    serveDefineZone who body s = (s, .refuse .badRequest 0) := by
  unfold serveDefineZone
  split
  · exact absurd rfl h
  · rfl

section
variable {who : SessionRef} {n rightsByte : Byte} {firstBit bits firstWord words : Half} {s : State}

theorem serveDefineZone_of_rights (h : 15 < rightsByte.toNat) :
    serveDefineZone who (defineBody n firstBit bits firstWord words rightsByte) s = (s, .refuse .badRequest 1) := by
  simp only [serveDefineZone, defineBody, halfBytes, List.cons_append, List.nil_append, portSetOf_of_gt h]

variable (hrights : rightsByte.toNat ≤ 15)
include hrights

theorem serveDefineZone_of_empty (h : bits.toNat = 0 ∧ words.toNat = 0) :
    serveDefineZone who (defineBody n firstBit bits firstWord words rightsByte) s = (s, .refuse .badRequest 2) := by
  simp only [serveDefineZone, defineBody, halfBytes, List.cons_append, List.nil_append, half_halfBytes,
    portSetOf_of_le hrights, if_pos h]

variable (hsome : ¬ (bits.toNat = 0 ∧ words.toNat = 0))
include hsome

theorem serveDefineZone_of_number (h : Config.zoneCount < n.toNat) :
    serveDefineZone who (defineBody n firstBit bits firstWord words rightsByte) s = (s, .refuse .range 1) := by
  simp only [serveDefineZone, defineBody, halfBytes, List.cons_append, List.nil_append, half_halfBytes,
    portSetOf_of_le hrights, if_neg hsome, if_pos h]

variable (hnumber : ¬ Config.zoneCount < n.toNat)
include hnumber

theorem serveDefineZone_of_bits (h : bitRangeMeets firstBit.toNat bits.toNat = false) :
    serveDefineZone who (defineBody n firstBit bits firstWord words rightsByte) s = (s, .refuse .range 2) := by
  simp only [serveDefineZone, defineBody, halfBytes, List.cons_append, List.nil_append, half_halfBytes,
    portSetOf_of_le hrights, if_neg hsome, if_neg hnumber, h, Bool.not_false, if_true]

variable (hbits : bitRangeMeets firstBit.toNat bits.toNat = true)
include hbits

theorem serveDefineZone_of_words (h : wordRangeMeets firstWord.toNat words.toNat = false) :
    serveDefineZone who (defineBody n firstBit bits firstWord words rightsByte) s = (s, .refuse .range 3) := by
  simp only [serveDefineZone, defineBody, halfBytes, List.cons_append, List.nil_append, half_halfBytes,
    portSetOf_of_le hrights, if_neg hsome, if_neg hnumber, hbits, h, Bool.not_false, Bool.not_true, Bool.false_eq_true, if_true,
    if_false]

variable (hwords : wordRangeMeets firstWord.toNat words.toNat = true)
include hwords

theorem serveDefineZone_of_full (h : s.freeZone n.toNat = none) :
    serveDefineZone who (defineBody n firstBit bits firstWord words rightsByte) s = (s, .refuse .tableFull n.toNat) := by
  simp only [serveDefineZone, defineBody, halfBytes, List.cons_append, List.nil_append, half_halfBytes,
    portSetOf_of_le hrights, if_neg hsome, if_neg hnumber, hbits, hwords, h, Bool.not_true, Bool.false_eq_true, if_false]

variable {z : Nat} (hz : s.freeZone n.toNat = some z)
include hz

theorem serveDefineZone_of_overlap {other : Nat}
    (h : s.overlapping firstBit.toNat bits.toNat firstWord.toNat words.toNat = some other) :
    serveDefineZone who (defineBody n firstBit bits firstWord words rightsByte) s = (s, .refuse .overlap other) := by
  simp only [serveDefineZone, defineBody, halfBytes, List.cons_append, List.nil_append, half_halfBytes,
    portSetOf_of_le hrights, if_neg hsome, if_neg hnumber, hbits, hwords, hz, h, Bool.not_true, Bool.false_eq_true, if_false]

theorem serveDefineZone_of_apart (h : s.overlapping firstBit.toNat bits.toNat firstWord.toNat words.toNat = none) :
    serveDefineZone who (defineBody n firstBit bits firstWord words rightsByte) s =
      (s.defineZone z (.define who firstBit.toNat bits.toNat firstWord.toNat words.toNat (rightsByte.setWidth 4) s.clock s.epoch)
        who.port, .done z []) := by
  simp only [serveDefineZone, defineBody, halfBytes, List.cons_append, List.nil_append, half_halfBytes,
    portSetOf_of_le hrights, if_neg hsome, if_neg hnumber, hbits, hwords, hz, h, Bool.not_true, Bool.false_eq_true, if_false]

end

/-- Settles O23: each check on the qualified state, whose zones are those of the state before. -/
theorem defineZoneFillsTheRecord : Obligations.DefineZoneFillsTheRecord := by
  intro s p m tag serves refusedWith
  have refuses : ∀ {body : List Byte} {o : ReplyOutcome} {detail : Nat},
      serveDefineZone (m.on p) body (s.qualify p m.number) = (s.qualify p m.number, .refuse o detail) →
      refusedWith body o detail :=
    fun h => exec_of_refusal serves .defineZone tag _ (serveDefineZone · _) rfl _ _ h
  refine ⟨fun body hlength => refuses (serveDefineZone_of_length _ hlength _),
    fun n rightsByte firstBit bits firstWord words => ?_⟩
  intro body bitFirst bitCount wordFirst wordCount bitsFit wordsFit meets chosen
  refine ⟨fun h => refuses (serveDefineZone_of_rights h), fun hrights => ⟨fun hb hw =>
    refuses (serveDefineZone_of_empty hrights ⟨hb, hw⟩), fun hor => ?_⟩⟩
  have hsome : ¬ (bits.toNat = 0 ∧ words.toNat = 0) := by
    rintro ⟨hb, hw⟩
    rcases hor with h | h
    · exact h hb
    · exact h hw
  refine ⟨fun h => refuses (serveDefineZone_of_number hrights hsome h), fun hn => ?_⟩
  have hnumber : ¬ Config.zoneCount < n.toNat := Nat.not_lt_of_le hn
  refine ⟨fun h => refuses (serveDefineZone_of_bits hrights hsome hnumber (decide_eq_false h)), fun h => ?_⟩
  have hbits : bitRangeMeets firstBit.toNat bits.toNat = true := decide_eq_true h
  refine ⟨fun h => refuses (serveDefineZone_of_words hrights hsome hnumber hbits (decide_eq_false h)), fun h => ?_⟩
  have hwords : wordRangeMeets firstWord.toNat words.toNat = true := decide_eq_true h
  have hmeets : ∀ r : ZoneRecord, r.overlaps bitFirst bitCount wordFirst wordCount = true ↔ meets r :=
    fun r => r.overlaps_iff _ _ _ _
  refine ⟨fun hfull => refuses (serveDefineZone_of_full hrights hsome hnumber hbits hwords ?_), fun z hchosen => ?_⟩
  · rw [State.freeZone_qualify]
    exact State.freeZone_eq_none hn hfull
  have hz : (s.qualify p m.number).freeZone n.toNat = some z := by
    rw [State.freeZone_qualify]
    exact (s.freeZone_eq_some_iff hn z).2 hchosen
  refine ⟨fun z' r' hlow hhigh hr hmeet hleast => ?_, fun hapart => ?_⟩
  · refine refuses (serveDefineZone_of_overlap hrights hsome hnumber hbits hwords hz ?_)
    rw [State.overlapping_qualify]
    exact State.overlapping_eq_some hlow hhigh hr ((hmeets r').2 hmeet) fun z'' r'' hl hlt hr'' hover =>
      hleast z'' r'' hl hlt hr'' ((hmeets r'').1 hover)
  have hserve := serveDefineZone_of_apart (who := m.on p) (firstBit := firstBit) hrights hsome hnumber hbits hwords hz (by
    rw [State.overlapping_qualify]
    exact State.overlapping_eq_none fun z' r' hl hh hr' hover => hapart z' r' hl hh hr' ((hmeets r').1 hover))
  obtain ⟨hlow, hhigh, hnone, -⟩ := hchosen
  have hundefined : (s.qualify p m.number).zone z = none := by rw [State.qualify_zone, hnone]
  rw [State.defineZone_eq hlow hhigh hundefined rfl] at hserve
  refine ⟨_, exec_of_answer serves .defineZone tag body (serveDefineZone · body) rfl _ _ hserve ?_, ?_, ?_, ?_, ?_, ?_, ?_, ?_, ?_⟩
  · rw [State.raise_ports]
    rfl
  · rw [State.replied_zone, State.raise_zone, State.store_zone]
    rw [State.timersDefined_zone, State.zone_setZone_same]
    rw [State.qualify_clock, State.qualify_epoch]
    rfl
  · intro z' hz'
    rw [State.replied_zone, State.raise_zone, State.store_zone]
    rw [State.timersDefined_zone, State.zone_setZone, if_neg hz', State.qualify_zone]
  · rw [State.replied_word, State.raise_word, State.word_store]
    simp only [State.definedZones, State.replied_zone, State.raise_zone, State.store_zone]
    rfl
  · rw [State.replied_attention, State.attention_raise, if_pos rfl, Option.map_map]
    simp only [Function.comp_def, AttentionRecord.pendingZone_raise, AttentionRecord.zones_raise_zone]
    have hzones := congrArg (Option.map fun x : BitVec 32 => ((8 : CauseSet), x ||| (1#32 <<< z))) (s.zones_qualify p m.number p)
    rw [Option.map_map, Option.map_map] at hzones
    exact hzones
  · intro i hi
    rw [State.replied_bit, State.raise_bit, State.bit_store_ne _ _ i fun b hb => (List.not_mem_nil hb).elim]
    exact s.qualify_bit_definable p m.number hi
  · intro i hi
    rw [State.replied_word, State.raise_word, State.word_store_ne _ _ i fun w hw => by
      rw [List.mem_singleton.1 hw]
      omega]
    exact s.qualify_word_definable p m.number hi
  · intro k a ha held
    rw [State.replied_timer, State.raise_timer, State.store_timer]
    have hheld : ∀ b, held b ↔ ((s.qualify p m.number).setZone z _).holdsBit b := State.holdsBit_congr fun z' => by
      rw [State.replied_zone, State.raise_zone, State.store_zone, State.timersDefined_zone]
    refine ⟨fun hsource hreset => State.timersDefined_timer_of_held ha ((hheld _).1 hsource) fun b hb =>
        (hheld b).1 (hreset b hb), fun h => State.timersDefined_timer_of_not_held ha ?_⟩
    exact h.imp (mt (hheld _).2) fun ⟨b, hb, hfree⟩ => ⟨b, hb, mt (hheld b).2 hfree⟩
  · rw [State.replied_link]
    rfl

end Sys2Proof.Machine
end

section
/-! RETIRE_ZONE (R55, R56, R131, R165). -/

namespace Sys2Proof.Machine

/-! ## A record's watches (R163, R165) -/

/-- The zone and the kind of a slot's watch. -/
def AttentionRecord.names (r : AttentionRecord) (k : Nat) : Option (Nat × WatchKind) := (r.slot k).map fun w => (w.zone, w.kind)

/-- R163: `b` is `a` with watches fired: the same watches and the same GONE set, and WATCH pending where it was. -/
structure AttentionRecord.Fired (a b : AttentionRecord) : Prop where
  names : ∀ k, b.names k = a.names k
  gone : b.gone = a.gone
  pending : a.pending.getLsbD 1 = true → b.pending.getLsbD 1 = true
  canonical : Memory.wf none a.slots → Memory.wf none b.slots

namespace AttentionRecord.Fired

theorem refl (a : AttentionRecord) : a.Fired a := ⟨fun _ => rfl, rfl, id, id⟩

theorem trans {a b c : AttentionRecord} (h : a.Fired b) (h' : b.Fired c) : a.Fired c :=
  ⟨fun k => (h'.names k).trans (h.names k), h'.gone.trans h.gone, h'.pending ∘ h.pending, h'.canonical ∘ h.canonical⟩

theorem fireWhere (f : Watch → Bool) (a : AttentionRecord) : a.Fired (a.fireWhere f) where
  names k := by
    rw [AttentionRecord.names, AttentionRecord.names, AttentionRecord.slot_fireWhere, Option.map_map]
    refine congrArg (Option.map · (a.slot k)) (funext fun w => ?_)
    obtain ⟨hkind, hzone⟩ := w.fire_names
    simp only [Function.comp]
    split
    · rw [hkind, hzone]
    · rfl
  gone := by
    have h := a.details_fireWhere f
    exact congrArg (fun d : CauseSet × Byte × Half × Half × Half × BitVec 32 × PortSet => d.2.1) h
  pending := a.watchPending_fireWhere f
  canonical := AttentionRecord.slots_fireWhere f

theorem raise_peer (a : AttentionRecord) (p : Port) : a.Fired (a.raise .peer (.port p)) where
  names _ := rfl
  gone := rfl
  pending h := by rw [AttentionRecord.pending_raise]; simp [h]
  canonical := id

end AttentionRecord.Fired

/-- Every record of the second state is that of the first with watches fired. -/
def State.fires (s t : State) : Prop := ∀ q, Option.Rel AttentionRecord.Fired (s.attention.get q) (t.attention.get q)

theorem State.fires_refl (s : State) : s.fires s := fun q => by
  cases s.attention.get q with
  | none => exact .none
  | some a => exact .some (.refl a)

theorem State.fires_map {s t : State} (h : s.fires t) {f : AttentionRecord → AttentionRecord}
    (hf : ∀ a : AttentionRecord, a.Fired (f a)) (q : Port) :
    Option.Rel AttentionRecord.Fired (s.attention.get q) ((t.attention.get q).map f) := by
  have hq := h q
  revert hq
  cases s.attention.get q <;> cases t.attention.get q <;> intro hq
  · exact .none
  · nomatch hq
  · nomatch hq
  · cases hq with
    | some hab => exact .some (hab.trans (hf _))

theorem State.fires_writes (s : State) : KeptByWrites s.fires where
  store _ _ h := h
  systemZone _ _ h := h
  count t z h := by
    unfold State.countZone
    split <;> exact h
  fire t n h q := by
    rw [State.attention_fireChange]
    exact State.fires_map h (.fireWhere _) q
  run _ _ h := h

theorem State.fires_qualify (s : State) (p : Port) (n : Half) : s.fires (s.qualify p n) := by
  unfold State.qualify
  split
  case h_1 => split <;> exact s.fires_refl
  case h_2 m _ =>
    split
    · intro q
      have hwritten : s.fires ((s.setPort p (.online { m with deadline := monitorDeadline s.clock m.monitorTime })).writeMonitor p) :=
        s.fires_writes.writeSystem _ _ s.fires_refl
      rw [State.attention_raisePeer]
      split
      · exact hwritten q
      · exact State.fires_map hwritten (fun a => .raise_peer a p) q
    · exact s.fires_refl
  all_goals exact s.fires_refl

/-! ## The watches of a retired zone (R165) -/

theorem AttentionRecord.slot_slotGone (r : AttentionRecord) (k j : Nat) :
    (r.slotGone k).slot j = if j = k then none else r.slot j := by
  rw [AttentionRecord.slotGone, AttentionRecord.slot_raise]
  exact Memory.read_write none r.slots k j none

theorem AttentionRecord.gone_slotGone (r : AttentionRecord) (k j : Nat) (hj : j < 8) :
    (r.slotGone k).gone.getLsbD j = (r.gone.getLsbD j || decide (j = k)) := by
  show (r.gone ||| (1#8 <<< k)).getLsbD j = _
  rw [BitVec.getLsbD_or, BitVec.getLsbD_shiftLeft, BitVec.getLsbD_one]
  congr 1
  rw [Bool.eq_iff_iff]
  simp
  omega

theorem AttentionRecord.pending_slotGone (r : AttentionRecord) (k : Nat) : (r.slotGone k).pending.getLsbD 1 = true := by
  rw [AttentionRecord.slotGone, AttentionRecord.pending_raise]
  simp [Cause.bit]

theorem AttentionRecord.slot_slotsGone (ks : List Nat) (r : AttentionRecord) (j : Nat) :
    (ks.foldl AttentionRecord.slotGone r).slot j = if j ∈ ks then none else r.slot j := by
  induction ks generalizing r with
  | nil => rfl
  | cons k rest ih =>
    rw [List.foldl_cons, ih, AttentionRecord.slot_slotGone]
    by_cases hrest : j ∈ rest <;> by_cases hk : j = k <;> simp [hrest, hk]

theorem AttentionRecord.gone_slotsGone (ks : List Nat) (r : AttentionRecord) (j : Nat) (hj : j < 8) :
    (ks.foldl AttentionRecord.slotGone r).gone.getLsbD j = (r.gone.getLsbD j || decide (j ∈ ks)) := by
  induction ks generalizing r with
  | nil => simp
  | cons k rest ih =>
    rw [List.foldl_cons, ih, AttentionRecord.gone_slotGone r k j hj, Bool.or_assoc, ← Bool.decide_or]
    simp only [List.mem_cons]

theorem AttentionRecord.pending_slotsGone (ks : List Nat) (r : AttentionRecord) (hks : ks ≠ []) :
    (ks.foldl AttentionRecord.slotGone r).pending.getLsbD 1 = true := by
  obtain ⟨k, rest, rfl⟩ := List.exists_cons_of_ne_nil hks
  exact List.foldlRecOn (motive := fun b : AttentionRecord => b.pending.getLsbD 1 = true) rest AttentionRecord.slotGone
    (r.pending_slotGone k) fun b _ j _ => b.pending_slotGone j

theorem AttentionRecord.mem_watching {r : AttentionRecord} {k z : Nat} {w : Watch} (hk : r.slot k = some w) (hz : w.zone = z) :
    k ∈ r.watching z :=
  List.mem_map.2 ⟨(k, some w), List.mem_filter.2 ⟨Memory.mem_of_read _ _ _ hk, by simp [hz]⟩, rfl⟩

theorem AttentionRecord.of_mem_watching {r : AttentionRecord} (hr : Memory.wf none r.slots) {k z : Nat} (hk : k ∈ r.watching z) :
    ∃ w, r.slot k = some w ∧ w.zone = z := by
  obtain ⟨e, he, rfl⟩ := List.mem_map.1 hk
  obtain ⟨he, hz⟩ := List.mem_filter.1 he
  obtain ⟨w, hw, hz⟩ := (Option.any_eq_true _ _).1 hz
  exact ⟨w, (Memory.read_of_mem none _ hr.1 e he).trans hw, by simpa using hz⟩

/-! ## A clearing and a system-zone write in a free order (entry 5) -/

section
variable (s : State) {c w : Points} (hc : c.definable) (hw : w.inSystem)

/-- R56: the write events of a retirement. -/
def clearingBlocks (c w : Points) : List (List Action) := [[.clearing c], systemAction w]

theorem mem_clearingBlocks {a : Action} (ha : a ∈ (clearingBlocks c w).flatten) : a = .clearing c ∨ a = .system w := by
  rw [clearingBlocks, List.flatten_cons, List.flatten_cons, List.flatten_nil, List.append_nil, List.mem_append,
    List.mem_singleton] at ha
  exact ha.imp_right (mem_systemAction w a)

theorem systemAction_mem_clearingBlocks {a : Action} (ha : a ∈ systemAction w) : a ∈ (clearingBlocks c w).flatten := by
  simp [clearingBlocks, ha]

theorem clearing_mem_clearingBlocks : .clearing c ∈ (clearingBlocks c w).flatten := by simp [clearingBlocks]

theorem State.zone_clearingBlocks (z : Nat) : (s.actFreely (clearingBlocks c w)).zone z = s.zone z := by
  refine State.actFreely_keeps (fun t => t.zone z = s.zone z) s _ (fun _ => rfl) fun a ha t ht => ?_
  rcases mem_clearingBlocks ha with rfl | rfl
  · exact (State.writeClearing_zone t c z).trans ht
  · exact (State.writeSystem_zone t w z).trans ht

theorem State.settings_clearingBlocks (k : Nat) :
    ((s.actFreely (clearingBlocks c w)).timer k).map Armed.settings = (s.timer k).map Armed.settings := by
  refine State.actFreely_keeps (fun t => (t.timer k).map Armed.settings = (s.timer k).map Armed.settings) s _ (fun _ => rfl)
    fun a ha t ht => ?_
  rcases mem_clearingBlocks ha with rfl | rfl
  · exact (State.deliver_settings _ (t.store c) _ k).trans ht
  · exact (State.writeSystem_settings t w k).trans ht

theorem State.fires_clearingBlocks : s.fires (s.actFreely (clearingBlocks c w)) := by
  refine State.actFreely_keeps s.fires s _ (fun _ => s.fires_refl) fun a ha t ht => ?_
  rcases mem_clearingBlocks ha with rfl | rfl
  · exact s.fires_writes.writeClearing t c ht
  · exact s.fires_writes.writeSystem t w ht

include hw

theorem State.bit_clearingBlocks_definable {i : Nat} (hi : 128 ≤ i) :
    (s.actFreely (clearingBlocks c w)).bit i = (s.store c).bit i := by
  have hclear : ∀ t : State, (t.act (.clearing c)).bit i =
      ((c.bits.reverse.find? fun b => b.1 == i).map Prod.snd).getD (t.bit i) := fun t =>
    (State.writeClearing_bit t c i (by omega)).trans (State.bit_store t c i)
  rw [State.bit_store]
  refine State.actFreely_observed (fun t => t.bit i) (fun _ => True) _ (fun x => ?_) _ s _ (fun _ => trivial) (fun _ => rfl)
    (fun a ha t _ => ⟨trivial, ?_⟩) (.inr ⟨_, clearing_mem_clearingBlocks, fun t _ => hclear t⟩)
  · cases (c.bits.reverse.find? fun b => b.1 == i).map Prod.snd <;> rfl
  · rcases mem_clearingBlocks ha with rfl | rfl
    · exact .inr (hclear t)
    · refine .inl ((State.writeSystem_bit t w i (by omega)).trans (State.bit_store_ne t w i fun b hb => ?_))
      have := hw.1 b hb
      omega

theorem State.word_clearingBlocks_definable {i : Nat} (hi : 96 ≤ i) :
    (s.actFreely (clearingBlocks c w)).word i = (s.store c).word i := by
  have hclear : ∀ t : State, (t.act (.clearing c)).word i =
      ((c.words.reverse.find? fun b => b.1 == i).map Prod.snd).getD (t.word i) := fun t =>
    (State.writeClearing_word t c i (by omega)).trans (State.word_store t c i)
  rw [State.word_store]
  refine State.actFreely_observed (fun t => t.word i) (fun _ => True) _ (fun x => ?_) _ s _ (fun _ => trivial) (fun _ => rfl)
    (fun a ha t _ => ⟨trivial, ?_⟩) (.inr ⟨_, clearing_mem_clearingBlocks, fun t _ => hclear t⟩)
  · cases (c.words.reverse.find? fun b => b.1 == i).map Prod.snd <;> rfl
  · rcases mem_clearingBlocks ha with rfl | rfl
    · exact .inr (hclear t)
    · refine .inl ((State.writeSystem_word t w i (by omega)).trans (State.word_store_ne t w i fun b hb => ?_))
      have := hw.2 b hb
      omega

omit hw
include hc

theorem State.bit_clearingBlocks_system {i : Nat} (hlow : 32 ≤ i) (hhigh : i < 128) :
    (s.actFreely (clearingBlocks c w)).bit i = (s.store w).bit i := by
  refine State.actFreely_bit (fun _ => True) s _ w i hlow (fun _ => trivial) (fun _ => systemAction_mem_clearingBlocks)
    fun a ha t _ => ⟨trivial, ?_⟩
  rcases mem_clearingBlocks ha with rfl | rfl
  · refine .inr ((State.writeClearing_bit t c i hlow).trans (State.bit_store_ne t c i fun b hb => ?_))
    have := hc.1 b hb
    omega
  · exact .inl rfl

theorem State.word_clearingBlocks_system {i : Nat} (hlow : 32 ≤ i) (hhigh : i < 96) :
    (s.actFreely (clearingBlocks c w)).word i = (s.store w).word i := by
  refine State.actFreely_word (fun _ => True) s _ w i hlow (fun _ => trivial) (fun _ => systemAction_mem_clearingBlocks)
    fun a ha t _ => ⟨trivial, ?_⟩
  rcases mem_clearingBlocks ha with rfl | rfl
  · refine .inr ((State.writeClearing_word t c i hlow).trans (State.word_store_ne t c i fun b hb => ?_))
    have := hc.2 b hb
    omega
  · exact .inl rfl

end

/-! ## A zone's points at 0 (R56) -/

theorem State.bit_store_zeros (s : State) (r : ZoneRecord) (i : Nat) :
    (s.store r.zeros).bit i = if r.hasBit i then false else s.bit i := by
  split
  · rename_i h
    refine Memory.read_writeAll_of_mem false r.zeros.bits s.bits i false
      (List.mem_map.2 ⟨i, (ZoneRecord.mem_bitIndices r i).2 h, rfl⟩) fun b hb _ => ?_
    obtain ⟨j, -, rfl⟩ := List.mem_map.1 hb
    rfl
  · rename_i h
    refine State.bit_store_ne s _ i fun b hb heq => h ?_
    obtain ⟨j, hj, rfl⟩ := List.mem_map.1 hb
    exact heq ▸ (ZoneRecord.mem_bitIndices r j).1 hj

theorem State.word_store_zeros (s : State) (r : ZoneRecord) (i : Nat) :
    (s.store r.zeros).word i = if r.hasWord i then 0 else s.word i := by
  split
  · rename_i h
    refine Memory.read_writeAll_of_mem 0 r.zeros.words s.words i 0
      (List.mem_map.2 ⟨i, (ZoneRecord.mem_wordIndices r i).2 h, rfl⟩) fun b hb _ => ?_
    obtain ⟨j, -, rfl⟩ := List.mem_map.1 hb
    rfl
  · rename_i h
    refine State.word_store_ne s _ i fun b hb heq => h ?_
    obtain ⟨j, hj, rfl⟩ := List.mem_map.1 hb
    exact heq ▸ (ZoneRecord.mem_wordIndices r j).1 hj

/-! ## A zone removed (R44, R56, R80) -/

theorem ZoneRecord.isOrphaned_iff (r : ZoneRecord) : r.isOrphaned = true ↔ r.status = .orphaned := by
  unfold ZoneRecord.isOrphaned
  cases r.status <;> simp

theorem ZoneRecord.isHandover_of_ne {r : ZoneRecord} (h : ∀ d, r.status ≠ .handover d) : r.isHandover = false := by
  unfold ZoneRecord.isHandover
  split
  · exact absurd ‹_› (h _)
  · rfl

theorem State.definedZones_congr {s t : State} (h : ∀ z, t.zone z = s.zone z) : t.definedZones = s.definedZones := by
  simp only [State.definedZones, h]

section
variable {s : State} {z : Nat} {r : ZoneRecord} (hlow : 1 ≤ z) (hhigh : z ≤ 31) (hr : s.zone z = some r)
include hlow hhigh hr

theorem State.definedCount_removed : s.definedCount ≠ (s.setZone z none).definedCount := by
  have hback : s.definedCount = ((s.setZone z none).setZone z (some r)).definedCount := by
    rw [State.definedCount, State.definedCount, State.definedZones_congr fun i => ?_]
    rw [State.zone_setZone, State.zone_setZone]
    split
    · subst_vars
      exact hr
    · rfl
  rw [hback]
  exact (State.definedCount_added (r := r) hlow hhigh (State.zone_setZone_same ..)).symm

theorem zonePoints_removed (hstatus : ∀ d, r.status ≠ .handover d) : zonePoints s (s.setZone z none) =
    ⟨if r.isOrphaned then [(64 + z, false)] else [], [(59, (s.setZone z none).definedCount)]⟩ := by
  have hhandover : ∀ i, handoverBit (s.zone i) = handoverBit ((s.setZone z none).zone i) := fun i => by
    rw [State.zone_setZone]
    split
    · subst_vars
      rw [hr]
      exact ZoneRecord.isHandover_of_ne hstatus
    · rfl
  have horphan : (zoneNumbers.filterMap fun i =>
      if orphanBit (s.zone i) = orphanBit ((s.setZone z none).zone i) then none
      else some (64 + i, orphanBit ((s.setZone z none).zone i))) = if r.isOrphaned then [(64 + z, false)] else [] := by
    split
    · rename_i h
      refine filterMap_single _ _ z _ nodup_zoneNumbers ((mem_zoneNumbers z).2 ⟨hlow, hhigh⟩) ?_ fun i _ hi => ?_
      · simp [hr, orphanBit, h]
      · simp [State.zone_setZone, hi]
    · rename_i h
      refine List.filterMap_eq_nil_iff.2 fun i _ => if_pos ?_
      rw [State.zone_setZone]
      split
      · subst_vars
        simpa [hr, orphanBit] using h
      · rfl
  unfold zonePoints
  rw [horphan]
  simp only [if_pos (hhandover _), if_neg (State.definedCount_removed hlow hhigh hr)]
  simp

end

/-! ## The request (R55, R56) -/

theorem serveRetireZone_of_length (who : SessionRef) {body : List Byte} (h : body.length ≠ 1) (s : State) :
    serveRetireZone who body s = (s, .refuse .badRequest 0) := by
  unfold serveRetireZone
  split
  · exact absurd rfl h
  · rfl

theorem serveRetireZone_of_error (who : SessionRef) {s : State} {n : Byte} {a : Answer} (h : s.definedZone n = .error a) :
    serveRetireZone who [n] s = (s, a) := by
  simp only [serveRetireZone, h]

theorem serveRetireZone_of_refusal {who : SessionRef} {s : State} {n : Byte} {r : ZoneRecord} {o : ReplyOutcome}
    (hz : s.definesZone n.toNat r) (ho : r.retireRefusal who = some o) : serveRetireZone who [n] s = (s, .refuse o 0) := by
  simp only [serveRetireZone, hz.definedZone, ho]

theorem serveRetireZone_of_passed {who : SessionRef} {s : State} {n : Byte} {r : ZoneRecord}
    (hz : s.definesZone n.toNat r) (ho : r.retireRefusal who = none) :
    serveRetireZone who [n] s = (s.retireZone n.toNat r, .done 0 []) := by
  simp only [serveRetireZone, hz.definedZone, ho]

section
variable {r : ZoneRecord} {who : SessionRef}

theorem ZoneRecord.retireRefusal_of_other {owner : SessionRef} (h : r.status = .owned owner) (hne : owner ≠ who) :
    r.retireRefusal who = some .notOwner := by
  simp only [ZoneRecord.retireRefusal, h, if_neg hne]

theorem ZoneRecord.retireRefusal_of_noRight (h : r.status = .vacant ∨ r.status = .orphaned)
    (hright : portIn who.port r.rights = false) : r.retireRefusal who = some .notPermitted := by
  rcases h with h | h <;> simp only [ZoneRecord.retireRefusal, h, hright, Bool.false_eq_true, if_false]

theorem ZoneRecord.retireRefusal_of_handover {d : Clock} (h : r.status = .handover d) :
    r.retireRefusal who = some .zoneState := by
  simp only [ZoneRecord.retireRefusal, h]

theorem ZoneRecord.retireRefusal_of_allowed
    (h : r.status = .owned who ∨ ((r.status = .vacant ∨ r.status = .orphaned) ∧ portIn who.port r.rights = true)) :
    r.retireRefusal who = none := by
  rcases h with h | ⟨h | h, hright⟩
  · simp only [ZoneRecord.retireRefusal, h, if_true]
  · simp only [ZoneRecord.retireRefusal, h, hright, if_true]
  · simp only [ZoneRecord.retireRefusal, h, hright, if_true]

end

/-- R56, R131, R165: the blocks' records of an executed retirement, before its write events. -/
def State.dropZone (s : State) (z : Nat) (r : ZoneRecord) : State := ((s.setZone z none).timersRetired r).removeWatches z

theorem State.dropZone_zone (s : State) (z : Nat) (r : ZoneRecord) (i : Nat) :
    (s.dropZone z r).zone i = if i = z then none else s.zone i := by
  rw [State.dropZone, State.removeWatches_zone]
  exact State.zone_setZone s z i none

theorem State.dropZone_timer (s : State) (z : Nat) (r : ZoneRecord) (k : Nat) :
    (s.dropZone z r).timer k = (s.timer k).map fun t =>
      if r.hasBit t.source || t.resetBit.any r.hasBit then { t with sourceUndefined := true } else t := by
  rw [State.dropZone, State.removeWatches_timer, State.timersRetired, State.timer_mapTimers]
  rfl

theorem State.dropZone_attention (s : State) (z : Nat) (r : ZoneRecord) (q : Port) :
    (s.dropZone z r).attention.get q = (s.attention.get q).map (AttentionRecord.zoneGone z) := State.attention_removeWatches ..

theorem State.retireZone_eq {s : State} {z : Nat} {r : ZoneRecord} (hlow : 1 ≤ z) (hhigh : z ≤ 31) (hr : s.zone z = some r)
    (hstatus : ∀ d, r.status ≠ .handover d) :
    s.retireZone z r = (s.dropZone z r).actFreely (clearingBlocks r.zeros
      ⟨if r.isOrphaned then [(64 + z, false)] else [], [(59, (s.setZone z none).definedCount)]⟩) := by
  have hpoints : zonePoints s (s.dropZone z r) =
      ⟨if r.isOrphaned then [(64 + z, false)] else [], [(59, (s.setZone z none).definedCount)]⟩ := by
    rw [← zonePoints_removed hlow hhigh hr hstatus]
    unfold zonePoints State.definedCount State.definedZones
    simp only [State.dropZone_zone, State.zone_setZone]
  rw [← hpoints]
  rfl

/-- R56: the points that a retirement shows lie in the system zone. -/
theorem retiredPoints_inSystem {z : Nat} (hhigh : z ≤ 31) (orphaned : Bool) (count : Half) :
    (⟨if orphaned then [(64 + z, false)] else [], [(59, count)]⟩ : Points).inSystem := by
  refine ⟨fun b hb => ?_, fun w hw => ?_⟩
  · split at hb
    · rw [List.mem_singleton.1 hb]
      show 64 + z < 128
      omega
    · nomatch hb
  · rw [List.mem_singleton.1 hw]
    show 59 < 96
    decide

/-! ## The watches after an executed retirement -/

theorem AttentionRecord.Fired.of_rel {a : AttentionRecord} {o : Option AttentionRecord}
    (h : Option.Rel AttentionRecord.Fired (some a) o) : ∃ b, o = some b ∧ a.Fired b := by
  cases h with
  | some hab => exact ⟨_, rfl, hab⟩

theorem AttentionRecord.Fired.to_rel {b : AttentionRecord} {o : Option AttentionRecord}
    (h : Option.Rel AttentionRecord.Fired o (some b)) : ∃ a, o = some a ∧ a.Fired b := by
  cases h with
  | some hab => exact ⟨_, rfl, hab⟩

section
variable {s t : State} {z : Nat} {r : ZoneRecord} (hfires : (s.dropZone z r).fires t)
include hfires

/-- A record after a retirement is that before it with the watches of the zone gone, and watches fired. -/
theorem State.fires.record {q : Port} {b : AttentionRecord} (hb : s.attention.get q = some b) :
    ∃ c, t.attention.get q = some c ∧ (b.zoneGone z).Fired c := by
  have hq := hfires q
  rw [State.dropZone_attention, hb] at hq
  exact AttentionRecord.Fired.of_rel hq

theorem State.fires.origin {q : Port} {c : AttentionRecord} (hc : t.attention.get q = some c) :
    ∃ b, s.attention.get q = some b ∧ (b.zoneGone z).Fired c := by
  have hq := hfires q
  rw [State.dropZone_attention, hc] at hq
  obtain ⟨a, ha, hac⟩ := AttentionRecord.Fired.to_rel hq
  obtain ⟨b, hb, rfl⟩ := Option.map_eq_some_iff.1 ha
  exact ⟨b, hb, hac⟩

end

theorem AttentionRecord.slot_eq_none_iff_names (r : AttentionRecord) (k : Nat) : r.slot k = none ↔ r.names k = none := by
  rw [AttentionRecord.names, Option.map_eq_none_iff]

theorem AttentionRecord.slot_zoneGone (r : AttentionRecord) (z k : Nat) :
    (r.zoneGone z).slot k = if k ∈ r.watching z then none else r.slot k := r.slot_slotsGone _ k

theorem AttentionRecord.zone_of_zoneGone {r : AttentionRecord} {z k : Nat} {w : Watch} (h : (r.zoneGone z).slot k = some w) :
    w.zone ≠ z := by
  rw [AttentionRecord.slot_zoneGone] at h
  split at h
  · nomatch h
  · rename_i hk
    exact fun hz => hk (AttentionRecord.mem_watching h hz)

/-- R131: a timer whose settings are those of one that named a retired zone's bits is marked. -/
theorem Armed.sourceUndefined_of_retired {a a' : Armed} {r : ZoneRecord}
    (h : (if r.hasBit a'.source || a'.resetBit.any r.hasBit then { a' with sourceUndefined := true } else a').settings = a.settings)
    (hnamed : (r.hasBit a.source || a.resetBit.any r.hasBit) = true) : a.sourceUndefined = true := by
  simp only [Armed.settings, Prod.mk.injEq] at h
  obtain ⟨-, hsource, hreset, -, -, -, hundefined⟩ := h
  split at hsource
  · rw [← hundefined, if_pos ‹_›]
  · rename_i hnot
    rw [if_neg hnot] at hreset
    rw [← hsource, ← hreset] at hnamed
    exact absurd hnamed hnot

/-- R165: what a session reads of its watches after a retirement. -/
theorem AttentionRecord.retired {a b c : AttentionRecord} {z : Nat} (hab : a.Fired b) (hbc : (b.zoneGone z).Fired c)
    (ha : Memory.wf none a.slots) :
    (∀ k w, a.slot k = some w → w.zone = z → c.slot k = none) ∧
    (∀ k, (∀ w, a.slot k = some w → w.zone ≠ z) → c.names k = a.names k) ∧
    (∀ k, k < 8 → c.gone.getLsbD k = (a.gone.getLsbD k || (a.slot k).any fun w => decide (w.zone = z))) ∧
    ((∃ k w, a.slot k = some w ∧ w.zone = z) → c.pending.getLsbD 1 = true) := by
  have hwatching : ∀ k, k ∈ b.watching z ↔ ∃ w, a.slot k = some w ∧ w.zone = z := by
    intro k
    have hnames := hab.names k
    constructor
    · intro hk
      obtain ⟨w', hw', hz⟩ := AttentionRecord.of_mem_watching (hab.canonical ha) hk
      rw [AttentionRecord.names, AttentionRecord.names, hw', Option.map_some] at hnames
      obtain ⟨w, hw, heq⟩ := Option.map_eq_some_iff.1 hnames.symm
      exact ⟨w, hw, (congrArg Prod.fst heq).trans hz⟩
    · rintro ⟨w, hw, hz⟩
      rw [AttentionRecord.names, AttentionRecord.names, hw, Option.map_some] at hnames
      obtain ⟨w', hw', heq⟩ := Option.map_eq_some_iff.1 hnames
      exact AttentionRecord.mem_watching hw' ((congrArg Prod.fst heq).trans hz)
  refine ⟨fun k w hw hz => ?_, fun k hk => ?_, fun k hk => ?_, fun ⟨k, w, hw, hz⟩ => ?_⟩
  · rw [c.slot_eq_none_iff_names, hbc.names, AttentionRecord.names, AttentionRecord.slot_zoneGone,
      if_pos ((hwatching k).2 ⟨w, hw, hz⟩)]
    rfl
  · rw [hbc.names, AttentionRecord.names, AttentionRecord.slot_zoneGone, if_neg]
    · exact hab.names k
    · exact fun hmem => (hwatching k).1 hmem |>.elim fun w hw => hk w hw.1 hw.2
  · rw [hbc.gone, AttentionRecord.zoneGone, AttentionRecord.gone_slotsGone _ _ _ hk, hab.gone]
    congr 1
    rw [Bool.eq_iff_iff, decide_eq_true_iff, hwatching, Option.any_eq_true]
    simp
  · exact hbc.pending (b.pending_slotsGone _ (List.ne_nil_of_mem ((hwatching k).2 ⟨w, hw, hz⟩)))

/-- Settles O24: the checks on the qualified state; then the clearing and the zone table's points in either order (entry 5). -/
theorem retireZoneClearsTheZone : Obligations.RetireZoneClearsTheZone := by
  intro s p m tag serves refusedWith
  have refuses : ∀ {body : List Byte} {o : ReplyOutcome} {detail : Nat},
      serveRetireZone (m.on p) body (s.qualify p m.number) = (s.qualify p m.number, .refuse o detail) →
      refusedWith body o detail :=
    fun h => exec_of_refusal serves .retireZone tag _ (serveRetireZone · _) rfl _ _ h
  refine ⟨fun body hlength => refuses (serveRetireZone_of_length _ hlength _),
    fun n => ⟨fun hrange => refuses (serveRetireZone_of_error _ ((s.qualify p m.number).definedZone_of_range hrange)),
      fun hlow hhigh => ⟨fun hnone => ?_, fun r hr => ?_⟩⟩⟩
  · exact refuses (serveRetireZone_of_error _ (State.definedZone_of_none hlow hhigh ((State.qualify_zone ..).trans hnone)))
  have hz : (s.qualify p m.number).definesZone n.toNat r := State.definesZone.qualify (s := s) ⟨hlow, hhigh, hr⟩ p m.number
  refine ⟨fun owner howner hne => refuses (serveRetireZone_of_refusal hz (r.retireRefusal_of_other howner hne)),
    fun hstatus hright => refuses (serveRetireZone_of_refusal hz (r.retireRefusal_of_noRight hstatus hright)),
    fun d hd => refuses (serveRetireZone_of_refusal hz (r.retireRefusal_of_handover hd)), fun harea hallowed => ?_⟩
  have hserve := serveRetireZone_of_passed hz (r.retireRefusal_of_allowed hallowed)
  have hnot : ∀ d, r.status ≠ .handover d := fun d hd => by
    rcases hallowed with h | ⟨h | h, -⟩ <;> rw [hd] at h <;> nomatch h
  have hrecord : (s.qualify p m.number).zone n.toNat = some r := (State.qualify_zone ..).trans hr
  rw [State.retireZone_eq hlow hhigh hrecord hnot] at hserve
  have hdefinable : r.zeros.definable := ZoneRecord.definable_of_inArea (harea n.toNat r hr).2.2 (.inl rfl)
  have hsystem := retiredPoints_inSystem hhigh r.isOrphaned (((s.qualify p m.number).setZone n.toNat none).definedCount)
  have hfires := ((s.qualify p m.number).dropZone n.toNat r).fires_clearingBlocks (c := r.zeros)
    (w := ⟨if r.isOrphaned then [(64 + n.toNat, false)] else [], [(59, ((s.qualify p m.number).setZone n.toNat none).definedCount)]⟩)
  refine ⟨_, exec_of_answer serves .retireZone tag [n] (serveRetireZone · [n]) rfl _ _ hserve ?_, ?_, ?_, ?_, ?_, ?_, ?_, ?_, ?_,
    ?_, ?_, ?_, ?_, ?_⟩
  · rw [State.actFreely_ports]
    rfl
  · rw [State.replied_zone, State.zone_clearingBlocks, State.dropZone_zone, if_pos rfl]
  · intro z hne
    rw [State.replied_zone, State.zone_clearingBlocks, State.dropZone_zone, if_neg hne, State.qualify_zone]
  · intro i hi
    rw [State.replied_bit, State.bit_clearingBlocks_definable _ hsystem (ZoneRecord.bit_of_inArea (harea n.toNat r hr).2.2 hi),
      State.bit_store_zeros, if_pos hi]
  · intro i hi
    rw [State.replied_word, State.word_clearingBlocks_definable _ hsystem (ZoneRecord.word_of_inArea (harea n.toNat r hr).2.2 hi),
      State.word_store_zeros, if_pos hi]
  · intro i hi hnot
    rw [State.replied_bit, State.bit_clearingBlocks_definable _ hsystem hi, State.bit_store_zeros, if_neg (by simp [hnot])]
    exact (State.removeWatches_bit ..).trans (s.qualify_bit_definable p m.number hi)
  · intro i hi hnot
    rw [State.replied_word, State.word_clearingBlocks_definable _ hsystem hi, State.word_store_zeros, if_neg (by simp [hnot])]
    exact (State.removeWatches_word ..).trans (s.qualify_word_definable p m.number hi)
  · rw [State.replied_word, State.word_clearingBlocks_system _ hdefinable (by decide) (by decide), State.word_store]
    refine (congrArg (fun zs : List Nat => natHalf zs.length) (State.definedZones_congr fun i => ?_)).symm
    rw [State.replied_zone, State.zone_clearingBlocks, State.dropZone_zone, State.zone_setZone]
  · intro horphaned
    rw [State.replied_bit, State.bit_clearingBlocks_system _ hdefinable (by omega) (by omega), State.bit_store,
      r.isOrphaned_iff.2 horphaned]
    simp
  · intro i hlow' hhigh' hne
    have := Port.index_lt p
    rw [State.replied_bit, State.bit_clearingBlocks_system _ hdefinable (by omega) hhigh', State.bit_store_ne _ _ i fun b hb heq => ?_]
    · exact (State.removeWatches_bit ..).trans
        (s.qualify_bit p m.number i (by omega) ⟨by omega, by omega, by omega⟩)
    · split at hb
      · rename_i horphaned
        rw [List.mem_singleton.1 hb] at heq
        exact hne heq.symm (r.isOrphaned_iff.1 horphaned)
      · nomatch hb
  · intro q a k w ha hslot
    obtain ⟨b, -, hb⟩ := hfires.origin ha
    have hnames := hb.names k
    rw [AttentionRecord.names, AttentionRecord.names, hslot, Option.map_some] at hnames
    obtain ⟨w', hw', heq⟩ := Option.map_eq_some_iff.1 hnames.symm
    have hzone : w'.zone = w.zone := congrArg Prod.fst heq
    exact hzone ▸ AttentionRecord.zone_of_zoneGone hw'
  · intro q a ha hwf
    have hqualified := s.fires_qualify p m.number q
    rw [ha] at hqualified
    obtain ⟨b, hb, hab⟩ := AttentionRecord.Fired.of_rel hqualified
    obtain ⟨c, hc, hbc⟩ := hfires.record hb
    exact ⟨c, hc, AttentionRecord.retired hab hbc hwf⟩
  · intro k a ha hnamed
    have hsettings := State.settings_clearingBlocks ((s.qualify p m.number).dropZone n.toNat r) (c := r.zeros)
      (w := ⟨if r.isOrphaned then [(64 + n.toNat, false)] else [],
        [(59, ((s.qualify p m.number).setZone n.toNat none).definedCount)]⟩) k
    rw [State.replied_timer] at ha
    rw [ha, State.dropZone_timer, Option.map_some, Option.map_map] at hsettings
    obtain ⟨a', -, heq⟩ := Option.map_eq_some_iff.1 hsettings.symm
    exact Armed.sourceUndefined_of_retired heq hnamed
  · rw [State.replied_link, State.actFreely_links]
    rfl

end Sys2Proof.Machine
end

section
/-! RESET_TIMER and FREE_TIMER (R118, R127 to R129). -/

namespace Sys2Proof.Machine

/-! ## One timer evaluated from its start (R127) -/

/-- R127: the source of a timer that starts reads 1, and no reset bit holds it. -/
def Armed.risesAt (bits : Memory Bool) (t : Armed) : Bool := !t.isHeld bits && bits.read false t.source

theorem Armed.evaluate_held (bits : Memory Bool) (c : Clock) (t : Armed) : t.held.evaluate bits c =
    { t with
      count := 0
      done := t.risesAt bits && t.kind == .offDelay
      phase :=
        if t.risesAt bits then (if t.kind = .offDelay then .on else .timing) else if t.kind = .retain then .holding else .idle
      timingSince := if t.risesAt bits && t.kind != .offDelay then c else t.timingSince } := by
  have hheld : t.held.isHeld bits = t.isHeld bits := rfl
  have hsource : t.held.source = t.source := rfl
  rw [Armed.evaluate, hheld, hsource]
  unfold Armed.risesAt
  obtain ⟨kind, source, resetBit, base, preset, count, done, phase, since, session, undefined⟩ := t
  cases (Armed.isHeld bits ⟨kind, source, resetBit, base, preset, count, done, phase, since, session, undefined⟩)
  · cases bits.read false source
    · cases kind <;> rfl
    · cases kind <;> rfl
  · cases kind <;> rfl

/-! ## A timer on the qualified state -/

section
variable {s : State} {p : Port} {n : Half}

theorem State.timer_qualify_eq_none {k : Nat} (h : s.timer k = none) : (s.qualify p n).timer k = none := by
  have hsettings := s.qualify_settings p n k
  rw [h] at hsettings
  exact Option.map_eq_none_iff.1 hsettings

theorem State.timer_qualify_of_some {k : Nat} {a : Armed} (h : s.timer k = some a) :
    ∃ a', (s.qualify p n).timer k = some a' ∧ a'.settings = a.settings := by
  have hsettings := s.qualify_settings p n k
  rw [h] at hsettings
  exact Option.map_eq_some_iff.1 hsettings

theorem Armed.session_of_settings {a a' : Armed} (h : a'.settings = a.settings) : a'.session = a.session :=
  congrArg (fun x : TimerKind × Nat × Option Nat × Base × Half × Option SessionRef × Bool => x.2.2.2.2.2.1) h

theorem Armed.kind_of_settings {a a' : Armed} (h : a'.settings = a.settings) : a'.kind = a.kind := congrArg Prod.fst h

theorem Armed.resetBit_of_settings {a a' : Armed} (h : a'.settings = a.settings) : a'.resetBit = a.resetBit :=
  congrArg (fun x : TimerKind × Nat × Option Nat × Base × Half × Option SessionRef × Bool => x.2.2.1) h

end

theorem busyPort_of_other {a : Armed} {who other : SessionRef} (h : a.session = some other) (hne : other ≠ who) :
    busyPort (some a) who = some other.port := by
  simp only [busyPort, Option.bind_some, h, if_neg hne]

theorem busyPort_of_own {a : Armed} {who : SessionRef} (h : a.session = none ∨ a.session = some who) :
    busyPort (some a) who = none := by
  rcases h with h | h <;> simp [busyPort, h]

/-! ## The checks (R128, R129) -/

section
variable {s : State} {who : SessionRef} {n : Byte}

theorem serveTimer_of_length {body : List Byte} (h : body.length ≠ 1) :
    serveResetTimer who body s = (s, .refuse .badRequest 0) ∧ serveFreeTimer who body s = (s, .refuse .badRequest 0) := by
  refine ⟨?_, ?_⟩
  · unfold serveResetTimer
    split
    · exact absurd rfl h
    · rfl
  · unfold serveFreeTimer
    split
    · exact absurd rfl h
    · rfl

theorem serveTimer_of_number (h : Config.timerCount ≤ n.toNat) :
    serveResetTimer who [n] s = (s, .refuse .range 1) ∧ serveFreeTimer who [n] s = (s, .refuse .range 1) := by
  simp only [serveResetTimer, serveFreeTimer, if_pos h, and_self]

variable (hn : ¬ Config.timerCount ≤ n.toNat)
include hn

theorem serveTimer_of_free (h : s.timer n.toNat = none) :
    serveResetTimer who [n] s = (s, .refuse .notFound 0) ∧ serveFreeTimer who [n] s = (s, .done 1 []) := by
  simp only [serveResetTimer, serveFreeTimer, if_neg hn, h, and_self]

variable {a : Armed} (ha : s.timer n.toNat = some a)
include ha

theorem serveTimer_of_busy {q : Port} (h : busyPort (some a) who = some q) :
    serveResetTimer who [n] s = (s, .refuse .timerBusy q.code.toNat) ∧
      serveFreeTimer who [n] s = (s, .refuse .timerBusy q.code.toNat) := by
  simp only [serveResetTimer, serveFreeTimer, if_neg hn, ha, h, and_self]

theorem serveTimer_of_own (h : busyPort (some a) who = none) :
    serveResetTimer who [n] s = s.startTimer n.toNat a.held ∧
      serveFreeTimer who [n] s = (s.changeTimer n.toNat none, .done 0 []) := by
  simp only [serveResetTimer, serveFreeTimer, if_neg hn, ha, h, and_self]

end

/-- Settles O41: the checks on the qualified state, and one timer replaced (R118). -/
theorem resetAndFreeTimer : Obligations.ResetAndFreeTimer := by
  refine ⟨fencedOff_of_serviceOf (serve := fun body who s => serveResetTimer who body s) fun _ _ _ => rfl,
    fencedOff_of_serviceOf (serve := fun body who s => serveFreeTimer who body s) fun _ _ _ => rfl,
    fun s p m tag serves => ?_⟩
  have resetRefuses : ∀ {body : List Byte} {o : ReplyOutcome} {detail : Nat},
      serveResetTimer (m.on p) body (s.qualify p m.number) = (s.qualify p m.number, .refuse o detail) →
      exec (.resetTimer p tag m.number body) s = .next (s.refused p m tag .resetTimer o detail) :=
    fun h => exec_of_refusal serves .resetTimer tag _ (serveResetTimer · _) rfl _ _ h
  have freeRefuses : ∀ {body : List Byte} {o : ReplyOutcome} {detail : Nat},
      serveFreeTimer (m.on p) body (s.qualify p m.number) = (s.qualify p m.number, .refuse o detail) →
      exec (.freeTimer p tag m.number body) s = .next (s.refused p m tag .freeTimer o detail) :=
    fun h => exec_of_refusal serves .freeTimer tag _ (serveFreeTimer · _) rfl _ _ h
  refine ⟨fun body hlength => (serveTimer_of_length hlength).imp resetRefuses freeRefuses,
    fun n hn => (serveTimer_of_number hn).imp resetRefuses freeRefuses, fun n hn => ?_⟩
  intro u k
  have hnumber : ¬ Config.timerCount ≤ n.toNat := Nat.not_le_of_lt (Nat.lt_succ_of_le hn)
  refine ⟨fun a ha hsession => ?_, fun hfree => ?_, fun a other ha hother hne => ?_⟩
  · intro rises e
    obtain ⟨hreset, hfree⟩ := serveTimer_of_own hnumber ha (busyPort_of_own hsession)
    have he : a.held.evaluate u.bits u.clock = e := by
      rw [Armed.evaluate_held, State.qualify_clock]
      rfl
    rw [State.startTimer, he] at hreset
    have hresetExec := exec_of_answer serves .resetTimer tag [n] (serveResetTimer · [n]) rfl _ _ hreset
      (by rw [State.changeTimer_ports])
    have hfreeExec := exec_of_answer serves .freeTimer tag [n] (serveFreeTimer · [n]) rfl _ _ hfree
      (by rw [State.changeTimer_ports])
    have hk : k < 32 := Nat.lt_succ_of_le hn
    have hshow : u.showsTimers → ∀ o, (u.changeTimer k o).bit k = timerDone ((u.changeTimer k o).timer k) ∧
        (u.changeTimer k o).word k = timerCount ((u.changeTimer k o).timer k) :=
      fun h o => State.showsTimers_changeTimer h k o k hk
    refine ⟨hresetExec.trans ?_, hfreeExec.trans ?_, ⟨_, hresetExec, fun i => ?_, fun h => hshow h _, fun hsource hreset => ?_⟩,
      _, hfreeExec, State.changeTimer_none _ _, fun i hi => ?_, fun h => ?_⟩
    · rw [State.changeTimer_eq _ _ _ hk, ha, Answer.done, natHalf_flagNat]
      rfl
    · rw [State.changeTimer_eq _ _ _ hk, ha]
      rfl
    · rw [State.replied_timer, State.changeTimer_settings]
      split
      · rename_i hi
        rw [hi, ha]
        rfl
      · rfl
    · have htimer : (u.changeTimer k (some e)).timer k = some e := State.changeTimer_timer u k e hsource hreset
      refine ⟨htimer, fun h => ?_⟩
      obtain ⟨hbit, hword⟩ := hshow h (some e)
      rw [htimer] at hbit hword
      exact ⟨hbit, hword⟩
    · rw [State.replied_timer, State.changeTimer_settings, if_neg hi]
    · have hbits := hshow h none
      rwa [State.changeTimer_none] at hbits
  · have hundefined := State.timer_qualify_eq_none (p := p) (n := m.number) hfree
    obtain ⟨hreset, hfree⟩ := serveTimer_of_free (who := m.on p) hnumber hundefined
    exact ⟨resetRefuses hreset, exec_of_answer serves .freeTimer tag [n] (serveFreeTimer · [n]) rfl _ _ hfree rfl⟩
  · obtain ⟨a', ha', hsettings⟩ := State.timer_qualify_of_some (p := p) (n := m.number) ha
    exact (serveTimer_of_busy hnumber ha' (busyPort_of_other ((Armed.session_of_settings hsettings).trans hother) hne)).imp
      resetRefuses freeRefuses

end Sys2Proof.Machine
end

section
/-! SET_TIMER (R126, R127). -/

namespace Sys2Proof.Machine

/-! ## The codes (R126, R184) -/

/-- R184: the byte of a timer kind, as a SET_TIMER carries it. -/
abbrev TimerKind.byte (kind : TimerKind) : Byte := match kind with | .delay => 0 | .offDelay => 1 | .retain => 2

/-- R184: the byte of a timer base, as a SET_TIMER carries it. -/
abbrev Base.byte (base : Base) : Byte := match base with | .ms1 => 0 | .ms10 => 1 | .ms100 => 2

theorem timerKindOf_byte (kind : TimerKind) : timerKindOf kind.byte = some kind := by cases kind <;> rfl

theorem baseOf_byte (base : Base) : baseOf base.byte = some base := by cases base <;> rfl

theorem timerKindOf_of_gt {b : Byte} (h : 2 < b.toNat) : timerKindOf b = none := by
  have hne : ∀ c : Byte, c.toNat ≤ 2 → b ≠ c := fun c hc heq => by
    rw [heq] at h
    omega
  rw [timerKindOf, if_neg (hne 0 (by decide)), if_neg (hne 1 (by decide)), if_neg (hne 2 (by decide))]

theorem baseOf_of_gt {b : Byte} (h : 2 < b.toNat) : baseOf b = none := by
  have hne : ∀ c : Byte, c.toNat ≤ 2 → b ≠ c := fun c hc heq => by
    rw [heq] at h
    omega
  rw [baseOf, if_neg (hne 0 (by decide)), if_neg (hne 1 (by decide)), if_neg (hne 2 (by decide))]

/-- R126: the body of a SET_TIMER. -/
abbrev setTimerBody (n kindByte baseByte : Byte) (preset source reset : Half) : List Byte :=
  [n, kindByte, baseByte] ++ halfBytes preset ++ halfBytes source ++ halfBytes reset

theorem serveSetTimer_of_length (who : SessionRef) {body : List Byte} (h : body.length ≠ 9) (s : State) :
    serveSetTimer who body s = (s, .refuse .badRequest 0) := by
  unfold serveSetTimer
  split
  · exact absurd rfl h
  · rfl

theorem serveSetTimer_of_codes (who : SessionRef) (n : Byte) {kindByte baseByte : Byte} (preset source reset : Half)
    (h : 2 < kindByte.toNat ∨ 2 < baseByte.toNat) (s : State) :
    serveSetTimer who (setTimerBody n kindByte baseByte preset source reset) s = (s, .refuse .badRequest 1) := by
  simp only [serveSetTimer, setTimerBody, halfBytes, List.cons_append, List.nil_append]
  split
  · rename_i hkind hbase
    rcases h with h | h
    · rw [timerKindOf_of_gt h] at hkind
      nomatch hkind
    · rw [baseOf_of_gt h] at hbase
      nomatch hbase
  · rfl

theorem serveSetTimer_of_kinds (who : SessionRef) (n : Byte) (kind : TimerKind) (base : Base) (preset source reset : Half)
    (s : State) : serveSetTimer who (setTimerBody n kind.byte base.byte preset source reset) s =
      s.decideSetTimer who n.toNat kind base preset source.toNat (resetBitOf reset) := by
  simp only [serveSetTimer, setTimerBody, halfBytes, List.cons_append, List.nil_append, timerKindOf_byte, baseOf_byte,
    half_halfBytes]

/-! ## What the checks ask of the state (R126) -/

theorem State.bitUsable_iff (s : State) (b : Nat) :
    s.bitUsable b = true ↔ b < 128 ∨ (b < 4096 ∧ ∃ z r, 1 ≤ z ∧ z ≤ 31 ∧ s.zone z = some r ∧ r.hasBit b = true) := by
  rw [State.bitUsable, Bool.and_eq_true, bne_iff_ne, State.bitHolder_ne_nothing_iff, decide_eq_true_iff, State.holdsBit]
  show b < 4096 ∧ _ ↔ _
  constructor
  · rintro ⟨hlt, h | h⟩
    · exact .inl h
    · exact .inr ⟨hlt, h⟩
  · rintro (h | ⟨hlt, h⟩)
    · exact ⟨by omega, .inl h⟩
    · exact ⟨hlt, .inr h⟩

theorem State.bitUsable_qualify (s : State) (p : Port) (n : Half) (b : Nat) : (s.qualify p n).bitUsable b = s.bitUsable b := by
  simp only [State.bitUsable, State.bitHolder, State.findZone, State.qualify_zone]

section
variable (s : State) (p : Port) (session : Half)

/-- R126 checks 9 and 10 ask a timer for its settings alone, which an arrival leaves. -/
theorem State.timer_qualify_any (f : Armed → Bool) (hf : ∀ a a' : Armed, a'.settings = a.settings → f a' = f a) (k : Nat) :
    ((s.qualify p session).timer k).any f = (s.timer k).any f := by
  cases ha : s.timer k with
  | none => rw [State.timer_qualify_eq_none ha]
  | some a =>
    obtain ⟨a', ha', hsettings⟩ := State.timer_qualify_of_some (p := p) (n := session) ha
    rw [ha']
    exact hf a a' hsettings

theorem State.resetsFromOffDelay_qualify (n : Nat) (kind : TimerKind) (b : Nat) :
    (s.qualify p session).resetsFromOffDelay n kind b = s.resetsFromOffDelay n kind b := by
  unfold State.resetsFromOffDelay
  rw [State.timer_qualify_any s p session _ fun a a' h => by rw [Armed.kind_of_settings h]]

theorem State.doneResets_qualify (n : Nat) : (s.qualify p session).doneResets n = s.doneResets n := by
  unfold State.doneResets
  simp only [State.timer_qualify_any s p session (fun a => a.resetBit == some n)
    fun a a' h => by rw [Armed.resetBit_of_settings h]]

end

theorem State.resetsFromOffDelay_iff (s : State) (n : Nat) (kind : TimerKind) (b : Nat) :
    s.resetsFromOffDelay n kind b = true ↔
      (b = n ∧ kind = .offDelay) ∨ (b ≠ n ∧ b < 32 ∧ ∃ a, s.timer b = some a ∧ a.kind = .offDelay) := by
  unfold State.resetsFromOffDelay
  split
  · rename_i h
    simp [h]
  · rename_i h
    rw [Bool.and_eq_true, decide_eq_true_iff, Option.any_eq_true]
    simp [h, Config.timerCount]

theorem State.doneResets_iff (s : State) (n : Nat) :
    s.doneResets n = true ↔ ∃ k a, k < 32 ∧ k ≠ n ∧ s.timer k = some a ∧ a.resetBit = some n := by
  simp only [State.doneResets, List.any_eq_true, List.mem_range, Config.timerCount, Bool.and_eq_true, bne_iff_ne,
    Option.any_eq_true, beq_iff_eq]
  constructor
  · rintro ⟨k, hk, hne, a, ha, hreset⟩
    exact ⟨k, a, hk, hne, ha, hreset⟩
  · rintro ⟨k, a, hk, hne, ha, hreset⟩
    exact ⟨k, hk, hne, a, ha, hreset⟩

theorem State.busyPort_qualify {s : State} {p : Port} {session : Half} {k : Nat} {who : SessionRef}
    (h : ∀ a other, s.timer k = some a → a.session = some other → other = who) :
    busyPort ((s.qualify p session).timer k) who = none := by
  cases ha : s.timer k with
  | none =>
    rw [State.timer_qualify_eq_none ha]
    rfl
  | some a =>
    obtain ⟨a', ha', hsettings⟩ := State.timer_qualify_of_some (p := p) (n := session) ha
    have hsession := Armed.session_of_settings hsettings
    rw [ha']
    cases hother : a.session with
    | none => exact busyPort_of_own (.inl (hsession.trans hother))
    | some other => exact busyPort_of_own (.inr (hsession.trans (h a other ha hother ▸ hother)))

/-! ## The checks in their order (R126) -/

section
variable {s : State} {who : SessionRef} {n : Nat} {kind : TimerKind} {base : Base} {preset : Half} {source : Nat}
  {resetBit : Option Nat}

theorem State.decideSetTimer_of_same (h : resetBit = some source) :
    s.decideSetTimer who n kind base preset source resetBit = (s, .refuse .badRequest 2) := by
  simp only [State.decideSetTimer, if_pos h]

variable (hbits : ¬ resetBit = some source)
include hbits

theorem State.decideSetTimer_of_number (h : Config.timerCount ≤ n) :
    s.decideSetTimer who n kind base preset source resetBit = (s, .refuse .range 1) := by
  simp only [State.decideSetTimer, if_neg hbits, if_pos h]

variable (hnumber : ¬ Config.timerCount ≤ n)
include hnumber

theorem State.decideSetTimer_of_preset (h : preset.toNat = 0 ∨ 30000 < preset.toNat) :
    s.decideSetTimer who n kind base preset source resetBit = (s, .refuse .range 2) := by
  simp only [State.decideSetTimer, if_neg hbits, if_neg hnumber, if_pos h]

variable (hpreset : ¬ (preset.toNat = 0 ∨ 30000 < preset.toNat))
include hpreset

theorem State.decideSetTimer_of_source (h : s.bitUsable source = false) :
    s.decideSetTimer who n kind base preset source resetBit = (s, .refuse .range 3) := by
  simp only [State.decideSetTimer, if_neg hbits, if_neg hnumber, if_neg hpreset, h, Bool.not_false, if_true]

variable (hsource : s.bitUsable source = true)
include hsource

theorem State.decideSetTimer_of_reset (h : (resetBit.any fun b => !s.bitUsable b) = true) :
    s.decideSetTimer who n kind base preset source resetBit = (s, .refuse .range 4) := by
  simp only [State.decideSetTimer, if_neg hbits, if_neg hnumber, if_neg hpreset, hsource, h, Bool.not_true,
    Bool.false_eq_true, if_false, if_true]

variable (hreset : (resetBit.any fun b => !s.bitUsable b) = false)
include hreset

theorem State.decideSetTimer_of_busy {q : Port} (h : busyPort (s.timer n) who = some q) :
    s.decideSetTimer who n kind base preset source resetBit = (s, .refuse .timerBusy q.code.toNat) := by
  simp only [State.decideSetTimer, if_neg hbits, if_neg hnumber, if_neg hpreset, hsource, hreset, h, Bool.not_true,
    Bool.false_eq_true, if_false]

variable (hown : busyPort (s.timer n) who = none)
include hown

theorem State.decideSetTimer_of_offDelay (h : resetBit.any (s.resetsFromOffDelay n kind) = true) :
    s.decideSetTimer who n kind base preset source resetBit = (s, .refuse .notPermitted 1) := by
  simp only [State.decideSetTimer, if_neg hbits, if_neg hnumber, if_neg hpreset, hsource, hreset, hown, h, Bool.not_true,
    Bool.false_eq_true, if_false, if_true]

variable (hoffDelay : resetBit.any (s.resetsFromOffDelay n kind) = false)
include hoffDelay

theorem State.decideSetTimer_of_resets (h : (kind == .offDelay && s.doneResets n) = true) :
    s.decideSetTimer who n kind base preset source resetBit = (s, .refuse .notPermitted 2) := by
  simp only [State.decideSetTimer, if_neg hbits, if_neg hnumber, if_neg hpreset, hsource, hreset, hown, hoffDelay, h,
    Bool.not_true, Bool.false_eq_true, if_false, if_true]

theorem State.decideSetTimer_of_passed (h : (kind == .offDelay && s.doneResets n) = false) :
    s.decideSetTimer who n kind base preset source resetBit =
      s.startTimer n (.configure kind source resetBit base preset who) := by
  simp only [State.decideSetTimer, if_neg hbits, if_neg hnumber, if_neg hpreset, hsource, hreset, hown, hoffDelay, h,
    Bool.not_true, Bool.false_eq_true, if_false]

end

/-! ## The optional reset bit -/

theorem resetBitOf_any (f : Nat → Bool) (reset : Half) :
    (resetBitOf reset).any f = true ↔ reset ≠ 0xFFFF ∧ f reset.toNat = true := by
  unfold resetBitOf
  split
  · rename_i h
    simp [h]
  · rename_i h
    simp only [Option.any_some, ne_eq, h, not_false_eq_true, true_and]

theorem resetBitOf_eq_source (reset source : Half) : resetBitOf reset = some source.toNat ↔ reset ≠ 0xFFFF ∧ reset = source := by
  unfold resetBitOf
  split
  · rename_i h
    simp [h]
  · rename_i h
    simp only [Option.some.injEq, BitVec.toNat_inj, ne_eq, h, not_false_eq_true, true_and]

/-! ## A start that shows nothing (R127) -/

theorem Armed.evaluate_quiet {bits : Memory Bool} {t : Armed} (h : (t.risesAt bits && t.kind == .offDelay) = false) (c : Clock) :
    t.held.evaluate bits c =
      { t with
        count := 0
        done := false
        phase := if t.risesAt bits then .timing else if t.kind = .retain then .holding else .idle
        timingSince := if t.risesAt bits then c else t.timingSince } := by
  rw [Armed.evaluate_held, h]
  cases hrises : t.risesAt bits with
  | false => rfl
  | true =>
    have hkind : t.kind ≠ .offDelay := by simpa [hrises] using h
    simp [hkind]

theorem State.changeTimer_of_quiet {s : State} {n : Nat} {t : Option Armed} (hn : n < 32)
    (hcount : timerCount (s.timer n) = timerCount t) (hdone : timerDone (s.timer n) = timerDone t) :
    s.changeTimer n t = s.setTimer n t := (State.changeTimer_eq s n t hn).trans (if_pos ⟨hcount, hdone⟩)

theorem State.startTimer_answer (s : State) (n : Nat) (t : Armed) : (s.startTimer n t.held).2 =
    ⟨.done, if t.risesAt s.bits && t.kind == .offDelay then 1 else 0, []⟩ := by
  rw [State.startTimer, Armed.evaluate_held, Answer.done, natHalf_flagNat]

theorem State.startTimer_of_quiet {s : State} {n : Nat} {t : Armed} (hn : n < 32)
    (h : (t.risesAt s.bits && t.kind == .offDelay) = false) (hdone : timerDone (s.timer n) = false)
    (hcount : timerCount (s.timer n) = 0) :
    s.startTimer n t.held =
      (s.setTimer n (some { t with
        count := 0
        done := false
        phase := if t.risesAt s.bits then .timing else if t.kind = .retain then .holding else .idle
        timingSince := if t.risesAt s.bits then s.clock else t.timingSince }), .done 0 []) := by
  rw [State.startTimer, Armed.evaluate_quiet h, State.changeTimer_of_quiet hn hcount hdone]
  rfl

/-- Settles O40: the checks on the qualified state, in their order; then one timer replaced by its evaluated start. -/
theorem setTimerArmsTheTimer : Obligations.SetTimerArmsTheTimer := by
  intro s p m tag serves refusedWith
  have refuses : ∀ {body : List Byte} {o : ReplyOutcome} {detail : Nat},
      serveSetTimer (m.on p) body (s.qualify p m.number) = (s.qualify p m.number, .refuse o detail) →
      refusedWith body o detail :=
    fun h => exec_of_refusal serves .setTimer tag _ (serveSetTimer · _) rfl _ _ h
  refine ⟨fun body hlength => refuses (serveSetTimer_of_length _ hlength _),
    fun n kindByte baseByte preset source reset h => refuses (serveSetTimer_of_codes _ n preset source reset h _),
    fun n preset source reset kind base => ?_⟩
  intro u body usable offDelayDone resetElsewhere resetBit held rises done
  have hserve : serveSetTimer (m.on p) body u = u.decideSetTimer (m.on p) n.toNat kind base preset source.toNat resetBit :=
    serveSetTimer_of_kinds (m.on p) n kind base preset source reset u
  have husable : ∀ b, u.bitUsable b = true ↔ usable b := fun b => by
    rw [State.bitUsable_qualify]
    exact s.bitUsable_iff b
  have hunusable : ∀ b, ¬ usable b → u.bitUsable b = false := fun b hb => Bool.eq_false_iff.2 (mt (husable b).1 hb)
  have hoff : ∀ b, u.resetsFromOffDelay n.toNat kind b = true ↔ offDelayDone b := fun b => by
    rw [State.resetsFromOffDelay_qualify]
    exact s.resetsFromOffDelay_iff n.toNat kind b
  have helsewhere : u.doneResets n.toNat = true ↔ resetElsewhere := by
    rw [State.doneResets_qualify]
    exact s.doneResets_iff n.toNat
  have hreset : ∀ f : Nat → Bool, resetBit.any f = true ↔ reset ≠ 0xFFFF ∧ f reset.toNat = true :=
    fun f => resetBitOf_any f reset
  have hsame : resetBit = some source.toNat ↔ reset ≠ 0xFFFF ∧ reset = source := resetBitOf_eq_source reset source
  refine ⟨fun hsome h => refuses (hserve.trans (State.decideSetTimer_of_same (hsame.2 ⟨hsome, h⟩))),
    fun hdiffer => ?_⟩
  have hbits : ¬ resetBit = some source.toNat := by
    rw [hsame]
    rintro ⟨hsome, heq⟩
    rcases hdiffer with h | h
    · exact hsome h
    · exact h heq
  refine ⟨fun hn => refuses (hserve.trans (State.decideSetTimer_of_number hbits hn)), fun hn => ?_⟩
  have hnumber : ¬ Config.timerCount ≤ n.toNat := Nat.not_le_of_lt (Nat.lt_succ_of_le hn)
  refine ⟨fun h => refuses (hserve.trans (State.decideSetTimer_of_preset hbits hnumber h)), fun hlow hhigh => ?_⟩
  have hpreset : ¬ (preset.toNat = 0 ∨ 30000 < preset.toNat) := by omega
  refine ⟨fun h => refuses (hserve.trans (State.decideSetTimer_of_source hbits hnumber hpreset (hunusable _ h))), fun h => ?_⟩
  have hsource := (husable source.toNat).2 h
  refine ⟨fun hsome h => refuses (hserve.trans (State.decideSetTimer_of_reset hbits hnumber hpreset hsource
    ((hreset _).2 ⟨hsome, by rw [hunusable _ h]; rfl⟩))), fun h => ?_⟩
  have husableReset : (resetBit.any fun b => !u.bitUsable b) = false := by
    rw [Bool.eq_false_iff, Ne, hreset]
    rintro ⟨hsome, hnot⟩
    rw [(husable _).2 (h hsome)] at hnot
    nomatch hnot
  refine ⟨fun a other ha hother hne => ?_, fun hown => ?_⟩
  · obtain ⟨a', ha', hsettings⟩ := State.timer_qualify_of_some (p := p) (n := m.number) ha
    refine refuses (hserve.trans (State.decideSetTimer_of_busy hbits hnumber hpreset hsource husableReset ?_))
    rw [ha']
    exact busyPort_of_other ((Armed.session_of_settings hsettings).trans hother) hne
  have hfree := State.busyPort_qualify (p := p) (session := m.number) hown
  refine ⟨fun hsome h => refuses (hserve.trans (State.decideSetTimer_of_offDelay hbits hnumber hpreset hsource husableReset hfree
    ((hreset _).2 ⟨hsome, (hoff _).2 h⟩))), fun h => ?_⟩
  have hdone : resetBit.any (u.resetsFromOffDelay n.toNat kind) = false := by
    rw [Bool.eq_false_iff, Ne, hreset]
    rintro ⟨hsome, hnot⟩
    exact h hsome ((hoff _).1 hnot)
  refine ⟨fun hkind h => refuses (hserve.trans (State.decideSetTimer_of_resets hbits hnumber hpreset hsource husableReset hfree hdone
    (by rw [helsewhere.2 h, hkind]; rfl))), fun h => ?_⟩
  have hresets : (kind == .offDelay && u.doneResets n.toNat) = false := by
    rw [Bool.eq_false_iff, Ne, Bool.and_eq_true, beq_iff_eq, helsewhere]
    rintro ⟨hkind, hnot⟩
    exact h hkind hnot
  have hpassed := hserve.trans
    (State.decideSetTimer_of_passed hbits hnumber hpreset hsource husableReset hfree hdone hresets)
  have hk : n.toNat < 32 := Nat.lt_succ_of_le hn
  have hexec := exec_of_answer serves .setTimer tag body (serveSetTimer · body) rfl _ _ hpassed
    (by rw [State.changeTimer_ports])
  refine ⟨⟨_, hexec, ?_, ?_⟩, fun hnot hnoDone hnoCount => ?_⟩
  · rw [State.replied_timer, State.changeTimer_settings, if_pos rfl, Option.map_some, Armed.settings_evaluate]
    rfl
  · have hanswer := u.startTimer_answer n.toNat (.configure kind source.toNat resetBit base preset (m.on p))
    rw [State.replied_link]
    exact congrArg (fun a : Answer => some (a.frame tag 0x38 1)) hanswer
  · have hstart := State.startTimer_of_quiet (t := .configure kind source.toNat resetBit base preset (m.on p)) hk hnot hnoDone
      hnoCount
    rw [State.qualify_clock] at hstart
    exact exec_of_answer serves .setTimer tag body (serveSetTimer · body) rfl _ _ (hpassed.trans hstart) rfl

end Sys2Proof.Machine
end

section
/-! The tick event and the edges of a timer's bits (R118 to R124). -/

namespace Sys2Proof.Machine

/-! ## The points of a timer that names no done bit (R118) -/

theorem timerPoints_bits_ne {s t : State} {k : Nat} (h : t.timer k = s.timer k) : ∀ b ∈ (timerPoints s t).bits, b.1 ≠ k := by
  rintro b hb rfl
  obtain ⟨i, hi, rfl⟩ := List.mem_map.1 hb
  have hchanged := (List.mem_filter.1 hi).2
  simp [h] at hchanged

theorem timerPoints_words_ne {s t : State} {k : Nat} (h : t.timer k = s.timer k) : ∀ w ∈ (timerPoints s t).words, w.1 ≠ k := by
  rintro w hw rfl
  obtain ⟨i, hi, rfl⟩ := List.mem_map.1 hw
  have hchanged := (List.mem_filter.1 hi).2
  simp [h] at hchanged

/-- R118: the points of a timer whose count changed. -/
theorem State.store_timerPoints {s t : State} {k : Nat} (hk : k < 32) (h : timerCount (s.timer k) ≠ timerCount (t.timer k)) :
    (t.store (timerPoints s t)).bit k = timerDone (t.timer k) ∧ (t.store (timerPoints s t)).word k = timerCount (t.timer k) := by
  have hmem : k ∈ (List.range Config.timerCount).filter fun i =>
      timerCount (s.timer i) != timerCount (t.timer i) || timerDone (s.timer i) != timerDone (t.timer i) :=
    List.mem_filter.2 ⟨List.mem_range.2 hk, by simp [h]⟩
  refine ⟨?_, ?_⟩
  · rw [State.bit_store, timerPoints, find_map_self (fun i => timerDone (t.timer i)), if_pos hmem]
    rfl
  · rw [State.word_store, timerPoints, find_map_self (fun i => timerCount (t.timer i)), if_pos hmem]
    rfl

section
variable {n : Nat} {a : Armed} (hsource : 32 ≤ a.source) (hreset : ∀ b, a.resetBit = some b → 32 ≤ b)
include hsource hreset

/-- R69: a chain whose notices hold done bits alone leaves the points of a timer that names none of them. -/
theorem State.deliver_points_low (limit : Nat) (s : State) (notice : Notice) (hn : ∀ e ∈ notice.edges, e.1 < 32)
    (ha : s.timer n = some a) :
    (s.deliver limit notice).bit n = s.bit n ∧ (s.deliver limit notice).word n = s.word n := by
  induction limit generalizing s notice with
  | zero =>
    unfold State.deliver
    split
    · exact ⟨rfl, rfl⟩
    · exact ⟨State.fireChange_bit .., State.fireChange_word ..⟩
  | succ limit ih =>
    unfold State.deliver
    split
    · exact ⟨rfl, rfl⟩
    · have htaken : (((s.fireChange notice).mapTimers (Armed.take notice (s.fireChange notice).bits (s.fireChange notice).clock))).timer n =
          (s.fireChange notice).timer n := by
        rw [State.timer_mapTimers, State.fireChange_timer, ha, Option.map_some, Armed.take_low notice _ _ a hn hsource hreset]
      have hkept : ((s.fireChange notice).timersTake notice).1.timer n = some a := by
        rw [State.timersTake_timer, State.fireChange_timer, ha, Option.map_some, Armed.take_low notice _ _ a hn hsource hreset]
      obtain ⟨hbit, hword⟩ := ih _ _ (State.timersTake_edges _ _) hkept
      refine ⟨hbit.trans ?_, hword.trans ?_⟩
      · unfold State.timersTake
        dsimp only
        rw [State.storeSystem_fst]
        exact (State.bit_store_ne _ _ n (timerPoints_bits_ne htaken)).trans (State.fireChange_bit s notice n)
      · unfold State.timersTake
        dsimp only
        rw [State.storeSystem_fst]
        exact (State.word_store_ne _ _ n (timerPoints_words_ne htaken)).trans (State.fireChange_word s notice n)

theorem State.writeTimers_points {s t : State} (ha : t.timer n = some a) :
    (s.writeTimers t).bit n = (t.store (timerPoints s t)).bit n ∧ (s.writeTimers t).word n = (t.store (timerPoints s t)).word n := by
  have hedges : ∀ e ∈ (t.storeSystem (timerPoints s t)).2.edges, e.1 < 32 := by
    intro e he
    rw [State.storeSystem_edges] at he
    obtain ⟨hafter, hbefore⟩ := (mem_bitEdges _ _ e.1 e.2).1 he
    by_contra hhigh
    refine hbefore (hafter ▸ (State.bit_store_ne t _ e.1 fun b hb heq => ?_).symm)
    have := timerPoints_bits_lt s t b hb
    omega
  obtain ⟨hbit, hword⟩ := State.deliver_points_low hsource hreset Config.chainLimit (t.storeSystem (timerPoints s t)).1
    (t.storeSystem (timerPoints s t)).2 hedges (by rw [State.storeSystem_fst]; exact ha)
  unfold State.writeTimers
  rw [State.writeSystem_eq, hbit, hword, State.storeSystem_fst]
  exact ⟨rfl, rfl⟩

end

/-! ## The tick event (R119) -/

/-- R119: the timers of a tick event. -/
def State.ticked (s : State) : State := { s with tickDue := false }.mapTimers (Armed.tick s.bits s.clock)

theorem State.tickEvent_of_due {s : State} (h : s.tickDue = true) :
    s.tickEvent = { s with tickDue := false }.writeTimers s.ticked := by
  rw [State.tickEvent, if_pos h]
  rfl

theorem State.timer_ticked (s : State) (n : Nat) : s.ticked.timer n = (s.timer n).map (Armed.tick s.bits s.clock) :=
  State.timer_mapTimers { s with tickDue := false } _ n

theorem Armed.ticksAt_iff (bits : Memory Bool) (c : Clock) (a : Armed) : a.ticksAt bits c = true ↔
    c.toNat % a.base.ms = 0 ∧ a.phase = .timing ∧ (∀ b, a.resetBit = some b → bits.read false b = false) ∧ a.timingSince ≠ c := by
  simp only [Armed.ticksAt, Armed.isHeld, Bool.and_eq_true, decide_eq_true_eq, beq_iff_eq, Bool.not_eq_true', bne_iff_ne,
    Option.any_eq_false, and_assoc]

theorem Armed.count1_of_below {a : Armed} (h : (a.count + 1).toNat < a.preset.toNat) : a.count1 = { a with count := a.count + 1 } := by
  rw [Armed.count1, if_neg (show ¬ a.preset ≤ a.count + 1 from Nat.not_le_of_lt h)]

theorem Armed.count1_of_reached {a : Armed} (h : a.count + 1 = a.preset) : a.count1 =
    { a with count := a.preset, done := a.kind != .offDelay, phase := if a.kind = .offDelay then .idle else .done } := by
  rw [Armed.count1, h, if_pos (show a.preset ≤ a.preset from Nat.le_refl _)]
  cases hkind : a.kind <;> rfl

theorem Half.ne_succ (c : Half) : c ≠ c + 1 := by
  intro h
  have hnat := congrArg BitVec.toNat h
  have hlt := c.isLt
  rw [BitVec.toNat_add, show (1 : Half).toNat = 1 from rfl] at hnat
  omega

section
variable {s : State}

/-- R118: a tick event in which no timer reaches its preset changes no done bit. -/
theorem State.tickEvent_of_quiet (hdue : s.tickDue = true) (hshows : s.showsTimers)
    (hquiet : ∀ n, n < 32 → timerDone (s.ticked.timer n) = timerDone (s.timer n)) :
    s.tickEvent = s.ticked.store (timerPoints s s.ticked) := by
  rw [State.tickEvent_of_due hdue]
  refine State.writeSystem_no_edges _ _ (State.bit_store_of_agree fun b hb => ?_)
  have hlt := timerPoints_bits_lt _ _ b hb
  obtain ⟨k, -, rfl⟩ := List.mem_map.1 hb
  exact ((hshows k hlt).1).trans (hquiet k hlt).symm

end

/-! ## Edges of a timer's bits (R120 to R124) -/

section
variable {gens : List Nat} {before after : Memory Bool} {c : Clock} {a : Armed}

theorem Armed.take_of_reset_rise {b : Nat} (hb : a.resetBit = some b) (hbefore : before.read false b = false)
    (hafter : after.read false b = true) : a.take ⟨gens, bitEdges before after⟩ after c = a.held := by
  rw [Armed.take, hb, Option.bind_some, edgeOf_bitEdges, hbefore, hafter]
  rfl

theorem Armed.take_of_reset_fall {b : Nat} (hb : a.resetBit = some b) (hbefore : before.read false b = true)
    (hafter : after.read false b = false) :
    a.take ⟨gens, bitEdges before after⟩ after c = if after.read false a.source then a.held.rise c else a.held := by
  rw [Armed.take, hb, Option.bind_some, edgeOf_bitEdges, hbefore, hafter]
  rfl

theorem Armed.take_of_reset_held {b : Nat} (hb : a.resetBit = some b) (hbefore : before.read false b = true)
    (hafter : after.read false b = true) : a.take ⟨gens, bitEdges before after⟩ after c = a := by
  have hheld : a.isHeld after = true := by rw [Armed.isHeld, hb, Option.any_some, hafter]
  rw [Armed.take, hb, Option.bind_some, edgeOf_bitEdges, hbefore, hafter, if_pos rfl, hheld]
  rfl

/-- R120 to R122: where the reset bit is 0 throughout, the source's edge decides. -/
theorem Armed.take_of_no_reset (hreset : ∀ b, a.resetBit = some b → before.read false b = false ∧ after.read false b = false) :
    a.take ⟨gens, bitEdges before after⟩ after c =
      if before.read false a.source = after.read false a.source then a
      else if after.read false a.source then a.rise c else a.fall c := by
  have hedge : a.resetBit.bind (Notice.edgeOf ⟨gens, bitEdges before after⟩) = none := by
    cases hb : a.resetBit with
    | none => rfl
    | some b =>
      obtain ⟨hbefore, hafter⟩ := hreset b hb
      rw [Option.bind_some, edgeOf_bitEdges, hbefore, hafter, if_pos rfl]
  have hheld : a.isHeld after = false := by
    rw [Armed.isHeld, Option.any_eq_false]
    intro b hb
    rw [(hreset b hb).2]
  rw [Armed.take, hedge, hheld, edgeOf_bitEdges]
  dsimp only
  rw [if_neg Bool.false_ne_true]
  by_cases hsame : before.read false a.source = after.read false a.source
  · rw [if_pos hsame, if_pos hsame]
  · rw [if_neg hsame, if_neg hsame]
    cases after.read false a.source <;> rfl

end

/-! ## A PUBLISH of an ONLINE port -/

theorem State.serves_of_online {s : State} {p : Port} {m : Membership} (hears : s.hears p) (h : s.ports.get p = .online m) :
    s.serves p m := ⟨hears, by rw [h]; rfl⟩

/-- R65: the points of items that a session may write lie in the definable area. -/
theorem State.definable_of_owned {s : State} {who : SessionRef} {items : List Points}
    (h : ∀ item ∈ items, s.notOwned who item = false) : (allPoints items).definable := by
  have hholding : ∀ item ∈ items, ∀ x ∈ s.holders item, x ≠ .system ∧ x ≠ .nothing := by
    intro item hitem x hx
    have howned := List.any_eq_false.1 (h item hitem) x hx
    refine ⟨?_, ?_⟩ <;> rintro rfl <;> exact howned rfl
  refine ⟨fun b hb => ?_, fun w hw => ?_⟩
  · obtain ⟨item, hitem, hb⟩ := List.mem_flatMap.1 hb
    have hx := (hholding item hitem _ (List.mem_append_left _ (List.mem_map.2 ⟨b, hb, rfl⟩))).1
    by_contra hlow
    exact hx (if_pos (show b.1 < Config.systemBits from Nat.lt_of_not_le hlow))
  · obtain ⟨item, hitem, hw⟩ := List.mem_flatMap.1 hw
    have hx := (hholding item hitem _ (List.mem_append_right _ (List.mem_map.2 ⟨w, hw, rfl⟩))).1
    by_contra hlow
    exact hx (if_pos (show w.1 < Config.systemWords from Nat.lt_of_not_le hlow))

section
variable {s : State} {n : Nat} {a : Armed}

theorem State.timer_ticked_of_tick (ha : s.timer n = some a) (hticks : a.ticksAt s.bits s.clock = true) :
    s.ticked.timer n = some a.count1 := by
  rw [State.timer_ticked, ha, Option.map_some, Armed.tick, if_pos hticks]

theorem State.timer_ticked_of_not (ha : s.timer n = some a) (hticks : ¬ a.ticksAt s.bits s.clock = true) :
    s.ticked.timer n = some a := by
  rw [State.timer_ticked, ha, Option.map_some, Armed.tick, if_neg hticks]

/-- R120 to R122: no done value changes where no timer reaches its preset. -/
theorem State.timerDone_ticked
    (hbelow : ∀ a, s.timer n = some a → a.ticksAt s.bits s.clock = true → (a.count + 1).toNat < a.preset.toNat) :
    timerDone (s.ticked.timer n) = timerDone (s.timer n) := by
  cases ha : s.timer n with
  | none => rw [State.timer_ticked, ha, Option.map_none]
  | some a =>
    by_cases hticks : a.ticksAt s.bits s.clock = true
    · rw [State.timer_ticked_of_tick ha hticks, Armed.count1_of_below (hbelow a ha hticks)]
      rfl
    · rw [State.timer_ticked_of_not ha hticks]

theorem State.tickEvent_settings (s : State) (k : Nat) :
    (s.tickEvent.timer k).map Armed.settings = (s.timer k).map Armed.settings := by
  unfold State.tickEvent
  split
  · unfold State.writeTimers
    rw [State.writeSystem_settings, State.timer_mapTimers, Option.map_map]
    refine congrArg (Option.map · (s.timer k)) (funext fun a => ?_)
    exact a.settings_tick _ _
  · rfl

/-- R119 to R122: a timer that reaches its preset, and names no done bit, shows so. -/
theorem State.tickEvent_reached (hdue : s.tickDue = true) (hn : n < 32) (ha : s.timer n = some a)
    (hticks : a.ticksAt s.bits s.clock = true) (hreached : a.count + 1 = a.preset) (hsource : 32 ≤ a.source)
    (hreset : ∀ b, a.resetBit = some b → 32 ≤ b) :
    s.tickEvent.timer n = some a.count1 ∧ s.tickEvent.bit n = a.count1.done ∧ s.tickEvent.word n = a.count1.count := by
  have hticked := State.timer_ticked_of_tick ha hticks
  have hsettings := a.settings_count1
  simp only [Armed.settings, Prod.mk.injEq] at hsettings
  obtain ⟨-, hsource', hreset', -⟩ := hsettings
  have hsource : 32 ≤ a.count1.source := hsource'.symm ▸ hsource
  have hreset : ∀ b, a.count1.resetBit = some b → 32 ≤ b := hreset'.symm ▸ hreset
  have hchanged : timerCount (({ s with tickDue := false } : State).timer n) ≠ timerCount (s.ticked.timer n) := by
    have hbefore : ({ s with tickDue := false } : State).timer n = some a := ha
    rw [hbefore, hticked, Armed.count1_of_reached hreached]
    show a.count ≠ a.preset
    rw [← hreached]
    exact Half.ne_succ a.count
  obtain ⟨hbit, hword⟩ := State.writeTimers_points (s := { s with tickDue := false }) hsource hreset hticked
  obtain ⟨hbit', hword'⟩ := State.store_timerPoints (s := { s with tickDue := false }) hn hchanged
  rw [State.tickEvent_of_due hdue]
  refine ⟨State.writeTimers_timer _ _ n _ hticked hsource hreset, hbit.trans (hbit'.trans ?_), hword.trans (hword'.trans ?_)⟩
  · rw [hticked]
    rfl
  · rw [hticked]
    rfl

end

/-- Settles O42. -/
theorem tickCountsTheTimingTimers : Obligations.TickCountsTheTimingTimers := by
  refine ⟨fun s => ⟨fun hdue => ?_, fun hdue => ?_⟩, fun s p m tag body items hears online hne hitems hgood => ?_⟩
  · exact congrArg Host.Outcome.next (by rw [State.tickEvent, if_neg (by rw [hdue]; exact Bool.false_ne_true)])
  · intro ticks
    have hticks : ∀ a : Armed, a.ticksAt s.bits s.clock = true ↔ ticks a := Armed.ticksAt_iff s.bits s.clock
    refine ⟨⟨_, rfl, ?_, ?_, s.tickEvent_settings⟩, fun hshows hbelow => ?_, fun n a hn ha h hreached hsource hreset => ?_⟩
    · rw [State.tickEvent_of_due hdue, State.writeTimers, State.writeSystem_tickDue]
      rfl
    · rw [State.tickEvent_of_due hdue, State.writeTimers, State.writeSystem_clock]
      rfl
    · have hquiet := State.tickEvent_of_quiet hdue hshows fun n hn =>
        State.timerDone_ticked fun a ha h => hbelow n a hn ha ((hticks a).1 h)
      have htimer : ∀ n, s.tickEvent.timer n = s.ticked.timer n := fun n => by rw [hquiet, State.store_timer]
      have hpoints : s.tickEvent.showsTimers := by
        rw [hquiet]
        exact State.showsTimers_storeTimers (t := s.ticked) hshows (fun _ => rfl) fun _ => rfl
      refine ⟨_, rfl, fun n hn => ⟨fun ha => ?_, fun a ha h => ?_, fun a ha h => ?_⟩⟩
      · rw [htimer, State.timer_ticked, ha, Option.map_none]
      · obtain ⟨hbit, hword⟩ := hpoints n hn
        have hcounted : s.tickEvent.timer n = some { a with count := a.count + 1 } := by
          rw [htimer, State.timer_ticked_of_tick ha ((hticks a).2 h), Armed.count1_of_below (hbelow n a hn ha h)]
        rw [hcounted] at hbit hword
        refine ⟨hcounted, hword, hbit.trans ?_⟩
        rw [(hshows n hn).1, ha]
        rfl
      · obtain ⟨hbit, hword⟩ := hpoints n hn
        obtain ⟨hbit', hword'⟩ := hshows n hn
        have hstands : s.tickEvent.timer n = some a := by
          rw [htimer, State.timer_ticked_of_not ha (mt (hticks a).1 h)]
        rw [hstands, ← ha] at hbit hword
        exact ⟨hstands, hword.trans hword'.symm, hbit.trans hbit'.symm⟩
    · obtain ⟨htimer, hbit, hword⟩ := State.tickEvent_reached hdue hn ha ((hticks a).2 h) hreached hsource hreset
      rw [Armed.count1_of_reached hreached] at htimer hbit hword
      exact ⟨_, rfl, htimer, hbit, hword⟩
  · intro after rise fall
    have serves := State.serves_of_online hears online
    have hexec := exec_publish_of_items serves tag hne hitems hgood
    rw [State.qualify_online s p m online] at hexec
    have hdefinable := State.definable_of_owned fun item hitem => (hgood item hitem).2
    refine ⟨_, hexec, fun hshows n hn => ?_, fun n hn => ?_, fun n a ha hsource hreset => ?_⟩
    · have hu : (s.setPort p (.online { m with deadline := monitorDeadline s.clock m.monitorTime })).showsTimers := hshows
      exact State.showsTimers_writeZones hu _ _ (fun b hb => by have := hdefinable.1 b hb; omega)
        (fun x hx => by have := hdefinable.2 x hx; omega) n hn
    · refine Option.map_eq_none_iff.1 ((State.writeZones_settings _ _ _ n).trans ?_)
      exact congrArg (Option.map Armed.settings) hn
    · intro held
      have hheld : a.held = held := by
        show Armed.held a = { a with count := 0, done := false, phase := if a.kind = .retain then .holding else .idle }
        cases hkind : a.kind <;> rw [Armed.held, hkind] <;> rfl
      have hrise : ∀ t, Armed.rise s.clock t = rise t := fun _ => rfl
      have hfall : ∀ t, Armed.fall s.clock t = fall t := fun _ => rfl
      have hafter : ∀ i, (s.store (allPoints items)).bits.read false i = after i := State.bit_store s (allPoints items)
      have htaken : ((s.setPort p (.online { m with deadline := monitorDeadline s.clock m.monitorTime })).writeZones (s.touched items)
          (allPoints items)).timer n = some (a.take ⟨s.touched items, bitEdges s.bits (s.store (allPoints items)).bits⟩
            (s.store (allPoints items)).bits s.clock) :=
        State.writeZones_timer (s.setPort p (.online { m with deadline := monitorDeadline s.clock m.monitorTime })) _ _ n a ha
          hsource hreset
      rw [State.replied_timer, htaken]
      refine ⟨fun b hb => ⟨fun hlow hhigh => ?_, fun hhigh hlow => ?_, fun hhigh hstays => ?_⟩, fun hnone => ?_⟩
      · rw [Armed.take_of_reset_rise hb hlow ((hafter b).trans hhigh), hheld]
      · rw [Armed.take_of_reset_fall hb hhigh ((hafter b).trans hlow), hheld, hafter, hrise]
      · rw [Armed.take_of_reset_held hb hhigh ((hafter b).trans hstays)]
      · rw [Armed.take_of_no_reset fun b hb => ⟨(hnone b hb).1, (hafter b).trans (hnone b hb).2⟩, hafter, hrise, hfall]
        have hbefore : s.bits.read false a.source = s.bit a.source := rfl
        rw [hbefore]
        refine ⟨fun hsame => ?_, fun hlow hhigh => ?_, fun hhigh hlow => ?_⟩
        · rw [hsame, if_pos rfl]
        · rw [hlow, hhigh, if_neg Bool.false_ne_true, if_pos rfl]
        · rw [hhigh, hlow, if_neg Bool.noConfusion, if_neg Bool.false_ne_true]

end Sys2Proof.Machine
end

section
/-! The takeover deadline (R93, R97) and the hold deadline (R111): a block's points and an internal raise in a free order (entry 5). -/

namespace Sys2Proof.Machine

/-! ## An internal raise and the points of other blocks (R173) -/

theorem State.raiseFault_bit (s : State) (n : Half) (o : Origin) (r : Half) {i : Nat} (hi : 32 ≤ i) (hpoints : i < 60 ∨ 63 < i) :
    (s.raiseFault n o r).bit i = s.bit i := by
  have hwritten : (s.writeFaults (s.enterFault n o r)).bit i = s.bit i := by
    rw [State.writeFaults, State.writeSystem_bit _ _ _ hi, State.bit_store_ne _ _ _ fun b hb => ?_]
    · rw [State.enterFault_frame]
      rfl
    · have := (faultPoints_range s (s.enterFault n o r)).1 b hb
      omega
  unfold State.raiseFault
  dsimp only
  split
  · exact hwritten
  all_goals exact (State.raiseFor_bit _ _ _ _ i).trans hwritten

theorem State.raiseFault_word (s : State) (n : Half) (o : Origin) (r : Half) {i : Nat} (hi : 32 ≤ i) (hpoints : i < 52 ∨ 53 < i) :
    (s.raiseFault n o r).word i = s.word i := by
  have hwritten : (s.writeFaults (s.enterFault n o r)).word i = s.word i := by
    rw [State.writeFaults, State.writeSystem_word _ _ _ hi, State.word_store_ne _ _ _ fun b hb => ?_]
    · rw [State.enterFault_frame]
      rfl
    · have := (faultPoints_range s (s.enterFault n o r)).2 b hb
      omega
  unfold State.raiseFault
  dsimp only
  split
  · exact hwritten
  all_goals exact (State.raiseFor_word _ _ _ _ i).trans hwritten

/-! ## A cause of a port's record with its details (R157) -/

/-- What a port's record shows of the causes of `c`, with a part of its details. -/
def State.shown {α : Type} (s : State) (q : Port) (c : CauseSet) (f : AttentionRecord → α) : Option (CauseSet × α) :=
  (s.attention.get q).map fun a => (a.pending &&& c, f a)

/-- The part of a record is one of its details. -/
def OfDetails {α : Type} (f : AttentionRecord → α) : Prop := ∀ a b : AttentionRecord, a.details = b.details → f a = f b

theorem map_fireWhere_ofDetails {α : Type} {f : AttentionRecord → α} (hf : OfDetails f) (sees : Watch → Bool)
    (o : Option AttentionRecord) : (o.map (AttentionRecord.fireWhere sees)).map f = o.map f := by
  rw [Option.map_map]
  exact congrArg (Option.map · o) (funext fun a => hf _ _ (a.details_fireWhere sees))

section
variable {α : Type} {c : CauseSet} {f : AttentionRecord → α} (hwatch : c &&& Cause.watch.bit = 0) (hf : OfDetails f)
include hwatch hf

theorem shown_fireWhere (sees : Watch → Bool) (o : Option AttentionRecord) :
    (o.map (AttentionRecord.fireWhere sees)).map (fun a => (a.pending &&& c, f a)) = o.map fun a => (a.pending &&& c, f a) := by
  rw [Option.map_map]
  refine congrArg (Option.map · o) (funext fun a => Prod.ext ?_ (hf _ _ (a.details_fireWhere sees)))
  show (a.fireWhere sees).pending &&& c = a.pending &&& c
  rcases AttentionRecord.pending_fireWhere sees a with h | h
  · rw [h]
  · rw [h, or_watch_and _ _ hwatch]

theorem shown_writes (q : Port) (x : Option (CauseSet × α)) : KeptByWrites fun t => t.shown q c f = x where
  store _ _ h := h
  systemZone _ _ h := h
  count t z h := by
    unfold State.countZone
    split <;> exact h
  fire t n h := by
    rw [State.shown, State.attention_fireChange, shown_fireWhere hwatch hf]
    exact h
  run _ _ h := h

theorem State.shown_fireOwnership (s : State) (q : Port) (zs : List Nat) : (s.fireOwnership zs).shown q c f = s.shown q c f := by
  rw [State.shown, State.attention_fireOwnership, shown_fireWhere hwatch hf]
  rfl

variable (hfault : Cause.fault.bit &&& c = 0)
include hfault

theorem State.shown_raiseFault (s : State) (q : Port) (n : Half) (o : Origin) (r : Half) :
    (s.raiseFault n o r).shown q c f = s.shown q c f := by
  have hwritten : (s.writeFaults (s.enterFault n o r)).shown q c f = s.shown q c f := by
    refine (shown_writes hwatch hf q _).writeSystem _ _ ?_
    rw [State.enterFault_frame]
    rfl
  have hraised : ∀ t : State, t.raiseFaultAttention.shown q c f = t.shown q c f := by
    intro t
    rw [State.shown, State.attention_raiseFaultAttention, Option.map_map]
    refine congrArg (Option.map · (t.attention.get q)) (funext fun a => Prod.ext ?_ (hf _ _ rfl))
    show (a.raise .fault .none).pending &&& c = a.pending &&& c
    rw [AttentionRecord.pending_raise, CauseSet.or_and_of_disjoint _ hfault]
  unfold State.raiseFault
  dsimp only
  split
  · exact hwritten
  all_goals exact (hraised _).trans hwritten

end

/-- R159: a raise at a port shows its cause. -/
theorem State.shown_raise_same {α : Type} (s : State) (c : Cause) (d : Detail) (q : Port) (f : AttentionRecord → α) :
    (s.raise c d q).shown q c.bit f = (s.attention.get q).map fun a => (c.bit, f (a.raise c d)) := by
  rw [State.shown, State.attention_raise, if_pos rfl, Option.map_map]
  refine congrArg (Option.map · (s.attention.get q)) (funext fun a => Prod.ext ?_ rfl)
  show (a.raise c d).pending &&& c.bit = c.bit
  rw [AttentionRecord.pending_raise, CauseSet.or_and_self]

theorem State.shown_raiseFor_same {α : Type} (s : State) (c : Cause) (d : Detail) {ps : List Port} (hps : ps.Nodup) {q : Port}
    (hq : q ∈ ps) (f : AttentionRecord → α) :
    (s.raiseFor c d ps).shown q c.bit f = (s.attention.get q).map fun a => (c.bit, f (a.raise c d)) := by
  rw [State.shown, State.attention_raiseFor _ _ _ _ hps, if_pos hq, Option.map_map]
  refine congrArg (Option.map · (s.attention.get q)) (funext fun a => Prod.ext ?_ rfl)
  show (a.raise c d).pending &&& c.bit = c.bit
  rw [AttentionRecord.pending_raise, CauseSet.or_and_self]

theorem State.shown_raise_other {α : Type} (s : State) (c c' : Cause) (d : Detail) {p q : Port} (h : q ≠ p) (f : AttentionRecord → α) :
    (s.raise c d p).shown q c'.bit f = s.shown q c'.bit f := by
  rw [State.shown, State.attention_raise, if_neg h]
  rfl

/-! ## A block's points and an internal raise (entry 5) -/

section
variable (s : State) {w : Points} {n : Nat}

/-- R70, R176: the actions of a deadline's event. -/
def raisingBlocks (w : Points) (n : Nat) : List (List Action) := [systemAction w, [.raise n]]

theorem mem_raisingBlocks {a : Action} (ha : a ∈ (raisingBlocks w n).flatten) : a = .system w ∨ a = .raise n := by
  rw [raisingBlocks, List.flatten_cons, List.flatten_cons, List.flatten_nil, List.append_nil, List.mem_append,
    List.mem_singleton] at ha
  exact ha.imp_left (mem_systemAction w a)

theorem systemAction_mem_raisingBlocks {a : Action} (ha : a ∈ systemAction w) : a ∈ (raisingBlocks w n).flatten := by
  simp [raisingBlocks, ha]

theorem State.zone_raisingBlocks (z : Nat) : (s.actFreely (raisingBlocks w n)).zone z = s.zone z := by
  refine State.actFreely_keeps (fun t => t.zone z = s.zone z) s _ (fun _ => rfl) fun a ha t ht => ?_
  rcases mem_raisingBlocks ha with rfl | rfl
  · exact (State.writeSystem_zone t w z).trans ht
  · exact (State.raiseFault_zone t _ _ _ z).trans ht

theorem State.raised_raisingBlocks : (s.actFreely (raisingBlocks w n)).raised (natHalf n) :=
  s.raised_actFreely _ (by simp [raisingBlocks])

theorem State.bit_raisingBlocks {i : Nat} (hi : 32 ≤ i) (hpoints : i < 60 ∨ 63 < i) :
    (s.actFreely (raisingBlocks w n)).bit i = (s.store w).bit i := by
  refine State.actFreely_bit (fun _ => True) s _ w i hi (fun _ => trivial) (fun _ => systemAction_mem_raisingBlocks)
    fun a ha t _ => ⟨trivial, ?_⟩
  rcases mem_raisingBlocks ha with rfl | rfl
  · exact .inl rfl
  · exact .inr (t.raiseFault_bit _ _ _ hi hpoints)

theorem State.word_raisingBlocks {i : Nat} (hi : 32 ≤ i) (hpoints : i < 52 ∨ 53 < i) :
    (s.actFreely (raisingBlocks w n)).word i = (s.store w).word i := by
  refine State.actFreely_word (fun _ => True) s _ w i hi (fun _ => trivial) (fun _ => systemAction_mem_raisingBlocks)
    fun a ha t _ => ⟨trivial, ?_⟩
  rcases mem_raisingBlocks ha with rfl | rfl
  · exact .inl rfl
  · exact .inr (t.raiseFault_word _ _ _ hi hpoints)

theorem State.shown_raisingBlocks {α : Type} {c : CauseSet} {f : AttentionRecord → α} (hwatch : c &&& Cause.watch.bit = 0)
    (hf : OfDetails f) (hfault : Cause.fault.bit &&& c = 0) (q : Port) :
    (s.actFreely (raisingBlocks w n)).shown q c f = s.shown q c f := by
  refine State.actFreely_keeps (fun t => t.shown q c f = s.shown q c f) s _ (fun _ => rfl) fun a ha t ht => ?_
  rcases mem_raisingBlocks ha with rfl | rfl
  · exact (shown_writes hwatch hf q _).writeSystem t w ht
  · exact (State.shown_raiseFault hwatch hf hfault t q _ _ _).trans ht

end

/-! ## The takeover deadline (R93) -/

section
variable {s : State} {z : Nat} {r : ZoneRecord} {d : Clock} (hr : s.zone z = some r) (hstatus : r.status = .handover d)
include hr hstatus

theorem State.takeoverExpiry_of_reached (hd : d = s.clock) : s.takeoverExpiry z = s.takeover z r := by
  have hreached : reached d s.clock = true := beq_iff_eq.2 hd
  simp only [State.takeoverExpiry, hr, hstatus, hreached, if_true]

theorem State.takeoverExpiry_of_not_reached (hd : d ≠ s.clock) : s.takeoverExpiry z = s := by
  have hreached : reached d s.clock = false := beq_eq_false_iff_ne.2 hd
  simp only [State.takeoverExpiry, hr, hstatus, hreached, Bool.false_eq_true, if_false]

end

theorem State.takeoverExpiry_of_none {s : State} {z : Nat} (h : ∀ r d, s.zone z = some r → r.status = .handover d → d ≠ s.clock) :
    s.takeoverExpiry z = s := by
  cases hr : s.zone z with
  | none => simp only [State.takeoverExpiry, hr]
  | some r =>
    cases hstatus : r.status with
    | handover d => exact State.takeoverExpiry_of_not_reached hr hstatus (h r d hr hstatus)
    | owned owner | vacant | orphaned => simp only [State.takeoverExpiry, hr, hstatus]

/-- R93: a zone in HANDOVER that becomes ORPHANED leaves bit 96+z for bit 64+z. -/
theorem zonePoints_orphaned {s : State} {z : Nat} {r : ZoneRecord} {d : Clock} (hlow : 1 ≤ z) (hhigh : z ≤ 31)
    (hr : s.zone z = some r) (hstatus : r.status = .handover d) :
    zonePoints s (s.setZone z (some { r with status := .orphaned })) = ⟨[(64 + z, true), (96 + z, false)], []⟩ := by
  have horphan : r.isOrphaned = false := by rw [ZoneRecord.isOrphaned, hstatus]
  have hhandover : r.isHandover = true := by rw [ZoneRecord.isHandover, hstatus]
  rw [zonePoints_setZone s z r _ hlow hhigh hr, horphan, hhandover]
  rfl

theorem ZoneRecord.mem_rightsPorts (r : ZoneRecord) (q : Port) : q ∈ r.rightsPorts ↔ portIn q r.rights = true := by
  simp only [ZoneRecord.rightsPorts, portsOf, List.mem_filter]
  exact ⟨fun h => h.2, fun h => ⟨by cases q <;> decide, h⟩⟩

theorem ZoneRecord.nodup_rightsPorts (r : ZoneRecord) : r.rightsPorts.Nodup := by
  unfold ZoneRecord.rightsPorts portsOf
  exact nodup_ports _

theorem State.eligibleStandby_of_online {s : State} {r : ZoneRecord} {q : Port} {m : Membership} (hstandby : r.standby = some q)
    (honline : s.ports.get q = .online m) : s.eligibleStandby r = some (m.on q) := by
  simp only [State.eligibleStandby, hstandby, State.session, honline]
  rfl

theorem State.eligibleStandby_eq_none {s : State} {r : ZoneRecord}
    (h : ∀ q m, r.standby = some q → s.ports.get q ≠ .online m) : s.eligibleStandby r = none := by
  unfold State.eligibleStandby
  split
  · rename_i q hq
    refine if_neg fun honline => ?_
    cases hrecord : s.ports.get q with
    | online m => exact h q m hq hrecord
    | offline | late m | lost => rw [hrecord] at honline; nomatch honline
  · rfl

theorem ZoneRecord.passTo_standby {r : ZoneRecord} {owner : SessionRef} (h : r.standby = some owner.port) :
    r.passTo owner = { r with status := .owned owner, tenure := r.tenure + 1, standby := none } := by
  rw [ZoneRecord.passTo, if_pos h]

theorem zones_ofDetails {α : Type} (g : BitVec 32 → α) : OfDetails fun a => g a.zones := fun _ _ h =>
  congrArg (fun d : CauseSet × Byte × Half × Half × Half × BitVec 32 × PortSet => g d.2.2.2.2.2.1) h

/-- Settles O33: to an ONLINE standby by the rule of a HANDOVER zone given away; else the points and the fault in either order. -/
theorem takeoverDeadlineActsOnTheStandby : Obligations.TakeoverDeadlineActsOnTheStandby := by
  intro s z hlow hhigh
  refine ⟨fun r d q mq hr hstatus hd hstandby honline => ?_, fun r d hr hstatus hd hnone => ?_,
    fun h => congrArg Host.Outcome.next (State.takeoverExpiry_of_none h)⟩
  · refine congrArg Host.Outcome.next ?_
    rw [State.takeoverExpiry_of_reached hr hstatus hd, State.takeover, State.eligibleStandby_of_online hstandby honline]
    refine (State.giveZone_of_handover ⟨hlow, hhigh, hr⟩ (mq.on q) hstatus).trans ?_
    rw [ZoneRecord.passTo_standby hstandby]
  · have hexpiry : s.takeoverExpiry z =
        ((((s.setZone z (some { r with status := .orphaned })).fireOwnership [z]).raiseFor .zone (.zone z) r.rightsPorts).actFreely
          (raisingBlocks ⟨[(64 + z, true), (96 + z, false)], []⟩ (4032 + z))) := by
      rw [State.takeoverExpiry_of_reached hr hstatus hd, State.takeover, State.eligibleStandby_eq_none hnone,
        ← zonePoints_orphaned hlow hhigh hr hstatus]
      rfl
    refine ⟨_, congrArg Host.Outcome.next hexpiry, ?_, fun z' hz' => ?_, ?_, ?_, State.raised_raisingBlocks _, fun q hq => ?_,
      fun i hi => ?_, ?_, ?_, ?_⟩
    · rw [State.zone_raisingBlocks, State.raiseFor_zone, State.fireOwnership_zone, State.zone_setZone_same]
    · rw [State.zone_raisingBlocks, State.raiseFor_zone, State.fireOwnership_zone, State.zone_setZone, if_neg hz']
    · rw [State.bit_raisingBlocks _ (by omega) (by omega), State.bit_store]
      simp
    · rw [State.bit_raisingBlocks _ (by omega) (by omega), State.bit_store]
      simp
    · refine (State.shown_raisingBlocks _ (c := Cause.zone.bit) (f := AttentionRecord.zones) (by decide) (zones_ofDetails id)
        (by decide) q).trans ?_
      refine (State.shown_raiseFor_same _ .zone (.zone z) r.nodup_rightsPorts ((r.mem_rightsPorts q).2 hq) _).trans ?_
      rw [State.attention_fireOwnership]
      exact map_fireWhere_ofDetails (zones_ofDetails fun zs => ((8 : CauseSet), zs ||| (1#32 <<< z))) _ _
    · rw [State.bit_raisingBlocks _ (by omega) (by omega), State.bit_store_ne _ _ i fun b hb heq => ?_, State.raiseFor_bit,
        State.fireOwnership_bit]
      · rfl
      · simp only [List.mem_cons, List.not_mem_nil, or_false] at hb
        rcases hb with rfl | rfl <;> omega
    · rw [State.actFreely_ports, State.raiseFor_ports, State.fireOwnership_ports]
      rfl
    · rw [State.actFreely_tokens, State.raiseFor_tokens, State.fireOwnership_tokens]
      rfl
    · rw [State.actFreely_exchange, State.raiseFor_exchange, State.fireOwnership_exchange]
      rfl

/-! ## The hold deadline (R111) -/

theorem State.holdExpiry_of_none {s : State} {n : Nat}
    (h : ∀ g d, (s.token n).hold = some g → g.deadline = some d → d ≠ s.clock) : s.holdExpiry n = s := by
  unfold State.holdExpiry
  split
  · rfl
  · rename_i g hg
    split
    · rfl
    · rename_i d hd
      exact if_neg fun hreached => h g d hg hd (beq_iff_eq.1 hreached)

theorem State.holdExpiry_of_reached {s : State} {n : Nat} {g : Hold} {d : Clock} (hg : (s.token n).hold = some g)
    (hdeadline : g.deadline = some d) (hd : d = s.clock) : s.holdExpiry n = s.revoke n (s.token n) g.holder := by
  have hreached : reached d s.clock = true := beq_iff_eq.2 hd
  simp only [State.holdExpiry, hg, hdeadline, hreached, if_true]

/-- R111: the records of a token revoked, before its points and the fault. -/
def State.revokeRecords (s : State) (n : Nat) (holder : SessionRef) : State :=
  ((s.setToken n ((s.token n).handOn true s.clock)).raise .token (.revoked n) holder.port).raiseGrant n (s.token n) true

theorem State.revokeRecords_of_head {s : State} {n : Nat} {holder w : SessionRef} {rest : List SessionRef}
    (h : (s.token n).waiters = w :: rest) : s.revokeRecords n holder =
      ((s.setToken n ({ s.token n with broken := true, waiters := rest }.grant w s.clock)).raise .token (.revoked n)
        holder.port).raise .token (.grantedBroken n) w.port := by
  rw [State.revokeRecords, Token.handOn_cons h]
  simp only [State.raiseGrant, h]
  rfl

theorem State.revokeRecords_of_nil {s : State} {n : Nat} {holder : SessionRef} (h : (s.token n).waiters = []) :
    s.revokeRecords n holder =
      (s.setToken n { s.token n with hold := none, broken := true }).raise .token (.revoked n) holder.port := by
  rw [State.revokeRecords, Token.handOn_nil h]
  simp only [State.raiseGrant, h]

theorem State.revokeRecords_frame (s : State) (n : Nat) (holder : SessionRef) : s.revokeRecords n holder =
    { s.setToken n ((s.token n).handOn true s.clock) with attention := (s.revokeRecords n holder).attention } := by
  unfold State.revokeRecords
  rw [State.raiseGrant_frame, State.raise_frame]

theorem State.revokeRecords_token (s : State) (n : Nat) (holder : SessionRef) (i : Nat) :
    (s.revokeRecords n holder).token i = if i = n then (s.token n).handOn true s.clock else s.token i := by
  rw [State.revokeRecords_frame]
  exact State.token_setToken s n i _

section
variable {s : State} {n : Nat} {g : Hold} (hn : n < 16) (hg : (s.token n).hold = some g)
  (hother : ∀ w ∈ (s.token n).waiters, w.port ≠ g.holder.port)
include hn hg hother

/-- R102, R111: the holder changes, and the token's points with it. -/
theorem State.revoke_eq : s.revoke n (s.token n) g.holder = (s.revokeRecords n g.holder).actFreely
    (raisingBlocks ⟨[(32 + n, ((s.token n).handOn true s.clock).hold.isSome)],
      [(32 + n, ((s.token n).handOn true s.clock).holderCode)]⟩ (4064 + n)) := by
  have hchange : (s.token n).hold.map Hold.holder ≠ ((s.token n).handOn true s.clock).hold.map Hold.holder := by
    rw [hg]
    cases hwaiters : (s.token n).waiters with
    | nil =>
      rw [Token.handOn_nil hwaiters]
      exact Option.some_ne_none _
    | cons w rest =>
      rw [Token.handOn_cons hwaiters, Token.grant_holder]
      intro heq
      have hport := hother w (hwaiters ▸ List.mem_cons_self)
      exact hport (congrArg SessionRef.port (Option.some.inj heq)).symm
  have hpoints := tokenPoints_setToken s n ((s.token n).handOn true s.clock) hn
  rw [if_neg hchange] at hpoints
  rw [← hpoints]
  rfl

end

theorem revoked_ofDetails {α : Type} (f : Half → α) : OfDetails fun a => f a.revoked := fun _ _ h =>
  congrArg (fun d : CauseSet × Byte × Half × Half × Half × BitVec 32 × PortSet => f d.2.2.2.2.1) h

theorem grantedBroken_ofDetails {α : Type} (f : Half → α) : OfDetails fun a => f a.grantedBroken := fun _ _ h =>
  congrArg (fun d : CauseSet × Byte × Half × Half × Half × BitVec 32 × PortSet => f d.2.2.2.1) h

/-- Settles O39: the token handed on, then its points and the fault in either order. -/
theorem holdDeadlineRevokesTheToken : Obligations.HoldDeadlineRevokesTheToken := by
  intro s n hn
  refine ⟨fun g d hg hdeadline hd hother => ?_, fun h => congrArg Host.Outcome.next (State.holdExpiry_of_none h)⟩
  have hexpiry := (State.holdExpiry_of_reached hg hdeadline hd).trans (State.revoke_eq hn hg hother)
  refine ⟨_, congrArg Host.Outcome.next hexpiry, ?_, State.raised_raisingBlocks _, fun n' hne => ?_, fun w rest hwaiters => ?_,
    fun hwaiters => ?_, fun z => ?_, ?_, ?_, ?_⟩
  · refine (State.shown_raisingBlocks _ (c := Cause.token.bit) (f := AttentionRecord.revoked) (by decide) (revoked_ofDetails id)
      (by decide) g.holder.port).trans ?_
    cases hwaiters : (s.token n).waiters with
    | nil =>
      rw [State.revokeRecords_of_nil hwaiters]
      exact State.shown_raise_same _ .token (.revoked n) _ _
    | cons w rest =>
      rw [State.revokeRecords_of_head hwaiters,
        State.shown_raise_other _ _ .token _ (hother w (hwaiters ▸ List.mem_cons_self)).symm]
      exact State.shown_raise_same _ .token (.revoked n) _ _
  · rw [State.actFreely_token, State.revokeRecords_token, if_neg hne]
  · have hport := hother w (hwaiters ▸ List.mem_cons_self)
    refine ⟨?_, ?_, ?_, ?_⟩
    · rw [State.actFreely_token, State.revokeRecords_token, if_pos rfl, Token.handOn_cons hwaiters]
      rfl
    · rw [State.bit_raisingBlocks _ (by omega) (by omega), State.bit_store, Token.handOn_cons hwaiters]
      simp [Token.grant]
    · rw [State.word_raisingBlocks _ (by omega) (by omega), State.word_store, Token.handOn_cons hwaiters]
      simp [Token.grant, Token.holderCode]
    · refine (State.shown_raisingBlocks _ (c := Cause.token.bit) (f := AttentionRecord.grantedBroken) (by decide)
        (grantedBroken_ofDetails id) (by decide) w.port).trans ?_
      rw [State.revokeRecords_of_head hwaiters]
      refine (State.shown_raise_same _ .token (.grantedBroken n) _ _).trans ?_
      rw [State.attention_raise, if_neg hport]
      rfl
  · refine ⟨?_, ?_, ?_⟩
    · rw [State.actFreely_token, State.revokeRecords_token, if_pos rfl, Token.handOn_nil hwaiters]
    · rw [State.bit_raisingBlocks _ (by omega) (by omega), State.bit_store, Token.handOn_nil hwaiters]
      simp
    · rw [State.word_raisingBlocks _ (by omega) (by omega), State.word_store, Token.handOn_nil hwaiters]
      simp [Token.holderCode]
  · rw [State.zone_raisingBlocks, State.revokeRecords_frame]
    rfl
  · rw [State.actFreely_ports, State.revokeRecords_frame]
    rfl
  · rw [State.actFreely_exchange, State.revokeRecords_frame]
    rfl
  · rw [State.actFreely_links, State.revokeRecords_frame]
    rfl

end Sys2Proof.Machine
end

section
/-! What a loss policy leaves of a zone (R71, R88), and the zones at a warm reset (R98). -/

namespace Sys2Proof.Machine

/-! ## The points of a loss policy (R71, R88) -/

/-- R71: the points that a loss policy writes, none for HOLD. -/
def ZoneRecord.policyWrite (r : ZoneRecord) : Points := r.policyPoints.getD ⟨[], []⟩

theorem mem_indices_zip {β : Type} (first count : Nat) (values : List β) (k : Nat) (v : β) :
    (k, v) ∈ ((List.range count).map (first + ·)).zip values ↔ ∃ i, i < count ∧ k = first + i ∧ values[i]? = some v := by
  rw [List.mem_iff_getElem?]
  refine exists_congr fun i => ?_
  rw [List.getElem?_zip_eq_some, List.getElem?_map]
  constructor
  · rintro ⟨hindex, hvalue⟩
    obtain ⟨j, hj, heq⟩ := Option.map_eq_some_iff.1 hindex
    obtain ⟨hlt, rfl⟩ := List.getElem?_eq_some_iff.1 hj
    rw [List.getElem_range] at heq
    rw [List.length_range] at hlt
    exact ⟨hlt, heq.symm, hvalue⟩
  · rintro ⟨hlt, rfl, hvalue⟩
    exact ⟨by rw [List.getElem?_range hlt]; rfl, hvalue⟩

section
variable {s t : State} {r : ZoneRecord}

/-- R74: a point of a loaded safe image has the image's value. -/
theorem State.bit_store_image (s : State) {first count i : Nat} {values : List Bool} {words : List (Nat × Half)} {v : Bool}
    (hi : i < count) (hv : values[i]? = some v) :
    (s.store ⟨((List.range count).map (first + ·)).zip values, words⟩).bit (first + i) = v := by
  refine Memory.read_writeAll_of_mem false _ s.bits _ v ((mem_indices_zip first count values _ v).2 ⟨i, hi, rfl, hv⟩) ?_
  rintro ⟨k, v'⟩ hmem hk
  obtain ⟨j, hj, hkj, hv'⟩ := (mem_indices_zip first count values k v').1 hmem
  obtain rfl : i = j := by dsimp only at hk; omega
  exact Option.some.inj (hv'.symm.trans hv)

theorem State.word_store_image (s : State) {first count i : Nat} {values : List Half} {bits : List (Nat × Bool)} {v : Half}
    (hi : i < count) (hv : values[i]? = some v) :
    (s.store ⟨bits, ((List.range count).map (first + ·)).zip values⟩).word (first + i) = v := by
  refine Memory.read_writeAll_of_mem 0 _ s.words _ v ((mem_indices_zip first count values _ v).2 ⟨i, hi, rfl, hv⟩) ?_
  rintro ⟨k, v'⟩ hmem hk
  obtain ⟨j, hj, hkj, hv'⟩ := (mem_indices_zip first count values k v').1 hmem
  obtain rfl : i = j := by dsimp only at hk; omega
  exact Option.some.inj (hv'.symm.trans hv)

/-- R88: the points of a zone that stand as its policy's write leaves them. -/
theorem ZoneRecord.policyLeaves_of (hbit : ∀ i, r.hasBit i = true → t.bit i = (s.store r.policyWrite).bit i)
    (hword : ∀ i, r.hasWord i = true → t.word i = (s.store r.policyWrite).word i) : r.policyLeaves s t := by
  have hzeros : r.policyPoints = some r.zeros →
      (∀ i, r.hasBit i = true → t.bit i = false) ∧ ∀ i, r.hasWord i = true → t.word i = 0 := by
    intro hpoints
    rw [ZoneRecord.policyWrite, hpoints] at hbit hword
    exact ⟨fun i hi => (hbit i hi).trans ((s.bit_store_zeros r i).trans (if_pos hi)),
      fun i hi => (hword i hi).trans ((s.word_store_zeros r i).trans (if_pos hi))⟩
  refine ⟨fun hhold => ?_, fun hclear => hzeros ?_, fun g hsubstitute hloaded => ?_⟩
  · have hpoints : r.policyPoints = none := by simp only [ZoneRecord.policyPoints, hhold]
    rw [ZoneRecord.policyWrite, hpoints] at hbit hword
    exact ⟨hbit, hword⟩
  · rcases hclear with hclear | ⟨g, hsubstitute, hloaded⟩
    · simp only [ZoneRecord.policyPoints, hclear]
    · simp only [ZoneRecord.policyPoints, hsubstitute, hloaded, Bool.false_eq_true, if_false]
  · have hpoints : r.policyPoints = some ⟨r.bitIndices.zip g.bits, r.wordIndices.zip g.words⟩ := by
      simp only [ZoneRecord.policyPoints, hsubstitute, hloaded, if_true]
    rw [ZoneRecord.policyWrite, hpoints] at hbit hword
    refine ⟨fun i v hi hv => ?_, fun i v hi hv => ?_⟩
    · refine (hbit _ ?_).trans (s.bit_store_image hi hv)
      rw [ZoneRecord.hasBit, decide_eq_true_iff]
      omega
    · refine (hword _ ?_).trans (s.word_store_image hi hv)
      rw [ZoneRecord.hasWord, decide_eq_true_iff]
      omega

theorem ZoneRecord.policyWrite_within (r : ZoneRecord) :
    (∀ b ∈ r.policyWrite.bits, r.hasBit b.1 = true) ∧ ∀ w ∈ r.policyWrite.words, r.hasWord w.1 = true := by
  cases hpoints : r.policyPoints with
  | none => simp [ZoneRecord.policyWrite, hpoints]
  | some w =>
    rw [ZoneRecord.policyWrite, hpoints]
    exact ZoneRecord.policyPoints_within (.inr hpoints)

end

/-! ## Zones with no point in common (R48) -/

theorem ZoneRecord.hasBit_of_apart {r q : ZoneRecord} (h : r.apartFrom q = true) {i : Nat} (hr : r.hasBit i = true) :
    q.hasBit i = false := by
  simp only [ZoneRecord.apartFrom, rangesMeet, Bool.and_eq_true, Bool.not_eq_true', decide_eq_false_iff_not] at h
  simp only [ZoneRecord.hasBit, decide_eq_true_eq, decide_eq_false_iff_not] at hr ⊢
  omega

theorem ZoneRecord.hasWord_of_apart {r q : ZoneRecord} (h : r.apartFrom q = true) {i : Nat} (hr : r.hasWord i = true) :
    q.hasWord i = false := by
  simp only [ZoneRecord.apartFrom, rangesMeet, Bool.and_eq_true, Bool.not_eq_true', decide_eq_false_iff_not] at h
  simp only [ZoneRecord.hasWord, decide_eq_true_eq, decide_eq_false_iff_not] at hr ⊢
  omega

/-! ## A zone at a warm reset (R98) -/

section
variable {s : State} {z : Nat}

theorem State.zoneWarmReset_of_none (h : s.zone z = none) : s.zoneWarmReset z = s := by
  simp only [State.zoneWarmReset, h]

theorem State.zoneWarmReset_of_hold {r : ZoneRecord} (hr : s.zone z = some r) (hpoints : r.policyPoints = none) :
    s.zoneWarmReset z = s.setZone z (some r.warmReset) := by
  simp only [State.zoneWarmReset, hr, hpoints, Option.map_some]

theorem State.zoneWarmReset_of_write {r : ZoneRecord} (hr : s.zone z = some r) {w : Points} (hpoints : r.policyPoints = some w) :
    s.zoneWarmReset z = (s.storeCounted [z] w).1.setZone z (some (r.counted s.clock s.epoch).warmReset) := by
  have hcounted : (s.storeCounted [z] w).1.zone z = some (r.counted s.clock s.epoch) := by
    refine (State.zone_foldl_countZone [z] (List.nodup_singleton z) (s.store w) z).trans ?_
    rw [if_pos List.mem_cons_self]
    exact congrArg (Option.map (ZoneRecord.counted s.clock s.epoch)) hr
  simp only [State.zoneWarmReset, hr, hpoints, hcounted, Option.map_some]

/-- R98: the record of one zone, and the write of its policy. -/
theorem State.zoneWarmReset_of_some {r : ZoneRecord} (hr : s.zone z = some r) :
    (∀ i, (s.zoneWarmReset z).zone i =
      if i = z then some (r.policyApplied s.clock s.epoch).warmReset else s.zone i) ∧
    (∀ i, (s.zoneWarmReset z).bit i = (s.store r.policyWrite).bit i) ∧
    ∀ i, (s.zoneWarmReset z).word i = (s.store r.policyWrite).word i := by
  cases hpoints : r.policyPoints with
  | none =>
    rw [State.zoneWarmReset_of_hold hr hpoints, ZoneRecord.policyApplied_eq, ZoneRecord.policyWrite, hpoints]
    exact ⟨fun i => State.zone_setZone .., fun _ => rfl, fun _ => rfl⟩
  | some w =>
    rw [State.zoneWarmReset_of_write hr hpoints, ZoneRecord.policyApplied_eq, ZoneRecord.policyWrite, hpoints]
    refine ⟨fun i => ?_, fun i => ?_, fun i => ?_⟩
    · rw [State.zone_setZone]
      by_cases hi : i = z
      · rw [if_pos hi, if_pos hi]
        rfl
      · rw [if_neg hi, if_neg hi]
        refine (State.zone_foldl_countZone [z] (List.nodup_singleton z) (s.store w) i).trans ?_
        rw [if_neg (by simpa using hi)]
        rfl
    · rw [State.storeCounted_fst]
      rfl
    · rw [State.storeCounted_fst]
      rfl

theorem State.zoneWarmReset_frame (s : State) (z : Nat) : s.zoneWarmReset z =
    { s with
        zones := (s.zoneWarmReset z).zones
        bits := (s.zoneWarmReset z).bits
        words := (s.zoneWarmReset z).words } := by
  cases hr : s.zone z with
  | none => rw [State.zoneWarmReset_of_none hr]
  | some r =>
    cases hpoints : r.policyPoints with
    | none =>
      rw [State.zoneWarmReset_of_hold hr hpoints]
      rfl
    | some w =>
      rw [State.zoneWarmReset_of_write hr hpoints, State.storeCounted_fst]
      rfl

/-- R98: a zone's own reset leaves the other zones. -/
theorem State.zone_zoneWarmReset_ne {i : Nat} (h : i ≠ z) : (s.zoneWarmReset z).zone i = s.zone i := by
  cases hr : s.zone z with
  | none => rw [State.zoneWarmReset_of_none hr]
  | some r => rw [(State.zoneWarmReset_of_some hr).1, if_neg h]

/-- R48, R98: a zone's own reset leaves the points of a zone apart from it. -/
theorem State.zoneWarmReset_apart {r : ZoneRecord} (h : ∀ q, s.zone z = some q → r.apartFrom q = true) :
    (∀ i, r.hasBit i = true → (s.zoneWarmReset z).bit i = s.bit i) ∧
    ∀ i, r.hasWord i = true → (s.zoneWarmReset z).word i = s.word i := by
  cases hq : s.zone z with
  | none =>
    rw [State.zoneWarmReset_of_none hq]
    exact ⟨fun _ _ => rfl, fun _ _ => rfl⟩
  | some q =>
    obtain ⟨-, hbit, hword⟩ := State.zoneWarmReset_of_some hq
    obtain ⟨hbits, hwords⟩ := q.policyWrite_within
    have hapart := h q hq
    refine ⟨fun i hi => (hbit i).trans (State.bit_store_ne _ _ _ fun b hb heq => ?_),
      fun i hi => (hword i).trans (State.word_store_ne _ _ _ fun x hx heq => ?_)⟩
    · have hown := hbits b hb
      rw [heq, ZoneRecord.hasBit_of_apart hapart hi] at hown
      exact Bool.false_ne_true hown
    · have hown := hwords x hx
      rw [heq, ZoneRecord.hasWord_of_apart hapart hi] at hown
      exact Bool.false_ne_true hown

end

/-! ## The zone table at a warm reset (R98) -/

theorem State.zonesWarmReset_frame (zs : List Nat) (s : State) : zs.foldl State.zoneWarmReset s =
    { s with
        zones := (zs.foldl State.zoneWarmReset s).zones
        bits := (zs.foldl State.zoneWarmReset s).bits
        words := (zs.foldl State.zoneWarmReset s).words } := by
  refine List.foldlRecOn (motive := fun t : State => t = { s with zones := t.zones, bits := t.bits, words := t.words }) zs
    State.zoneWarmReset rfl fun t ht z _ => ?_
  rw [State.zoneWarmReset_frame, ht]

theorem State.zonesWarmReset_zone (zs : List Nat) (hzs : zs.Nodup) (s : State) (i : Nat) :
    (zs.foldl State.zoneWarmReset s).zone i =
      if i ∈ zs then (s.zone i).map fun r => (r.policyApplied s.clock s.epoch).warmReset else s.zone i := by
  induction zs generalizing s with
  | nil => rfl
  | cons k rest ih =>
    obtain ⟨hk, hrest⟩ := List.nodup_cons.1 hzs
    have hframe := s.zoneWarmReset_frame k
    have hclock : (s.zoneWarmReset k).clock = s.clock := by rw [hframe]
    have hepoch : (s.zoneWarmReset k).epoch = s.epoch := by rw [hframe]
    rw [List.foldl_cons, ih hrest, hclock, hepoch]
    by_cases hi : i = k
    · subst hi
      rw [if_neg hk, if_pos List.mem_cons_self]
      cases hr : s.zone i with
      | none => rw [State.zoneWarmReset_of_none hr, hr, Option.map_none]
      | some r => rw [(State.zoneWarmReset_of_some hr).1, if_pos rfl, Option.map_some]
    · rw [State.zone_zoneWarmReset_ne hi]
      simp only [List.mem_cons, hi, false_or]

/-- R48, R98: the resets of zones that are apart from a zone leave its points. -/
theorem State.zonesWarmReset_apart {r : ZoneRecord} (zs : List Nat) (hzs : zs.Nodup) (s : State)
    (h : ∀ y ∈ zs, ∀ q, s.zone y = some q → r.apartFrom q = true) :
    (∀ i, r.hasBit i = true → (zs.foldl State.zoneWarmReset s).bit i = s.bit i) ∧
    ∀ i, r.hasWord i = true → (zs.foldl State.zoneWarmReset s).word i = s.word i := by
  induction zs generalizing s with
  | nil => exact ⟨fun _ _ => rfl, fun _ _ => rfl⟩
  | cons k rest ih =>
    obtain ⟨hk, hrest⟩ := List.nodup_cons.1 hzs
    obtain ⟨hbits, hwords⟩ := ih hrest (s.zoneWarmReset k) fun y hy q hq => by
      have hyk : y ≠ k := fun heq => hk (heq ▸ hy)
      rw [State.zone_zoneWarmReset_ne hyk] at hq
      exact h y (List.mem_cons_of_mem _ hy) q hq
    obtain ⟨hbit, hword⟩ := State.zoneWarmReset_apart (h k List.mem_cons_self)
    exact ⟨fun i hi => (hbits i hi).trans (hbit i hi), fun i hi => (hwords i hi).trans (hword i hi)⟩

/-- R98: the points of a zone stand after the resets as its own policy leaves them. -/
theorem State.zonesWarmReset_points {s : State} (hapart : s.zonesApart) {z : Nat} {r : ZoneRecord} (hz : z ∈ zoneNumbers)
    (hr : s.zone z = some r) :
    (∀ i, r.hasBit i = true → (zoneNumbers.foldl State.zoneWarmReset s).bit i = (s.store r.policyWrite).bit i) ∧
    ∀ i, r.hasWord i = true → (zoneNumbers.foldl State.zoneWarmReset s).word i = (s.store r.policyWrite).word i := by
  obtain ⟨before, after, hsplit⟩ := List.append_of_mem hz
  have hnodup := nodup_zoneNumbers
  rw [hsplit] at hnodup ⊢
  obtain ⟨hbefore, hrest, hdisjoint⟩ := List.nodup_append.1 hnodup
  obtain ⟨hz, hafter⟩ := List.nodup_cons.1 hrest
  have hother : ∀ y q, y ≠ z → s.zone y = some q → r.apartFrom q = true := fun y q hy hq => hapart z r y q hr hq (Ne.symm hy)
  have hne : ∀ y ∈ before, y ≠ z := fun y hy => hdisjoint y hy z List.mem_cons_self
  obtain ⟨hbit, hword⟩ := State.zonesWarmReset_apart before hbefore s fun y hy q hq => hother y q (hne y hy) hq
  rw [List.foldl_append, List.foldl_cons]
  have hzone : ∀ y, y ∉ before → (before.foldl State.zoneWarmReset s).zone y = s.zone y := fun y hy => by
    rw [State.zonesWarmReset_zone before hbefore, if_neg hy]
  generalize before.foldl State.zoneWarmReset s = u at hbit hword hzone ⊢
  obtain ⟨-, hownBit, hownWord⟩ := State.zoneWarmReset_of_some ((hzone z fun hmem => hne z hmem rfl).trans hr)
  obtain ⟨hbits, hwords⟩ := State.zonesWarmReset_apart (r := r) after hafter (u.zoneWarmReset z) fun y hy q hq => by
    have hyz : y ≠ z := fun heq => hz (heq ▸ hy)
    rw [State.zone_zoneWarmReset_ne hyz, hzone y fun hmem => hdisjoint y hmem y (List.mem_cons_of_mem _ hy) rfl] at hq
    exact hother y q hyz hq
  refine ⟨fun i hi => (hbits i hi).trans ((hownBit i).trans ?_), fun i hi => (hwords i hi).trans ((hownWord i).trans ?_)⟩
  · rw [State.bit_store, State.bit_store, hbit i hi]
  · rw [State.word_store, State.word_store, hword i hi]

end Sys2Proof.Machine
end

section
/-! The warm reset (R19): what its stages leave of each block, and then the obligation. -/

namespace Sys2Proof.Machine

/-! ## The stages by block (R19) -/

theorem State.bit_storeSystem (s : State) (w : Points) (i : Nat) : (s.storeSystem w).1.bit i = (s.store w).bit i := by
  rw [State.storeSystem_fst]
  rfl

theorem State.word_storeSystem (s : State) (w : Points) (i : Nat) : (s.storeSystem w).1.word i = (s.store w).word i := by
  rw [State.storeSystem_fst]
  rfl

theorem State.bit_store_of_mem {s : State} {w : Points} {i : Nat} {v : Bool} (hmem : (i, v) ∈ w.bits)
    (hagree : ∀ b ∈ w.bits, b.1 = i → b.2 = v) : (s.store w).bit i = v :=
  Memory.read_writeAll_of_mem false w.bits s.bits i v hmem hagree

theorem State.word_store_of_mem {s : State} {w : Points} {i : Nat} {v : Half} (hmem : (i, v) ∈ w.words)
    (hagree : ∀ x ∈ w.words, x.1 = i → x.2 = v) : (s.store w).word i = v :=
  Memory.read_writeAll_of_mem 0 w.words s.words i v hmem hagree

/-- R98: the warm reset up to the zone table. -/
def State.warmZones (s : State) : State := zoneNumbers.foldl State.zoneWarmReset s.resetClock.endAllSessions

theorem State.tokensWarmReset_frame (s : State) : s.tokensWarmReset = { s with tokens := s.tokensWarmReset.tokens } := by
  refine List.foldlRecOn (motive := fun t : State => t = { s with tokens := t.tokens }) _ _ rfl fun t ht n _ => ?_
  rw [State.setToken, ht]

/-- R19: what the warm reset's stages on zones, tokens and the image leave of the other blocks. -/
structure OtherBlocksKept (s t : State) : Prop where
  phase : t.phase = s.phase
  clock : t.clock = s.clock
  epoch : t.epoch = s.epoch
  counter : t.sessionCounter = s.sessionCounter
  links : t.links = s.links
  ports : t.ports = s.ports
  timers : t.timers = s.timers
  exchange : t.exchange = s.exchange
  attention : t.attention = s.attention
  faults : t.faults = s.faults
  overflow : t.overflow = s.overflow

namespace OtherBlocksKept

theorem trans {s t u : State} (h : OtherBlocksKept s t) (h' : OtherBlocksKept t u) : OtherBlocksKept s u :=
  ⟨h'.phase.trans h.phase, h'.clock.trans h.clock, h'.epoch.trans h.epoch, h'.counter.trans h.counter,
    h'.links.trans h.links, h'.ports.trans h.ports, h'.timers.trans h.timers, h'.exchange.trans h.exchange,
    h'.attention.trans h.attention, h'.faults.trans h.faults, h'.overflow.trans h.overflow⟩

theorem storeSystem (s : State) (w : Points) : OtherBlocksKept s (s.storeSystem w).1 := by
  rw [State.storeSystem_fst]
  exact ⟨rfl, rfl, rfl, rfl, rfl, rfl, rfl, rfl, rfl, rfl, rfl⟩

theorem tokensWarmReset (s : State) : OtherBlocksKept s s.tokensWarmReset := by
  rw [State.tokensWarmReset_frame]
  exact ⟨rfl, rfl, rfl, rfl, rfl, rfl, rfl, rfl, rfl, rfl, rfl⟩

theorem zonesWarmReset (zs : List Nat) (s : State) : OtherBlocksKept s (zs.foldl State.zoneWarmReset s) := by
  rw [State.zonesWarmReset_frame]
  exact ⟨rfl, rfl, rfl, rfl, rfl, rfl, rfl, rfl, rfl, rfl, rfl⟩

/-- R19: the blocks before the fault list. -/
theorem warmExchange (s : State) : OtherBlocksKept s.resetClock.endAllSessions s.warmExchange :=
  (zonesWarmReset zoneNumbers s.resetClock.endAllSessions).trans ((storeSystem _ _).trans ((storeSystem _ _).trans
    ((tokensWarmReset _).trans ((storeSystem _ _).trans (storeSystem _ _)))))

end OtherBlocksKept

/-- R182: what the entry of the reset's fault leaves of the other blocks. -/
theorem State.warmFaults_keeps (s : State) : s.warmFaults.phase = s.warmExchange.phase ∧
    s.warmFaults.clock = s.warmExchange.clock ∧ s.warmFaults.epoch = s.warmExchange.epoch ∧
    s.warmFaults.sessionCounter = s.warmExchange.sessionCounter ∧ s.warmFaults.links = s.warmExchange.links ∧
    s.warmFaults.ports = s.warmExchange.ports ∧ s.warmFaults.timers = s.warmExchange.timers ∧
    s.warmFaults.exchange = s.warmExchange.exchange ∧ s.warmFaults.attention = s.warmExchange.attention ∧
    s.warmFaults.zones = s.warmExchange.zones ∧ s.warmFaults.tokens = s.warmExchange.tokens := by
  unfold State.warmFaults
  generalize s.warmExchange = u
  generalize faultPoints u u.resetFault = w
  rw [State.storeSystem_fst, State.resetFault, State.enterFault_frame]
  exact ⟨rfl, rfl, rfl, rfl, rfl, rfl, rfl, rfl, rfl, rfl, rfl⟩

theorem State.warmFaults_faults (s : State) : s.warmFaults.faults = s.warmExchange.resetFault.faults ∧
    s.warmFaults.overflow = s.warmExchange.resetFault.overflow := by
  unfold State.warmFaults
  generalize s.warmExchange = u
  generalize faultPoints u u.resetFault = w
  rw [State.storeSystem_fst]
  exact ⟨rfl, rfl⟩

section
variable (u : State)

/-- R135: what the timer array's part leaves of the other blocks. -/
theorem State.timersWarmReset_keeps : u.timersWarmReset.phase = u.phase ∧ u.timersWarmReset.clock = u.clock ∧
    u.timersWarmReset.epoch = u.epoch ∧ u.timersWarmReset.sessionCounter = u.sessionCounter ∧
    u.timersWarmReset.links = u.links ∧ u.timersWarmReset.ports = u.ports ∧ u.timersWarmReset.exchange = u.exchange ∧
    u.timersWarmReset.zones = u.zones ∧ u.timersWarmReset.tokens = u.tokens := by
  unfold State.timersWarmReset
  simp only [State.writeSystem_phase, State.writeSystem_clock, State.writeSystem_epoch, State.writeSystem_sessionCounter,
    State.writeSystem_links, State.writeSystem_ports, State.writeSystem_exchange, State.writeSystem_zones,
    State.writeSystem_tokens]
  exact ⟨rfl, rfl, rfl, rfl, rfl, rfl, rfl, rfl, rfl⟩

theorem State.timersWarmReset_faults : u.timersWarmReset.faults = u.faults ∧ u.timersWarmReset.overflow = u.overflow := by
  unfold State.timersWarmReset
  simp only [State.writeSystem_faults, State.writeSystem_overflow]
  exact ⟨rfl, rfl⟩

theorem State.timersWarmReset_details (p : Port) : (u.timersWarmReset.attention.get p).map AttentionRecord.details =
    (u.attention.get p).map AttentionRecord.details := State.writeSystem_details ..

end

/-- R19: a warm reset of the blocks that no zone, no timer and no fault touches. -/
theorem State.warmReset_records (s : State) : s.warmReset.phase = .held ∧ s.warmReset.clock = 0 ∧
    s.warmReset.epoch = s.epoch + 1 ∧ s.warmReset.sessionCounter = s.sessionCounter ∧
    s.warmReset.links = s.resetClock.endAllSessions.links ∧ s.warmReset.ports = .fill .offline ∧
    s.warmReset.exchange = .reset := by
  have hkept := OtherBlocksKept.warmExchange s
  obtain ⟨hphase, hclock, hepoch, hcounter, hlinks, hports, -, hexchange, -⟩ := s.warmFaults_keeps
  obtain ⟨hphase', hclock', hepoch', hcounter', hlinks', hports', hexchange', -⟩ := s.warmFaults.timersWarmReset_keeps
  rw [State.warmReset_eq, hphase', hclock', hepoch', hcounter', hlinks', hports', hexchange', hphase, hclock, hepoch,
    hcounter, hlinks, hports, hexchange, hkept.phase, hkept.clock, hkept.epoch, hkept.counter, hkept.links, hkept.ports,
    hkept.exchange]
  exact ⟨rfl, rfl, rfl, rfl, rfl, rfl, rfl⟩

theorem State.attention_warmReset (s : State) (p : Port) : s.warmReset.attention.get p = none := by
  have hdetails := s.warmFaults.timersWarmReset_details p
  obtain ⟨-, -, -, -, -, -, -, -, hattention, -⟩ := s.warmFaults_keeps
  rw [hattention, (OtherBlocksKept.warmExchange s).attention, ← State.warmReset_eq] at hdetails
  exact Option.map_eq_none_iff.1 (hdetails.trans (congrArg (Option.map AttentionRecord.details) (PerPort.get_fill none p)))

/-! ## The zones and the tokens (R98, R115) -/

theorem State.zone_storeSystem (s : State) (w : Points) (i : Nat) : (s.storeSystem w).1.zone i = s.zone i := by
  rw [State.storeSystem_fst]
  rfl

theorem State.token_storeSystem (s : State) (w : Points) (i : Nat) : (s.storeSystem w).1.token i = s.token i := by
  rw [State.storeSystem_fst]
  rfl

theorem State.zone_tokensWarmReset (s : State) (i : Nat) : s.tokensWarmReset.zone i = s.zone i := by
  rw [State.tokensWarmReset_frame]
  generalize s.tokensWarmReset.tokens = m
  rfl

theorem State.zone_warmReset (s : State) (z : Nat) : s.warmReset.zone z = s.warmZones.zone z := by
  have hexchange : s.warmExchange.zone z = s.warmZones.zone z := by
    unfold State.warmExchange State.warmTokens
    dsimp only
    rw [State.zone_storeSystem, State.zone_storeSystem, State.zone_tokensWarmReset, State.zone_storeSystem,
      State.zone_storeSystem, State.warmZones]
  obtain ⟨-, -, -, -, -, -, -, -, -, hfaults, -⟩ := s.warmFaults_keeps
  obtain ⟨-, -, -, -, -, -, -, htimers, -⟩ := s.warmFaults.timersWarmReset_keeps
  rw [← hexchange, State.warmReset_eq, State.zone, htimers, hfaults, State.zone]

theorem State.warmZones_zone (s : State) {z : Nat} (hz : z ∈ zoneNumbers) :
    s.warmZones.zone z = (s.zone z).map fun r => (r.policyApplied 0 (s.epoch + 1)).warmReset :=
  (State.zonesWarmReset_zone zoneNumbers nodup_zoneNumbers _ z).trans (if_pos hz)

theorem State.token_warmReset (s : State) {n : Nat} (hn : n < Config.tokenCount) :
    s.warmReset.token n = { hold := none, limit := (s.token n).limit, waiters := [], broken := false } := by
  have hzones : s.warmZones.tokens = s.tokens := by
    unfold State.warmZones
    rw [State.zonesWarmReset_frame]
    rfl
  have hexchange : s.warmExchange.token n =
      { hold := none, limit := (s.token n).limit, waiters := [], broken := false } := by
    unfold State.warmExchange State.warmTokens
    dsimp only
    rw [State.token_storeSystem, State.token_storeSystem, State.token_tokensWarmReset _ hn, State.token_storeSystem,
      State.token_storeSystem]
    rw [State.token, ← State.warmZones, hzones]
    rfl
  obtain ⟨-, -, -, -, -, -, -, -, -, -, hfaults⟩ := s.warmFaults_keeps
  obtain ⟨-, -, -, -, -, -, -, -, htimers⟩ := s.warmFaults.timersWarmReset_keeps
  rw [← hexchange, State.warmReset_eq, State.token, htimers, hfaults, State.token]

theorem ZoneRecord.policyApplied_status (c : Clock) (e : Byte) (r : ZoneRecord) :
    (r.policyApplied c e).status = r.status ∧ (r.policyApplied c e).tenure = r.tenure := by
  unfold ZoneRecord.policyApplied
  split <;> exact ⟨rfl, rfl⟩

theorem ZoneRecord.warmReset_of_owned {r : ZoneRecord} {w : SessionRef} (h : r.status = .owned w) :
    r.warmReset = { r with status := .orphaned, tenure := r.tenure + 1 } := by
  simp only [ZoneRecord.warmReset, h]

theorem ZoneRecord.warmReset_of_not_owned {r : ZoneRecord} (h : ∀ w, r.status ≠ .owned w) :
    r.warmReset = { r with status := .orphaned } := by
  cases hstatus : r.status with
  | owned w => exact absurd hstatus (h w)
  | vacant => simp only [ZoneRecord.warmReset, hstatus]
  | handover w => simp only [ZoneRecord.warmReset, hstatus]
  | orphaned =>
    simp only [ZoneRecord.warmReset, hstatus]
    exact hstatus ▸ rfl

/-! ## The image (R98, R115, R135, R155) -/

theorem exchangeResetWords_bits : exchangeResetWords.bits = [] := rfl

theorem State.bit_resetFault (s : State) (i : Nat) : s.resetFault.bit i = s.bit i := by
  rw [State.resetFault, State.enterFault_frame]
  rfl

theorem State.word_resetFault (s : State) (i : Nat) : s.resetFault.word i = s.word i := by
  rw [State.resetFault, State.enterFault_frame]
  rfl

theorem allTimerPoints_lt (s : State) :
    (∀ b ∈ s.allTimerPoints.bits, b.1 < 32) ∧ ∀ x ∈ s.allTimerPoints.words, x.1 < 32 := by
  constructor
  · intro b hb
    obtain ⟨n, hn, rfl⟩ := List.mem_map.1 hb
    exact List.mem_range.1 hn
  · intro x hx
    obtain ⟨n, hn, rfl⟩ := List.mem_map.1 hx
    exact List.mem_range.1 hn

/-- R135: the timer array's part writes done bits and counts alone. -/
theorem State.timersWarmReset_image (s : State) {i : Nat} (hi : 32 ≤ i) :
    s.timersWarmReset.bit i = s.bit i ∧ s.timersWarmReset.word i = s.word i := by
  have hlow := allTimerPoints_lt (s.mapTimers fun a => a.restart.reevaluate s.bits)
  unfold State.timersWarmReset
  dsimp only
  rw [State.writeSystem_bit _ _ i hi, State.writeSystem_word _ _ i hi, State.bit_store_ne _ _ i fun b hb heq => ?_,
    State.word_store_ne _ _ i fun x hx heq => ?_]
  · exact ⟨rfl, rfl⟩
  · have := hlow.2 x hx
    omega
  · have := hlow.1 b hb
    omega

/-- R182: the reset's fault writes the points of the fault list alone. -/
theorem State.bit_warmFaults (s : State) {i : Nat} (hi : i < 60 ∨ 63 < i) : s.warmFaults.bit i = s.warmExchange.bit i := by
  unfold State.warmFaults
  generalize s.warmExchange = u
  rw [State.bit_storeSystem, State.bit_store_ne _ _ i fun b hb heq => by
    have := (faultPoints_range _ _).1 b hb
    omega]
  exact State.bit_resetFault u i

theorem State.word_warmFaults (s : State) {i : Nat} (hi : i < 52 ∨ 53 < i) :
    s.warmFaults.word i = s.warmExchange.word i := by
  unfold State.warmFaults
  generalize s.warmExchange = u
  rw [State.word_storeSystem, State.word_store_ne _ _ i fun x hx heq => by
    have := (faultPoints_range _ _).2 x hx
    omega]
  exact State.word_resetFault u i

theorem State.bit_warmExchange (s : State) (i : Nat) : s.warmExchange.bit i = s.warmTokens.bit i := by
  unfold State.warmExchange
  generalize s.warmTokens = u
  rw [State.bit_storeSystem, State.bit_store_ne _ _ i fun b hb => absurd hb List.not_mem_nil]

theorem State.word_warmExchange (s : State) {i : Nat} (hi : i < 54 ∨ 58 < i) :
    s.warmExchange.word i = s.warmTokens.word i := by
  unfold State.warmExchange
  generalize s.warmTokens = u
  rw [State.word_storeSystem, State.word_store_ne _ _ i fun x hx heq => by
    have := exchangeResetWords_range x hx
    omega]

/-- R115: the image as the zone table, the monitor and the token arbiter leave it. -/
theorem State.warmTokens_image (s : State) (i : Nat) :
    s.warmTokens.bit i = (((s.warmZones.store s.warmZones.orphanPoints).store monitorZeros).store tokenZeros).bit i ∧
    s.warmTokens.word i = (((s.warmZones.store s.warmZones.orphanPoints).store monitorZeros).store tokenZeros).word i := by
  unfold State.warmTokens
  dsimp only
  rw [← State.warmZones]
  generalize s.warmZones = u
  generalize u.orphanPoints = orphans
  generalize monitorZeros = monitor
  generalize tokenZeros = zeros
  rw [State.bit_storeSystem, State.word_storeSystem, State.tokensWarmReset_frame]
  generalize State.tokens _ = m
  rw [State.storeSystem_fst, State.storeSystem_fst]
  exact ⟨rfl, rfl⟩

end Sys2Proof.Machine
end

section
/-! The points after a warm reset, its timers and its fault list (R98, R115, R135, R155, R182), and then the obligation. -/

namespace Sys2Proof.Machine

/-! ## The system zone's points (R98, R115, R155) -/

theorem mem_tokenZeros {i : Nat} (hlow : 32 ≤ i) (hhigh : i < 48) : (i, false) ∈ tokenZeros.bits ∧ (i, 0) ∈ tokenZeros.words :=
  have hi : i - 32 ∈ List.range Config.tokenCount := List.mem_range.2 (show i - 32 < 16 by omega)
  have hsum : 32 + (i - 32) = i := by omega
  ⟨List.mem_map.2 ⟨i - 32, hi, by rw [hsum]⟩, List.mem_map.2 ⟨i - 32, hi, by rw [hsum]⟩⟩

theorem of_mem_tokenZeros : (∀ b ∈ tokenZeros.bits, b.1 < 48 ∧ b.2 = false) ∧ ∀ x ∈ tokenZeros.words, x.1 < 48 ∧ x.2 = 0 := by
  decide

theorem mem_monitorZeros {i : Nat} (hlow : 48 ≤ i) :
    (i < 60 → (i, false) ∈ monitorZeros.bits) ∧ (i < 52 → (i, 0) ∈ monitorZeros.words) :=
  have hsum : 48 + (i - 48) = i := by omega
  ⟨fun h => List.mem_map.2 ⟨i - 48, List.mem_range.2 (by omega), by rw [hsum]⟩,
    fun h => List.mem_map.2 ⟨i - 48, List.mem_range.2 (by omega), by rw [hsum]⟩⟩

theorem of_mem_monitorZeros :
    (∀ b ∈ monitorZeros.bits, b.1 < 60 ∧ b.2 = false) ∧ ∀ x ∈ monitorZeros.words, x.1 < 60 ∧ x.2 = 0 := by
  decide

theorem State.bit_warmReset (s : State) {i : Nat} (hlow : 32 ≤ i) (hi : i < 60 ∨ 63 < i) : s.warmReset.bit i =
    (((s.warmZones.store s.warmZones.orphanPoints).store monitorZeros).store tokenZeros).bit i := by
  rw [State.warmReset_eq, (State.timersWarmReset_image _ hlow).1, State.bit_warmFaults s hi, State.bit_warmExchange,
    (s.warmTokens_image i).1]

theorem State.word_warmReset (s : State) {i : Nat} (hlow : 32 ≤ i) (hi : i < 52 ∨ 58 < i) : s.warmReset.word i =
    (((s.warmZones.store s.warmZones.orphanPoints).store monitorZeros).store tokenZeros).word i := by
  rw [State.warmReset_eq, (State.timersWarmReset_image _ hlow).2, State.word_warmFaults s (by omega),
    State.word_warmExchange s (by omega), (s.warmTokens_image i).2]

/-- R38, R115: the points of the monitor and of the token arbiter. -/
theorem State.bit_warmReset_low (s : State) {i : Nat} (hlow : 32 ≤ i) (hhigh : i < 60) : s.warmReset.bit i = false := by
  rw [s.bit_warmReset hlow (.inl hhigh)]
  by_cases hi : i < 48
  · exact State.bit_store_of_mem (mem_tokenZeros hlow hi).1 fun b hb _ => (of_mem_tokenZeros.1 b hb).2
  · rw [State.bit_store_ne _ _ i fun b hb heq => by have := (of_mem_tokenZeros.1 b hb).1; omega]
    exact State.bit_store_of_mem ((mem_monitorZeros (by omega)).1 hhigh) fun b hb _ => (of_mem_monitorZeros.1 b hb).2

theorem State.word_warmReset_low (s : State) {i : Nat} (hlow : 32 ≤ i) (hhigh : i < 52) : s.warmReset.word i = 0 := by
  rw [s.word_warmReset hlow (.inl hhigh)]
  by_cases hi : i < 48
  · exact State.word_store_of_mem (mem_tokenZeros hlow hi).2 fun x hx _ => (of_mem_tokenZeros.2 x hx).2
  · rw [State.word_store_ne _ _ i fun x hx heq => by have := (of_mem_tokenZeros.2 x hx).1; omega]
    exact State.word_store_of_mem ((mem_monitorZeros (by omega)).2 hhigh) fun x hx _ => (of_mem_monitorZeros.2 x hx).2

/-- R155: the words of the exchange. -/
theorem State.word_warmReset_exchange (s : State) {x : Nat × Half} (hx : x ∈ exchangeResetWords.words) :
    s.warmReset.word x.1 = x.2 := by
  have hrange := exchangeResetWords_range x hx
  rw [State.warmReset_eq, (State.timersWarmReset_image _ (by omega)).2, State.word_warmFaults s (by omega)]
  unfold State.warmExchange
  generalize s.warmTokens = u
  rw [State.word_storeSystem]
  refine State.word_store_of_mem hx fun y hy heq => ?_
  have hnodup : ∀ a ∈ exchangeResetWords.words, ∀ b ∈ exchangeResetWords.words, a.1 = b.1 → a.2 = b.2 := by decide
  exact hnodup y hy x hx heq

theorem State.bit_warmReset_high (s : State) {i : Nat} (hi : 63 < i) :
    s.warmReset.bit i = (s.warmZones.store s.warmZones.orphanPoints).bit i := by
  rw [s.bit_warmReset (by omega) (.inr hi), State.bit_store_ne _ _ i fun b hb heq => ?_,
    State.bit_store_ne _ _ i fun b hb heq => ?_]
  · have := (of_mem_monitorZeros.1 b hb).1
    omega
  · have := (of_mem_tokenZeros.1 b hb).1
    omega

theorem State.mem_orphanPoints (s : State) (b : Nat × Bool) : b ∈ s.orphanPoints.bits ↔
    ∃ z, (1 ≤ z ∧ z ≤ 31) ∧ (b = (64 + z, (s.zone z).isSome) ∨ b = (96 + z, false)) := by
  simp only [State.orphanPoints, List.mem_append, List.mem_map, mem_zoneNumbers, ← exists_or, ← and_or_left, eq_comm]

/-- R98: bits 64+z and 96+z. -/
theorem State.bit_warmReset_orphan (s : State) {z : Nat} (hz : 1 ≤ z ∧ z ≤ 31) :
    s.warmReset.bit (64 + z) = (s.zone z).isSome ∧ s.warmReset.bit (96 + z) = false := by
  have hzone : (s.warmZones.zone z).isSome = (s.zone z).isSome := by
    rw [s.warmZones_zone ((mem_zoneNumbers z).2 hz), Option.isSome_map]
  rw [s.bit_warmReset_high (by omega), s.bit_warmReset_high (by omega), ← hzone]
  generalize s.warmZones = u
  constructor
  · refine State.bit_store_of_mem ((u.mem_orphanPoints _).2 ⟨z, hz, .inl rfl⟩) fun b hb heq => ?_
    obtain ⟨y, hy, rfl | rfl⟩ := (u.mem_orphanPoints b).1 hb
    · obtain rfl : y = z := by dsimp only at heq; omega
      rfl
    · exact absurd heq (by dsimp only; omega)
  · refine State.bit_store_of_mem ((u.mem_orphanPoints _).2 ⟨z, hz, .inr rfl⟩) fun b hb heq => ?_
    obtain ⟨y, hy, rfl | rfl⟩ := (u.mem_orphanPoints b).1 hb
    · exact absurd heq (by dsimp only; omega)
    · rfl

/-- R98: the definable area stands as the zones' own resets leave it. -/
theorem State.warmReset_definable (s : State) (i : Nat) : (128 ≤ i → s.warmReset.bit i = s.warmZones.bit i) ∧
    (64 ≤ i → s.warmReset.word i = s.warmZones.word i) := by
  constructor <;> intro hi
  · rw [s.bit_warmReset_high (by omega)]
    refine State.bit_store_ne _ _ i fun b hb heq => ?_
    obtain ⟨y, hy, rfl | rfl⟩ := (s.warmZones.mem_orphanPoints b).1 hb <;> (dsimp only at heq; omega)
  · rw [s.word_warmReset (by omega) (.inr (by omega)), State.word_store_ne _ _ i fun x hx heq => ?_,
      State.word_store_ne _ _ i fun x hx heq => ?_]
    · exact State.word_store_ne _ _ i fun x hx => absurd hx List.not_mem_nil
    · have := (of_mem_monitorZeros.2 x hx).1
      omega
    · have := (of_mem_tokenZeros.2 x hx).1
      omega

/-- R88, R98: the points of a zone at a warm reset. -/
theorem State.warmReset_policyLeaves {s : State} (harea : s.zonesInArea) (hapart : s.zonesApart) {z : Nat} {r : ZoneRecord}
    (hr : s.zone z = some r) : r.policyLeaves s s.warmReset := by
  obtain ⟨hlow, hhigh, hin⟩ := harea z r hr
  obtain ⟨hbits, hwords⟩ := State.zonesWarmReset_points (s := s.resetClock.endAllSessions) hapart
    ((mem_zoneNumbers z).2 ⟨hlow, hhigh⟩) hr
  refine ZoneRecord.policyLeaves_of (fun i hi => ?_) fun i hi => ?_
  · rw [(s.warmReset_definable i).1 (ZoneRecord.bit_of_inArea hin hi)]
    exact hbits i hi
  · rw [(s.warmReset_definable i).2 (Nat.le_trans (by decide) (ZoneRecord.word_of_inArea hin hi))]
    exact hwords i hi

end Sys2Proof.Machine
end

section
/-! The timers and the fault list at a warm reset (R135, R182), and then the obligation. -/

namespace Sys2Proof.Machine

/-! ## The timers (R135) -/

section
variable (bits : Memory Bool) (a : Armed)

theorem Armed.settings_restart : a.restart.settings = { a with session := none }.settings := by
  unfold Armed.restart
  split <;> rfl

theorem Armed.settings_reevaluate : (a.reevaluate bits).settings = a.settings := by
  unfold Armed.reevaluate
  split
  · rfl
  · split
    · split
      · rfl
      · split <;> rfl
    · split
      · exact Armed.settings_rise 0 a
      · rfl
    · split
      · exact Armed.settings_rise 0 a
      · rfl

/-- R135: how a timer restarts. -/
def Armed.restarted : Armed :=
  let held := a.isHeld bits
  let source := bits.read false a.source
  { a with
    session := none
    count := if held ∨ a.kind ≠ .retain then 0 else a.count
    done := !held && (match a.kind with | .delay => false | .offDelay => source | .retain => a.count == a.preset)
    phase :=
      match a.kind with
      | .delay => if !held && source then .timing else .idle
      | .offDelay => if !held && source then .on else .idle
      | .retain =>
        if held then .holding else if a.count = a.preset then .done else if source then .timing else .holding
    timingSince :=
      if !held && source && (a.kind == .delay || a.kind == .retain && a.count != a.preset) then 0
      else a.timingSince }

theorem Armed.reevaluate_restart : a.restart.reevaluate bits = a.restarted bits := by
  obtain ⟨kind, source, resetBit, base, preset, count, done, phase, since, session, undefined⟩ := a
  cases kind with
  | delay =>
    by_cases hheld : (resetBit.any fun b => bits.read false b) = true
    · simp [Armed.restart, Armed.reevaluate, Armed.restarted, Armed.isHeld, Armed.held, TimerKind.home, hheld]
    · by_cases hsource : bits.read false source = true
      · simp [Armed.restart, Armed.reevaluate, Armed.restarted, Armed.isHeld, Armed.rise, hheld, hsource]
      · simp [Armed.restart, Armed.reevaluate, Armed.restarted, Armed.isHeld, hheld, hsource]
  | offDelay =>
    by_cases hheld : (resetBit.any fun b => bits.read false b) = true
    · simp [Armed.restart, Armed.reevaluate, Armed.restarted, Armed.isHeld, Armed.held, TimerKind.home, hheld]
    · by_cases hsource : bits.read false source = true
      · simp [Armed.restart, Armed.reevaluate, Armed.restarted, Armed.isHeld, Armed.rise, hheld, hsource]
      · simp [Armed.restart, Armed.reevaluate, Armed.restarted, Armed.isHeld, hheld, hsource]
  | retain =>
    by_cases hheld : (resetBit.any fun b => bits.read false b) = true
    · simp [Armed.restart, Armed.reevaluate, Armed.restarted, Armed.isHeld, Armed.held, TimerKind.home, hheld]
    · by_cases hcount : count = preset
      · simp [Armed.restart, Armed.reevaluate, Armed.restarted, Armed.isHeld, hheld, hcount]
      · by_cases hsource : bits.read false source = true
        · simp [Armed.restart, Armed.reevaluate, Armed.restarted, Armed.isHeld, hheld, hcount, hsource]
        · simp [Armed.restart, Armed.reevaluate, Armed.restarted, Armed.isHeld, hheld, hcount, hsource]

end

theorem State.warmFaults_timer (s : State) (n : Nat) : s.warmFaults.timer n = s.timer n := by
  obtain ⟨-, -, -, -, -, -, htimers, -⟩ := s.warmFaults_keeps
  rw [State.timer, htimers, (OtherBlocksKept.warmExchange s).timers]
  rfl

/-- R135: a timer keeps its settings and is unattached. -/
theorem State.warmReset_settings (s : State) (n : Nat) : (s.warmReset.timer n).map Armed.settings =
    (s.timer n).map fun a => { a with session := none }.settings := by
  rw [State.warmReset_eq, ← s.warmFaults_timer n]
  generalize s.warmFaults = u
  unfold State.timersWarmReset
  rw [State.writeSystem_settings, State.timer_mapTimers, Option.map_map]
  refine Option.map_congr fun a _ => ?_
  exact (Armed.settings_reevaluate u.bits a.restart).trans a.settings_restart

/-- R69: a write of done bits leaves a timer that names none of them. -/
theorem State.writeSystem_timer_low {s : State} {w : Points} (hw : ∀ b ∈ w.bits, b.1 < 32) {n : Nat} {a : Armed}
    (ha : s.timer n = some a) (hsource : 32 ≤ a.source) (hreset : ∀ b, a.resetBit = some b → 32 ≤ b) :
    (s.writeSystem w).timer n = some a := by
  rw [State.writeSystem_eq]
  refine State.deliver_timer_low _ _ _ (fun e he => ?_) n a (by rw [State.storeSystem_fst]; exact ha) hsource hreset
  rw [State.storeSystem_edges] at he
  obtain ⟨hafter, hbefore⟩ := (mem_bitEdges _ _ e.1 e.2).1 he
  by_contra hhigh
  refine hbefore (hafter ▸ (State.bit_store_ne s w e.1 fun b hb heq => ?_).symm)
  have := hw b hb
  omega

/-- R135: a timer that names no done bit restarts against the bits as the reset leaves them. -/
theorem State.warmReset_timer {s : State} {n : Nat} {a : Armed} (ha : s.timer n = some a) (hsource : 32 ≤ a.source)
    (hreset : ∀ b, a.resetBit = some b → 32 ≤ b) : s.warmReset.timer n = some (a.restarted s.warmReset.bits) := by
  rw [← s.warmFaults_timer n] at ha
  rw [State.warmReset_eq]
  generalize s.warmFaults = u at ha
  have hread : ∀ i, 32 ≤ i → u.timersWarmReset.bits.read false i = u.bits.read false i := fun i hi =>
    (u.timersWarmReset_image hi).1
  have hheld : a.isHeld u.timersWarmReset.bits = a.isHeld u.bits := by
    unfold Armed.isHeld
    cases hr : a.resetBit with
    | none => rfl
    | some b => exact hread b (hreset b hr)
  have hrestarted : a.restarted u.timersWarmReset.bits = a.restarted u.bits := by
    simp only [Armed.restarted, hheld, hread a.source hsource]
  rw [hrestarted, ← a.reevaluate_restart]
  refine State.writeSystem_timer_low (allTimerPoints_lt _).1 ?_ ?_ ?_
  · rw [State.timer_mapTimers, ha, Option.map_some]
  · rw [a.reevaluate_restart]
    exact hsource
  · rw [a.reevaluate_restart]
    exact hreset

/-! ## The fault list (R182) -/

theorem State.warmReset_faults (s : State) : s.warmReset.faults = s.warmExchange.resetFault.faults ∧
    s.warmReset.overflow = s.warmExchange.resetFault.overflow := by
  rw [State.warmReset_eq, s.warmFaults.timersWarmReset_faults.1, s.warmFaults.timersWarmReset_faults.2]
  exact s.warmFaults_faults

section
variable {s : State}

theorem State.warmReset_faults_of_listed {before after : List FaultEntry} {e : FaultEntry}
    (hlist : s.faults = before ++ e :: after) (hnumber : e.number = 4088) (hother : ∀ f ∈ before ++ after, f.number ≠ 4088) :
    s.warmReset.overflow = s.overflow ∧ s.warmReset.faults = before ++ e.again 0 (s.epoch + 1) :: after := by
  have hkept := OtherBlocksKept.warmExchange s
  obtain ⟨hfaults, hoverflow⟩ := s.warmReset_faults
  have hlist' : s.warmExchange.faults = before ++ e :: after := hkept.faults.trans hlist
  have hkind : s.warmExchange.raiseKind 4088 = .repeated := State.raiseKind_of_listed ⟨e, by rw [hlist']; simp, hnumber⟩
  rw [hfaults, hoverflow, State.resetFault, State.overflow_enterFault_of_entered (by rw [hkind]; nofun),
    State.faults_enterFault_of_listed hlist' hnumber hother, hkept.overflow, hkept.clock, hkept.epoch]
  exact ⟨rfl, rfl⟩

theorem State.warmReset_faults_of_room (hnew : ∀ f ∈ s.faults, f.number ≠ 4088) (hroom : s.faults.length < 16) :
    s.warmReset.overflow = s.overflow ∧
    s.warmReset.faults = s.faults ++ [.new 4088 .part 0 0 (s.epoch + 1) s.faults.isEmpty] := by
  have hkept := OtherBlocksKept.warmExchange s
  obtain ⟨hfaults, hoverflow⟩ := s.warmReset_faults
  have hkind : s.warmExchange.raiseKind 4088 = .append :=
    State.raiseKind_of_room (by rw [hkept.faults]; exact hnew) (by rw [hkept.faults]; exact hroom)
  rw [hfaults, hoverflow, State.resetFault, State.overflow_enterFault_of_entered (by rw [hkind]; nofun),
    State.faults_enterFault_of_room hkind, hkept.overflow, hkept.clock, hkept.epoch, hkept.faults]
  exact ⟨rfl, rfl⟩

theorem State.warmReset_faults_of_full (hnew : ∀ f ∈ s.faults, f.number ≠ 4088) (hfull : 16 ≤ s.faults.length) :
    s.warmReset.overflow = satInc s.overflow ∧ s.warmReset.faults = s.faults := by
  have hkept := OtherBlocksKept.warmExchange s
  obtain ⟨hfaults, hoverflow⟩ := s.warmReset_faults
  have hkind : s.warmExchange.raiseKind 4088 = .full :=
    State.raiseKind_of_full (by rw [hkept.faults]; exact hnew) (by rw [hkept.faults]; exact hfull)
  rw [hfaults, hoverflow, State.resetFault, State.enterFault_of_full hkind, hkept.overflow, hkept.faults]
  exact ⟨rfl, rfl⟩

end

/-! ## The obligation -/

theorem exec_warmReset (s : State) : exec .warmReset s = .next (if s.phase = .running then s.warmReset else s) := rfl

theorem State.warmReset_link (s : State) (p : Port) : s.warmReset.links.get p = (s.links.get p).warmReset := by
  obtain ⟨-, -, -, -, hlinks, -⟩ := s.warmReset_records
  rw [hlinks]
  cases p <;> rfl

/-- R98: the record of a zone at a warm reset. -/
theorem State.warmReset_zone {s : State} {z : Nat} (hz : 1 ≤ z ∧ z ≤ 31) : s.warmReset.zone z =
    (s.zone z).map fun r => (r.policyApplied 0 (s.epoch + 1)).warmReset :=
  (s.zone_warmReset z).trans (s.warmZones_zone ((mem_zoneNumbers z).2 hz))

/-- R98: the record that a warm reset leaves, by its status before. -/
theorem ZoneRecord.warmReset_policyApplied (r : ZoneRecord) (c : Clock) (e : Byte) : (r.policyApplied c e).warmReset =
    { r.policyApplied c e with
      status := .orphaned
      tenure := match r.status with | .owned _ => r.tenure + 1 | _ => r.tenure } := by
  obtain ⟨hstatus, htenure⟩ := r.policyApplied_status c e
  cases hr : r.status with
  | owned w => rw [ZoneRecord.warmReset_of_owned (hstatus.trans hr), htenure]
  | vacant => rw [ZoneRecord.warmReset_of_not_owned fun w hw => (nomatch (hstatus.trans hr).symm.trans hw), ← htenure]
  | handover => rw [ZoneRecord.warmReset_of_not_owned fun w hw => (nomatch (hstatus.trans hr).symm.trans hw), ← htenure]
  | orphaned => rw [ZoneRecord.warmReset_of_not_owned fun w hw => (nomatch (hstatus.trans hr).symm.trans hw), ← htenure]

/-- Settles O52, block by block along the stages of the reset. -/
theorem warmResetKeepsAndDrops : Obligations.WarmResetKeepsAndDrops := by
  intro s
  refine ⟨fun hphase => by rw [exec_warmReset, if_neg hphase], fun hphase => ?_⟩
  obtain ⟨hheld, hclock, hepoch, hcounter, -, hports, hexchange⟩ := s.warmReset_records
  refine ⟨s.warmReset, by rw [exec_warmReset, if_pos hphase], hheld, hclock, hepoch, hcounter,
    fun p => ⟨by rw [hports, PerPort.get_fill], s.attention_warmReset p, ?_⟩, hexchange, fun p => ?_, fun z hlow hhigh => ⟨fun hnone => ?_,
      fun r hr => ⟨?_, fun harea hapart => State.warmReset_policyLeaves harea hapart hr⟩⟩, fun n hn => s.token_warmReset hn,
    s.warmReset_settings, ?_, fun n a ha hsource hreset => State.warmReset_timer ha hsource hreset,
    fun before after e hlist hnumber hother => State.warmReset_faults_of_listed hlist hnumber hother,
    State.warmReset_faults_of_room, State.warmReset_faults_of_full, State.showsFaults_warmReset,
    fun i => s.bit_warmReset_low, fun i => s.word_warmReset_low, ?_, fun i hi => ?_,
    fun z hlow hhigh => s.bit_warmReset_orphan ⟨hlow, hhigh⟩⟩
  · rw [State.atn, s.attention_warmReset p]
  · rw [s.warmReset_link p]
    exact ⟨rfl, rfl, rfl, rfl, rfl, rfl⟩
  · rw [State.warmReset_zone ⟨hlow, hhigh⟩, hnone, Option.map_none]
  · rw [State.warmReset_zone ⟨hlow, hhigh⟩, hr, Option.map_some]
    exact congrArg some (r.warmReset_policyApplied 0 (s.epoch + 1))
  · rw [State.warmReset_eq]
    exact State.showsTimers_timersWarmReset _
  · exact s.word_warmReset_exchange (x := (54, 64)) (by decide)
  · exact s.word_warmReset_exchange (x := (55 + i, 0)) (List.mem_cons_of_mem _ (List.mem_map.2 ⟨i, List.mem_range.2 hi, rfl⟩))

end Sys2Proof.Machine
end

section
/-! What the loss of its owner leaves of a zone (R88, R90), whatever else the same event writes and in whatever order (entry 5). -/

namespace Sys2Proof.Machine

/-! ## The shape of a zone (R41, R88) -/

/-- R41, R71: the ranges of a zone and its loss policy, which no event of a session end changes. -/
def ZoneRecord.shape (r : ZoneRecord) : Nat × Nat × Nat × Nat × LossPolicy :=
  (r.bitFirst, r.bitCount, r.wordFirst, r.wordCount, r.policy)

theorem ZoneRecord.eq_of_shape {r r' : ZoneRecord} (h : r'.shape = r.shape) : r' =
    { r with
      status := r'.status, standby := r'.standby, delay := r'.delay, rights := r'.rights, generation := r'.generation
      tenure := r'.tenure, lastTime := r'.lastTime, lastEpoch := r'.lastEpoch } := by
  obtain ⟨⟩ := r
  obtain ⟨⟩ := r'
  simp only [ZoneRecord.shape, Prod.mk.injEq] at h
  obtain ⟨rfl, rfl, rfl, rfl, rfl⟩ := h
  rfl

section
variable {r r' : ZoneRecord} (h : r'.shape = r.shape)
include h

theorem ZoneRecord.inArea_of_shape : r'.inArea = r.inArea := by
  rw [ZoneRecord.eq_of_shape h]
  rfl

theorem ZoneRecord.policyWrite_of_shape : r'.policyWrite = r.policyWrite := by
  rw [ZoneRecord.eq_of_shape h]
  rfl

theorem ZoneRecord.apartFrom_of_shape (q : ZoneRecord) : q.apartFrom r' = q.apartFrom r := by
  rw [ZoneRecord.eq_of_shape h]
  rfl

end

theorem ZoneRecord.shape_policyApplied (c : Clock) (e : Byte) (r : ZoneRecord) : (r.policyApplied c e).shape = r.shape := by
  rw [ZoneRecord.policyApplied_eq]
  split <;> rfl

/-- R88 to R91: an action of an event leaves the shape of every zone. -/
theorem Action.shape_onZone (z : Nat) (c : Clock) (e : Byte) (o : Option ZoneRecord) (a : Action) :
    (a.onZone z c e o).map ZoneRecord.shape = o.map ZoneRecord.shape := by
  cases a with
  | system w | clearing w | raise n => rfl
  | policy k =>
    dsimp only [Action.onZone]
    split
    · rw [Option.map_map]
      exact congrArg (Option.map · o) (funext (ZoneRecord.shape_policyApplied c e))
    · rfl
  | move ms =>
    refine List.foldlRecOn (motive := fun o' : Option ZoneRecord => o'.map ZoneRecord.shape = o.map ZoneRecord.shape) ms _ rfl
      fun o' ho' m _ => ?_
    split
    · rw [Option.map_map]
      exact ho'
    · exact ho'

/-- The zones of two states have the same shapes. -/
def State.sameShapes (s t : State) : Prop := ∀ y, (t.zone y).map ZoneRecord.shape = (s.zone y).map ZoneRecord.shape

theorem State.sameShapes.act {s t : State} (h : s.sameShapes t) (a : Action) : s.sameShapes (t.act a) := fun y => by
  rw [State.act_record, Action.shape_onZone]
  exact h y

theorem State.sameShapes.record {s t : State} (h : s.sameShapes t) {y : Nat} {q' : ZoneRecord} (hq : t.zone y = some q') :
    ∃ q, s.zone y = some q ∧ q'.shape = q.shape := by
  have hy := h y
  rw [hq, Option.map_some] at hy
  obtain ⟨q, hq, hshape⟩ := Option.map_eq_some_iff.1 hy.symm
  exact ⟨q, hq, hshape.symm⟩

theorem State.sameShapes.zonesInArea {s t : State} (h : s.sameShapes t) (harea : s.zonesInArea) : t.zonesInArea := by
  intro y q' hq'
  obtain ⟨q, hq, hshape⟩ := h.record hq'
  obtain ⟨hlow, hhigh, hin⟩ := harea y q hq
  exact ⟨hlow, hhigh, (ZoneRecord.inArea_of_shape hshape).trans hin⟩

/-! ## The write of a loss policy (R71) -/

section
variable {s : State} {z : Nat}

theorem State.writePolicy_of_write {r : ZoneRecord} (hr : s.zone z = some r) {w : Points} (hw : r.policyPoints = some w) :
    s.writePolicy z = s.writeZones [z] w := by
  simp only [State.writePolicy, hr, Option.bind_some, hw]

theorem State.writePolicy_of_nothing (h : ∀ r, s.zone z = some r → r.policyPoints = none) : s.writePolicy z = s := by
  have hnone : (s.zone z).bind ZoneRecord.policyPoints = none := by
    cases hr : s.zone z with
    | none => rfl
    | some r => exact h r hr
  simp only [State.writePolicy, hnone]

theorem State.writePolicy_image {r : ZoneRecord} (hr : s.zone z = some r) {i : Nat} (hi : 32 ≤ i) :
    (s.writePolicy z).bit i = (s.store r.policyWrite).bit i ∧ (s.writePolicy z).word i = (s.store r.policyWrite).word i := by
  cases hw : r.policyPoints with
  | none =>
    rw [State.writePolicy_of_nothing fun q hq => by rwa [← Option.some.inj (hr.symm.trans hq)], ZoneRecord.policyWrite, hw]
    exact ⟨rfl, rfl⟩
  | some w =>
    rw [State.writePolicy_of_write hr hw, ZoneRecord.policyWrite, hw]
    exact ⟨State.writeZones_bit _ _ _ _ hi, State.writeZones_word _ _ _ _ hi⟩

/-- R48, R71: a zone's policy leaves the points of a zone apart from it. -/
theorem State.writePolicy_apart {r : ZoneRecord} (h : ∀ q, s.zone z = some q → r.apartFrom q = true) {i : Nat} (hi : 32 ≤ i) :
    (r.hasBit i = true → (s.writePolicy z).bit i = s.bit i) ∧ (r.hasWord i = true → (s.writePolicy z).word i = s.word i) := by
  cases hq : s.zone z with
  | none =>
    rw [State.writePolicy_of_nothing fun q hq' => nomatch hq.symm.trans hq']
    exact ⟨fun _ => rfl, fun _ => rfl⟩
  | some q =>
    obtain ⟨hbit, hword⟩ := State.writePolicy_image hq hi
    obtain ⟨hbits, hwords⟩ := q.policyWrite_within
    have hapart := h q hq
    refine ⟨fun hown => hbit.trans (State.bit_store_ne _ _ _ fun b hb heq => ?_),
      fun hown => hword.trans (State.word_store_ne _ _ _ fun x hx heq => ?_)⟩
    · have hother := hbits b hb
      rw [heq, ZoneRecord.hasBit_of_apart hapart hown] at hother
      exact Bool.false_ne_true hother
    · have hother := hwords x hx
      rw [heq, ZoneRecord.hasWord_of_apart hapart hown] at hother
      exact Bool.false_ne_true hother

end

/-! ## The actions after the records of a session end (R34) -/

/-- R132, R169: the records of the timers and of the attention unit at a session end. -/
def State.detached (s : State) (ended : SessionRef) : State := (s.dropAttention ended.port).mapTimers (Armed.detach ended)

/-- R44: the zone table's points at a session end. -/
def State.endPoints (s : State) (ended : SessionRef) (cause : EndCause) : Points :=
  zonePoints (s.detached ended) ((s.detached ended).putMoves (s.zoneMoves ended cause))

/-- R110: the token arbiter's points at a session end. -/
def State.endTokenPoints (s : State) (ended : SessionRef) (cause : EndCause) : Points :=
  tokenPoints (s.detached ended) ((s.detached ended).tokensAtEnd ended cause.isLoss)

/-- R34: the blocks of a session end. -/
def State.endBlocks (s : State) (ended : SessionRef) (cause : EndCause) (monitor : List (List Action)) : List (List Action) :=
  monitor ++ [(s.zoneEvents ended cause).1, systemAction (s.endTokenPoints ended cause),
    systemAction (exchangePoints ((s.detached ended).tokensAtEnd ended cause.isLoss) (s.endRecords ended cause))]

theorem State.endSession_blocks (s : State) (ended : SessionRef) (cause : EndCause) (monitor : List (List Action)) :
    s.endSession ended cause monitor = { s.endRecords ended cause with freeDraws := (s.zoneEvents ended cause).2 }.actFreely
      (s.endBlocks ended cause monitor) := rfl

/-- R23, R176: the monitor's actions at a session end: its points, and raises. -/
def MonitorActions (monitor : List (List Action)) : Prop :=
  ∀ a ∈ monitor.flatten, (∃ n, a = .raise n) ∨
    ∃ w, a = .system w ∧ (∀ b ∈ w.bits, 48 ≤ b.1 ∧ b.1 < 64) ∧ ∀ x ∈ w.words, 48 ≤ x.1 ∧ x.1 < 64

/-- R34: an action of a session end, by the points that it writes: the zone table's, the tokens', or those of the monitor and
the exchange. -/
inductive Action.AtEnd (ms : List ZoneMove) (zones tokens : Points) : Action → Prop where
  | raise (n : Nat) : AtEnd ms zones tokens (.raise n)
  | middle {w : Points} (hbits : ∀ b ∈ w.bits, 48 ≤ b.1 ∧ b.1 < 64) (hwords : ∀ x ∈ w.words, 48 ≤ x.1 ∧ x.1 < 64) :
    AtEnd ms zones tokens (.system w)
  | zones : AtEnd ms zones tokens (.system zones)
  | tokens : AtEnd ms zones tokens (.system tokens)
  | policy (y : Nat) : AtEnd ms zones tokens (.policy y)
  | move : AtEnd ms zones tokens (.move ms)

theorem State.mem_zoneEvents (s : State) (ended : SessionRef) (cause : EndCause) (a : Action) :
    a ∈ (s.zoneEvents ended cause).1 ↔
      (∃ m ∈ s.zoneMoves ended cause, m.policy = true ∧ a = .policy m.zone) ∨ a ∈ moveAction (s.zoneMoves ended cause) ∨
        a ∈ systemAction (s.endPoints ended cause) ∨
          ∃ m ∈ s.zoneMoves ended cause, m.orphanFault = true ∧ a = .raise (4032 + m.zone) :=
  (s.detached ended).mem_zoneActions (s.zoneMoves ended cause) _ a

theorem State.mem_endBlocks_of_zone (s : State) (ended : SessionRef) (cause : EndCause) (monitor : List (List Action)) {a : Action}
    (ha : a ∈ (s.zoneEvents ended cause).1) : a ∈ (s.endBlocks ended cause monitor).flatten := by
  simp only [State.endBlocks, List.flatten_append, List.flatten_cons, List.mem_append]
  exact .inr (.inl ha)

theorem State.atEnd_of_mem {s : State} {ended : SessionRef} {cause : EndCause} {monitor : List (List Action)}
    (hmonitor : MonitorActions monitor) {a : Action} (ha : a ∈ (s.endBlocks ended cause monitor).flatten) :
    a.AtEnd (s.zoneMoves ended cause) (s.endPoints ended cause) (s.endTokenPoints ended cause) := by
  simp only [State.endBlocks, List.flatten_append, List.flatten_cons, List.flatten_nil, List.append_nil, List.mem_append,
    State.mem_zoneEvents] at ha
  rcases ha with ha | (⟨m, -, -, rfl⟩ | ha | ha | ⟨m, -, -, rfl⟩) | ha | ha
  · rcases hmonitor a ha with ⟨n, rfl⟩ | ⟨w, rfl, hbits, hwords⟩
    · exact .raise n
    · exact .middle hbits hwords
  · exact .policy _
  · rw [mem_moveAction _ _ ha]
    exact .move
  · rw [mem_systemAction _ _ ha]
    exact .zones
  · exact .raise _
  · rw [mem_systemAction _ _ ha]
    exact .tokens
  · rw [mem_systemAction _ _ ha]
    obtain ⟨hbits, hwords⟩ := exchangePoints_ofExchange ((s.detached ended).tokensAtEnd ended cause.isLoss) (s.endRecords ended cause)
    exact .middle (fun b hb => absurd (hbits ▸ hb) List.not_mem_nil) fun x hx => by have := hwords x hx; omega

theorem tokenPoints_range (s t : State) : (∀ b ∈ (tokenPoints s t).bits, 32 ≤ b.1 ∧ b.1 < 48) ∧
    ∀ x ∈ (tokenPoints s t).words, 32 ≤ x.1 ∧ x.1 < 48 := by
  constructor <;>
  · intro b hb
    simp only [tokenPoints, List.mem_map, List.mem_filter, List.mem_range, Config.tokenCount] at hb
    obtain ⟨n, ⟨hn, -⟩, rfl⟩ := hb
    dsimp only
    omega

theorem State.endPoints_range (s : State) (ended : SessionRef) (cause : EndCause) :
    (∀ b ∈ (s.endPoints ended cause).bits, 64 ≤ b.1 ∧ b.1 < 128) ∧ ∀ x ∈ (s.endPoints ended cause).words, 48 ≤ x.1 ∧ x.1 < 64 := by
  unfold State.endPoints
  generalize (s.detached ended).putMoves (s.zoneMoves ended cause) = t
  generalize s.detached ended = u
  constructor
  · intro b hb
    simp only [zonePoints, List.mem_append, List.mem_filterMap, mem_zoneNumbers] at hb
    rcases hb with ⟨z, hz, h⟩ | ⟨z, hz, h⟩ <;>
    · split at h
      · nomatch h
      · obtain rfl := Option.some.inj h
        dsimp only
        omega
  · intro x hx
    simp only [zonePoints] at hx
    split at hx
    · nomatch hx
    · rw [List.mem_singleton.1 hx]
      exact (by decide : 48 ≤ 59 ∧ 59 < 64)

/-! ## The points of the zone (R88) -/

section
variable {s : State} {ended : SessionRef} {cause : EndCause} {monitor : List (List Action)} (hmonitor : MonitorActions monitor)
  (harea : s.zonesInArea) {z : Nat} {r : ZoneRecord} (hr : s.zone z = some r)

theorem State.endRecords_image (s : State) (ended : SessionRef) (cause : EndCause) :
    (s.endRecords ended cause).bits = s.bits ∧ (s.endRecords ended cause).words = s.words := by
  simp [State.endRecords, State.dropAttention]

theorem State.sameShapes_endRecords (s : State) (ended : SessionRef) (cause : EndCause) (n : Nat) :
    s.sameShapes { s.endRecords ended cause with freeDraws := n } := fun y =>
  congrArg (fun m : Memory (Option ZoneRecord) => (m.read none y).map ZoneRecord.shape) (State.endRecords_zones ..)

/-- R61: what an action of a session end leaves of the points that it does not write. -/
theorem State.act_apart (s : State) {ended : SessionRef} {cause : EndCause} {a : Action}
    (ha : a.AtEnd (s.zoneMoves ended cause) (s.endPoints ended cause) (s.endTokenPoints ended cause)) (t : State) {i : Nat}
    (hi : (32 ≤ i ∧ i < 48) ∨ 64 ≤ i) :
    (∃ y, a = .policy y) ∨ (i < 48 ∧ a = .system (s.endTokenPoints ended cause)) ∨
      (((i < 128 ∧ a = .system (s.endPoints ended cause)) ∨ (t.act a).bit i = t.bit i) ∧ (t.act a).word i = t.word i) := by
  have hbit : ∀ w : Points, (∀ b ∈ w.bits, b.1 ≠ i) → (t.act (.system w)).bit i = t.bit i := fun w hb =>
    (State.writeSystem_bit _ _ _ (by omega)).trans (State.bit_store_ne _ _ _ hb)
  have hword : ∀ w : Points, (∀ x ∈ w.words, x.1 ≠ i) → (t.act (.system w)).word i = t.word i := fun w hx =>
    (State.writeSystem_word _ _ _ (by omega)).trans (State.word_store_ne _ _ _ hx)
  cases ha with
  | raise n =>
    exact .inr (.inr ⟨.inr (State.raiseFault_bit _ _ _ _ (by omega) (by omega)), State.raiseFault_word _ _ _ _ (by omega) (by omega)⟩)
  | middle hbits hwords =>
    exact .inr (.inr ⟨.inr (hbit _ fun b hb => by have := hbits b hb; omega), hword _ fun x hx => by have := hwords x hx; omega⟩)
  | zones =>
    obtain ⟨hbits, hwords⟩ := s.endPoints_range ended cause
    have hsame := hword _ fun x hx => by have := hwords x hx; omega
    by_cases hzone : i < 128
    · exact .inr (.inr ⟨.inl ⟨hzone, rfl⟩, hsame⟩)
    · exact .inr (.inr ⟨.inr (hbit _ fun b hb => by have := hbits b hb; omega), hsame⟩)
  | tokens =>
    obtain ⟨hbits, hwords⟩ := tokenPoints_range (s.detached ended) ((s.detached ended).tokensAtEnd ended cause.isLoss)
    by_cases htoken : i < 48
    · exact .inr (.inl ⟨htoken, rfl⟩)
    · exact .inr (.inr ⟨.inr (hbit _ fun b hb => by have := hbits b hb; omega), hword _ fun x hx => by have := hwords x hx; omega⟩)
  | policy y => exact .inl ⟨y, rfl⟩
  | move =>
    refine .inr (.inr ?_)
    rw [State.act, State.takeMoves_frame]
    exact ⟨.inr rfl, rfl⟩

/-- R41, R71: a loss policy writes no point of the system zone. -/
theorem State.policy_apart (harea : s.zonesInArea) {t : State} (ht : s.sameShapes t) (y : Nat) {i : Nat} (hi : 32 ≤ i) :
    (i < 128 → (t.act (.policy y)).bit i = t.bit i) ∧ (i < 96 → (t.act (.policy y)).word i = t.word i) := by
  cases hq : t.zone y with
  | none =>
    rw [State.act, State.writePolicy_of_nothing fun q hq' => nomatch hq.symm.trans hq']
    exact ⟨fun _ => rfl, fun _ => rfl⟩
  | some q =>
    obtain ⟨-, -, hin⟩ := ht.zonesInArea harea y q hq
    obtain ⟨hbit, hword⟩ := State.writePolicy_image hq hi
    obtain ⟨hbits, hwords⟩ := q.policyWrite_within
    refine ⟨fun hlow => hbit.trans (State.bit_store_ne _ _ _ fun b hb heq => ?_),
      fun hlow => hword.trans (State.word_store_ne _ _ _ fun x hx heq => ?_)⟩
    · have := ZoneRecord.bit_of_inArea hin (hbits b hb)
      omega
    · have := ZoneRecord.word_of_inArea hin (hwords x hx)
      omega

include hmonitor harea hr

/-- R61, R88: the points of a zone whose policy one session end applies. -/
theorem State.endSession_policyWrite (hapart : s.zonesApart) (hpolicy : .policy z ∈ (s.zoneEvents ended cause).1) :
    (∀ i, r.hasBit i = true → (s.endSession ended cause monitor).bit i = (s.store r.policyWrite).bit i) ∧
    ∀ i, r.hasWord i = true → (s.endSession ended cause monitor).word i = (s.store r.policyWrite).word i := by
  obtain ⟨-, -, hin⟩ := harea z r hr
  have hmem := s.mem_endBlocks_of_zone ended cause monitor hpolicy
  have hrecords := s.sameShapes_endRecords ended cause
  have hother : ∀ {t : State}, s.sameShapes t → ∀ {y}, y ≠ z → ∀ q, t.zone y = some q → r.apartFrom q = true := by
    intro t ht y hy q' hq'
    obtain ⟨q, hq, hshape⟩ := ht.record hq'
    exact (ZoneRecord.apartFrom_of_shape hshape r).trans (hapart z r y q hr hq (Ne.symm hy))
  have hown : ∀ {t : State}, s.sameShapes t → ∃ r', t.zone z = some r' ∧ r'.policyWrite = r.policyWrite := by
    intro t ht
    have hz := ht z
    rw [hr, Option.map_some] at hz
    obtain ⟨r', hr', hshape⟩ := Option.map_eq_some_iff.1 hz
    exact ⟨r', hr', ZoneRecord.policyWrite_of_shape hshape⟩
  obtain ⟨hbits, hwords⟩ := s.endRecords_image ended cause
  rw [State.endSession_blocks]
  refine ⟨fun i hi => ?_, fun i hi => ?_⟩
  · have hlow := ZoneRecord.bit_of_inArea hin hi
    have hwrite : ∀ t : State, s.sameShapes t → (t.act (.policy z)).bit i =
        ((r.policyWrite.bits.reverse.find? fun b => b.1 == i).map Prod.snd).getD (t.bit i) := fun t ht => by
      obtain ⟨r', hr', hsame⟩ := hown ht
      rw [State.act, (State.writePolicy_image hr' (by omega)).1, hsame, State.bit_store]
    rw [State.bit_store]
    refine State.actFreely_observed (fun t => t.bit i) s.sameShapes _ (fun x => ?_) _ _ _ hrecords
      (fun _ => congrArg (Memory.read false · i) hbits) (fun a ha t ht => ⟨ht.act a, ?_⟩) (.inr ⟨_, hmem, hwrite⟩)
    · cases (r.policyWrite.bits.reverse.find? fun b => b.1 == i).map Prod.snd <;> rfl
    · rcases s.act_apart (State.atEnd_of_mem hmonitor ha) t (.inr (by omega : 64 ≤ i)) with ⟨y, rfl⟩ | ⟨hlt, -⟩ | ⟨hlt | hbit, -⟩
      · by_cases hy : y = z
        · exact .inr (hy ▸ hwrite t ht)
        · exact .inl ((State.writePolicy_apart (hother ht hy) (by omega)).1 hi)
      · omega
      · omega
      · exact .inl hbit
  · have hlow := ZoneRecord.word_of_inArea hin hi
    have hwrite : ∀ t : State, s.sameShapes t → (t.act (.policy z)).word i =
        ((r.policyWrite.words.reverse.find? fun b => b.1 == i).map Prod.snd).getD (t.word i) := fun t ht => by
      obtain ⟨r', hr', hsame⟩ := hown ht
      rw [State.act, (State.writePolicy_image hr' (by omega)).2, hsame, State.word_store]
    rw [State.word_store]
    refine State.actFreely_observed (fun t => t.word i) s.sameShapes _ (fun x => ?_) _ _ _ hrecords
      (fun _ => congrArg (Memory.read 0 · i) hwords) (fun a ha t ht => ⟨ht.act a, ?_⟩) (.inr ⟨_, hmem, hwrite⟩)
    · cases (r.policyWrite.words.reverse.find? fun b => b.1 == i).map Prod.snd <;> rfl
    · rcases s.act_apart (State.atEnd_of_mem hmonitor ha) t (.inr (by omega : 64 ≤ i)) with ⟨y, rfl⟩ | ⟨hlt, -⟩ | ⟨-, hword⟩
      · by_cases hy : y = z
        · exact .inr (hy ▸ hwrite t ht)
        · exact .inl ((State.writePolicy_apart (hother ht hy) (by omega)).2 hi)
      · omega
      · exact .inl hword

omit hr

/-- R44, R61: bits 64 to 127 stand as the zone table's write of the event leaves them. -/
theorem State.endSession_statusBit {i : Nat} (hlow : 64 ≤ i) (hhigh : i < 128) :
    (s.endSession ended cause monitor).bit i = (s.store (s.endPoints ended cause)).bit i := by
  have hrecords : (({ s.endRecords ended cause with freeDraws := (s.zoneEvents ended cause).2 } : State).store
      (s.endPoints ended cause)).bit i = (s.store (s.endPoints ended cause)).bit i := by
    rw [State.bit_store, State.bit_store]
    exact congrArg (fun m : Memory Bool => Option.getD _ (m.read false i)) (s.endRecords_image ended cause).1
  rw [State.endSession_blocks, ← hrecords]
  refine State.actFreely_bit s.sameShapes _ _ (s.endPoints ended cause) i (by omega) (s.sameShapes_endRecords ended cause)
    (fun a ha => s.mem_endBlocks_of_zone ended cause monitor ((s.mem_zoneEvents ended cause a).2 (.inr (.inr (.inl ha)))))
    fun a ha t ht => ⟨ht.act a, ?_⟩
  rcases s.act_apart (State.atEnd_of_mem hmonitor ha) t (.inr hlow) with ⟨y, rfl⟩ | ⟨hlt, -⟩ | ⟨⟨-, heq⟩ | hbit, -⟩
  · exact .inr ((State.policy_apart harea ht y (by omega)).1 hhigh)
  · omega
  · exact .inl heq
  · exact .inr hbit

/-- R61, R110: the points of a token stand as the token arbiter's write of the event leaves them. -/
theorem State.endSession_tokenPoints {i : Nat} (hlow : 32 ≤ i) (hhigh : i < 48) :
    (s.endSession ended cause monitor).bit i = (s.store (s.endTokenPoints ended cause)).bit i ∧
    (s.endSession ended cause monitor).word i = (s.store (s.endTokenPoints ended cause)).word i := by
  have hmem : ∀ a ∈ systemAction (s.endTokenPoints ended cause), a ∈ (s.endBlocks ended cause monitor).flatten := fun a ha => by
    simp only [State.endBlocks, List.flatten_append, List.flatten_cons, List.mem_append]
    exact .inr (.inr (.inl ha))
  have hact : ∀ a ∈ (s.endBlocks ended cause monitor).flatten, ∀ t, s.sameShapes t → s.sameShapes (t.act a) ∧
      (a = .system (s.endTokenPoints ended cause) ∨ ((t.act a).bit i = t.bit i ∧ (t.act a).word i = t.word i)) := by
    refine fun a ha t ht => ⟨ht.act a, ?_⟩
    rcases s.act_apart (State.atEnd_of_mem hmonitor ha) t (.inl ⟨hlow, hhigh⟩) with ⟨y, rfl⟩ | ⟨-, heq⟩ | ⟨⟨-, rfl⟩ | hbit, hword⟩
    · obtain ⟨hbit, hword⟩ := State.policy_apart harea ht y hlow
      exact .inr ⟨hbit (by omega), hword (by omega)⟩
    · exact .inl heq
    · refine .inr ⟨(State.writeSystem_bit _ _ _ hlow).trans (State.bit_store_ne _ _ _ fun b hb => ?_), hword⟩
      have := (s.endPoints_range ended cause).1 b hb
      omega
    · exact .inr ⟨hbit, hword⟩
  have hrecords : ∀ n, (({ s.endRecords ended cause with freeDraws := n } : State).store (s.endTokenPoints ended cause)).bit i =
        (s.store (s.endTokenPoints ended cause)).bit i ∧
      (({ s.endRecords ended cause with freeDraws := n } : State).store (s.endTokenPoints ended cause)).word i =
        (s.store (s.endTokenPoints ended cause)).word i := fun n => by
    obtain ⟨hbits, hwords⟩ := s.endRecords_image ended cause
    rw [State.bit_store, State.bit_store, State.word_store, State.word_store]
    exact ⟨congrArg (fun m : Memory Bool => Option.getD _ (m.read false i)) hbits,
      congrArg (fun m : Memory Half => Option.getD _ (m.read 0 i)) hwords⟩
  obtain ⟨hbit, hword⟩ := hrecords (s.zoneEvents ended cause).2
  rw [State.endSession_blocks, ← hbit, ← hword]
  constructor
  · refine State.actFreely_bit s.sameShapes _ _ _ i hlow (s.sameShapes_endRecords ended cause) hmem fun a ha t ht => ?_
    obtain ⟨hshapes, hcase⟩ := hact a ha t ht
    exact ⟨hshapes, hcase.imp_right And.left⟩
  · refine State.actFreely_word s.sameShapes _ _ _ i hlow (s.sameShapes_endRecords ended cause) hmem fun a ha t ht => ?_
    obtain ⟨hshapes, hcase⟩ := hact a ha t ht
    exact ⟨hshapes, hcase.imp_right And.right⟩

end

end Sys2Proof.Machine
end

section
/-! The zone table's points and its ZONE attention at a session end (R44, R81), and then the loss of an owner (R88, R90). -/

namespace Sys2Proof.Machine

/-! ## The zone table's points (R44) -/

theorem mem_zonePoints_bits (before after : State) (b : Nat × Bool) : b ∈ (zonePoints before after).bits ↔
    ∃ z, (1 ≤ z ∧ z ≤ 31) ∧
      (orphanBit (before.zone z) ≠ orphanBit (after.zone z) ∧ b = (64 + z, orphanBit (after.zone z)) ∨
        handoverBit (before.zone z) ≠ handoverBit (after.zone z) ∧ b = (96 + z, handoverBit (after.zone z))) := by
  have hitem : ∀ (x y : Bool) (c : Nat × Bool), (if x = y then none else some c) = some b ↔ x ≠ y ∧ b = c := by
    intro x y c
    by_cases h : x = y <;> simp [h, eq_comm]
  simp only [zonePoints, List.mem_append, List.mem_filterMap, mem_zoneNumbers, hitem, ← exists_or, ← and_or_left]

section
variable (s before after : State) {z : Nat} (hz : 1 ≤ z ∧ z ≤ 31)
include hz

/-- R44: bit 64+z after the zone table's write. -/
theorem State.bit_store_orphan : (s.store (zonePoints before after)).bit (64 + z) =
    if orphanBit (before.zone z) = orphanBit (after.zone z) then s.bit (64 + z) else orphanBit (after.zone z) := by
  by_cases hsame : orphanBit (before.zone z) = orphanBit (after.zone z)
  · rw [if_pos hsame]
    refine State.bit_store_ne _ _ _ fun b hb heq => ?_
    obtain ⟨y, hy, ⟨hchange, rfl⟩ | ⟨-, rfl⟩⟩ := (mem_zonePoints_bits before after b).1 hb
    · obtain rfl : y = z := by dsimp only at heq; omega
      exact hchange hsame
    · dsimp only at heq
      omega
  · rw [if_neg hsame]
    refine State.bit_store_of_mem ((mem_zonePoints_bits before after _).2 ⟨z, hz, .inl ⟨hsame, rfl⟩⟩) fun b hb heq => ?_
    obtain ⟨y, hy, ⟨-, rfl⟩ | ⟨-, rfl⟩⟩ := (mem_zonePoints_bits before after b).1 hb
    · obtain rfl : y = z := by dsimp only at heq; omega
      rfl
    · exact absurd heq (by dsimp only; omega)

/-- R44: bit 96+z after the zone table's write. -/
theorem State.bit_store_handover : (s.store (zonePoints before after)).bit (96 + z) =
    if handoverBit (before.zone z) = handoverBit (after.zone z) then s.bit (96 + z) else handoverBit (after.zone z) := by
  by_cases hsame : handoverBit (before.zone z) = handoverBit (after.zone z)
  · rw [if_pos hsame]
    refine State.bit_store_ne _ _ _ fun b hb heq => ?_
    obtain ⟨y, hy, ⟨-, rfl⟩ | ⟨hchange, rfl⟩⟩ := (mem_zonePoints_bits before after b).1 hb
    · dsimp only at heq
      omega
    · obtain rfl : y = z := by dsimp only at heq; omega
      exact hchange hsame
  · rw [if_neg hsame]
    refine State.bit_store_of_mem ((mem_zonePoints_bits before after _).2 ⟨z, hz, .inr ⟨hsame, rfl⟩⟩) fun b hb heq => ?_
    obtain ⟨y, hy, ⟨-, rfl⟩ | ⟨-, rfl⟩⟩ := (mem_zonePoints_bits before after b).1 hb
    · exact absurd heq (by dsimp only; omega)
    · obtain rfl : y = z := by dsimp only at heq; omega
      rfl

end

/-! ## What the attention records keep (R157, R163) -/

/-- A law of an attention record that a cause raised and a change notice leave. -/
structure AttentionRecord.Persists (P : AttentionRecord → Prop) : Prop where
  raise : ∀ a c d, P a → P (a.raise c d)
  change : ∀ a n, P a → P (a.fireWhere (Watch.seesChange n))

/-- The record of port `q`, if it has one, meets a law. -/
def State.shows (s : State) (P : AttentionRecord → Prop) (q : Port) : Prop := ∀ a, s.attention.get q = some a → P a

section
variable {P : AttentionRecord → Prop} {q : Port}

theorem State.shows_of_attention {s t : State} {P' : AttentionRecord → Prop} {f : AttentionRecord → AttentionRecord}
    (hf : ∀ a, P a → P' (f a)) (ht : t.attention.get q = (s.attention.get q).map f) (h : s.shows P q) : t.shows P' q := by
  intro a ha
  rw [ht] at ha
  obtain ⟨b, hb, rfl⟩ := Option.map_eq_some_iff.1 ha
  exact hf b (h b hb)

theorem State.shows_congr {s t : State} (h : s.shows P q) (ht : t.attention.get q = s.attention.get q) : t.shows P q :=
  fun a ha => h a (ht.symm.trans ha)

theorem State.shows.fireOwnership {s : State} {P' : AttentionRecord → Prop} (h : s.shows P q) {zs : List Nat}
    (hfire : ∀ a, P a → P' (a.fireWhere (Watch.seesOwnership zs))) : (s.fireOwnership zs).shows P' q :=
  State.shows_of_attention hfire (State.attention_fireOwnership s zs q) h

theorem State.shows.putMoves {s : State} (h : s.shows P q) (ms : List ZoneMove) : (s.putMoves ms).shows P q := by
  rw [State.putMoves_frame]
  exact h

theorem State.shows.detached {s : State} (h : s.shows P q) (ended : SessionRef) : (s.detached ended).shows P q := by
  intro a ha
  have hget : (s.detached ended).attention.get q = if q = ended.port then none else s.attention.get q := by
    by_cases hq : q = ended.port
    · rw [if_pos hq, hq]
      exact PerPort.get_set_same _ _ _
    · rw [if_neg hq]
      exact PerPort.get_set_ne _ _ _ _ hq
  rw [hget] at ha
  split at ha
  · nomatch ha
  · exact h a ha

variable (hP : AttentionRecord.Persists P)
include hP

theorem State.shows.raise {s : State} (h : s.shows P q) (c : Cause) (d : Detail) (p : Port) : (s.raise c d p).shows P q := by
  by_cases hq : q = p
  · exact State.shows_of_attention (fun a => hP.raise a c d) (by rw [State.attention_raise, if_pos hq]) h
  · exact State.shows_congr h (by rw [State.attention_raise, if_neg hq])

theorem State.shows.raiseFor {s : State} (h : s.shows P q) (c : Cause) (d : Detail) (ps : List Port) :
    (s.raiseFor c d ps).shows P q :=
  List.foldlRecOn (motive := fun t : State => t.shows P q) ps _ h fun _ ht p _ => ht.raise hP c d p

theorem shows_writes : KeptByWrites fun t => t.shows P q where
  store _ _ h := h
  systemZone _ _ h := h
  count s z h := by
    unfold State.countZone
    split <;> exact h
  fire s n h := State.shows_of_attention (hP.change · n) (State.attention_fireChange s n q) h
  run _ _ h := h

theorem State.shows.raiseFault {s : State} (h : s.shows P q) (n : Half) (o : Origin) (r : Half) :
    (s.raiseFault n o r).shows P q := by
  have hwritten : (s.writeFaults (s.enterFault n o r)).shows P q := by
    refine (shows_writes hP).writeSystem _ _ ?_
    rw [State.enterFault_frame]
    exact h
  unfold State.raiseFault
  dsimp only
  split
  · exact hwritten
  all_goals exact hwritten.raiseFor hP _ _ _

theorem State.shows.raiseMoves {s : State} (h : s.shows P q) (ms : List ZoneMove) : (s.raiseMoves ms).shows P q :=
  List.foldlRecOn (motive := fun t : State => t.shows P q) ms _ h fun _ ht _ _ => ht.raiseFor hP _ _ _

theorem State.shows.takeMoves {s : State} {P' : AttentionRecord → Prop} (h : s.shows P q) {ms : List ZoneMove}
    (hfire : ∀ a, P a → P' (a.fireWhere (Watch.seesOwnership (ms.map ZoneMove.zone)))) : (s.takeMoves ms).shows P' q :=
  ((h.putMoves ms).raiseMoves hP ms).fireOwnership hfire

theorem State.shows.act {s : State} (h : s.shows P q) (a : Action)
    (hfire : ∀ ms, a = .move ms → ∀ r, P r → P (r.fireWhere (Watch.seesOwnership (ms.map ZoneMove.zone)))) :
    (s.act a).shows P q := by
  cases a with
  | system w => exact (shows_writes hP).writeSystem s w h
  | policy y => exact (shows_writes hP).writePolicy s y h
  | clearing w => exact (shows_writes hP).writeClearing s w h
  | raise n => exact h.raiseFault hP _ _ _
  | move ms => exact h.takeMoves hP (hfire ms rfl)

theorem State.shows.tokensAtEnd {s : State} (h : s.shows P q) (ended : SessionRef) (broken : Bool) :
    (s.tokensAtEnd ended broken).shows P q :=
  State.tokensAtEnd_keeps (P := fun t => t.shows P q) (fun _ _ _ ht => ht) (fun _ c d p ht => ht.raise hP c d p) s ended broken h

theorem State.shows.appendEntry {s : State} (h : s.shows P q) (p : Port) (urgent : Bool) (e : Entry) :
    (s.appendEntry p urgent e).shows P q := by
  have hpush : (s.pushEntry p urgent e).shows P q := by
    unfold State.pushEntry
    split <;> exact h
  unfold State.appendEntry
  dsimp only
  split
  · exact hpush.raise hP _ _ _
  · split
    · exact hpush
    · split
      · exact State.shows.raise hP (s := (s.pushEntry p urgent e).stopCoalesce p) hpush _ _ _
      · split <;> exact hpush

theorem State.shows.undeliverAll {s : State} (h : s.shows P q) (p : Port) (es : List Entry) : (s.undeliverAll p es).1.shows P q := by
  induction es generalizing s with
  | nil => exact h
  | cons e rest ih =>
    refine ih ?_
    have hdiscard : (s.discardEntry e).shows P q :=
      State.shows_congr h (congrArg (PerPort.get · q) (s.releaseBuffer_attention e.buffer))
    unfold State.undelivered
    split
    · split
      · exact State.shows.appendEntry hP h _ _ _
      · exact hdiscard
    · exact hdiscard

theorem State.shows.messagesAtEnd {s : State} (h : s.shows P q) (p : Port) : (s.messagesAtEnd p).shows P q :=
  State.shows_congr (State.shows.undeliverAll hP (s := s.emptyQueues p true true) h p (s.queued p true true)) rfl

/-- R34, R169: the records of a session end leave what the attention records keep. -/
theorem State.shows.endRecords {s : State} (h : s.shows P q) (ended : SessionRef) (cause : EndCause) :
    (s.endRecords ended cause).shows P q :=
  State.shows.messagesAtEnd hP (State.shows.tokensAtEnd hP (h.detached ended) ended cause.isLoss) ended.port

theorem State.shows.endSession {s : State} {ended : SessionRef} {cause : EndCause} {monitor : List (List Action)}
    (hmonitor : MonitorActions monitor) (h : (s.endRecords ended cause).shows P q)
    (hfire : ∀ a, P a → P (a.fireWhere (Watch.seesOwnership ((s.zoneMoves ended cause).map ZoneMove.zone)))) :
    (s.endSession ended cause monitor).shows P q := by
  rw [State.endSession_blocks]
  refine State.actFreely_keeps (fun t => t.shows P q) _ _ (fun _ => h) fun a ha t ht => State.shows.act hP ht a fun ms hms => ?_
  subst hms
  cases State.atEnd_of_mem hmonitor ha with
  | move => exact hfire

end

/-! ## ZONE attention (R81) -/

/-- R81: a record that names zone `z` under ZONE. -/
def AttentionRecord.namesZone (z : Nat) (a : AttentionRecord) : Prop := a.pending.getLsbD 3 = true ∧ a.zones.getLsbD z = true

theorem AttentionRecord.raise_pending (a : AttentionRecord) (c : Cause) (d : Detail) {i : Nat} (h : a.pending.getLsbD i = true) :
    (a.raise c d).pending.getLsbD i = true := by
  rw [AttentionRecord.pending_raise, BitVec.getLsbD_or, h]
  rfl

theorem AttentionRecord.fireWhere_pending (a : AttentionRecord) (sees : Watch → Bool) {i : Nat} (h : a.pending.getLsbD i = true) :
    (a.fireWhere sees).pending.getLsbD i = true := by
  rcases AttentionRecord.pending_fireWhere sees a with hpending | hpending
  · rw [hpending]
    exact h
  · rw [hpending, BitVec.getLsbD_or, h]
    rfl

theorem AttentionRecord.namesZone.fireWhere {a : AttentionRecord} {z : Nat} (h : a.namesZone z) (sees : Watch → Bool) :
    (a.fireWhere sees).namesZone z := by
  have hzones : (a.fireWhere sees).zones = a.zones := zones_ofDetails id _ _ (a.details_fireWhere sees)
  obtain ⟨hpending, hzone⟩ := h
  exact ⟨a.fireWhere_pending sees hpending, hzones ▸ hzone⟩

theorem AttentionRecord.persists_namesZone (z : Nat) : Persists (namesZone z) where
  raise a c d h := by
    obtain ⟨hpending, hzone⟩ := h
    refine ⟨a.raise_pending c d hpending, ?_⟩
    cases d with
    | zone y =>
      show (a.zones ||| (1#32 <<< y)).getLsbD z = true
      rw [BitVec.getLsbD_or, hzone, Bool.true_or]
    | none | granted n | grantedBroken n | revoked n | port p | gone k => exact hzone
  change _ _ h := h.fireWhere _

theorem AttentionRecord.raise_namesZone (a : AttentionRecord) {z : Nat} (hz : z ≤ 31) :
    (a.raise .zone (.zone z)).namesZone z := by
  constructor
  · rw [AttentionRecord.pending_raise, BitVec.getLsbD_or]
    exact Bool.or_true _
  · show (a.zones ||| (1#32 <<< z)).getLsbD z = true
    have hlt : z < 32 := by omega
    simp [hlt]

section
variable {z : Nat} {q : Port}

/-- R81: ZONE for a list of ports reaches the record of each. -/
theorem State.namesZone_raiseFor (s : State) (hz : z ≤ 31) {ps : List Port} (hq : q ∈ ps) :
    (s.raiseFor .zone (.zone z) ps).shows (AttentionRecord.namesZone z) q := by
  unfold State.raiseFor
  induction ps generalizing s with
  | nil => exact absurd hq List.not_mem_nil
  | cons p rest ih =>
    rw [List.foldl_cons]
    rcases List.mem_cons.1 hq with rfl | hrest
    · refine State.shows.raiseFor (AttentionRecord.persists_namesZone z) (fun a ha => ?_) _ _ rest
      rw [State.attention_raise, if_pos rfl] at ha
      obtain ⟨b, -, rfl⟩ := Option.map_eq_some_iff.1 ha
      exact b.raise_namesZone hz
    · exact ih _ hrest

theorem State.namesZone_takeMoves (s : State) (hz : z ≤ 31) {ms : List ZoneMove} {m : ZoneMove} (hm : m ∈ ms) (hzone : m.zone = z)
    (hq : q ∈ m.attention) : (s.takeMoves ms).shows (AttentionRecord.namesZone z) q := by
  refine State.shows.fireOwnership (P := AttentionRecord.namesZone z) ?_ fun _ h => h.fireWhere _
  generalize s.putMoves ms = t
  unfold State.raiseMoves
  induction ms generalizing t with
  | nil => exact absurd hm List.not_mem_nil
  | cons k rest ih =>
    rw [List.foldl_cons]
    rcases List.mem_cons.1 hm with rfl | hrest
    · exact State.shows.raiseMoves (AttentionRecord.persists_namesZone z)
        (hzone ▸ State.namesZone_raiseFor t (hzone ▸ hz) hq) rest
    · exact ih hrest _

/-- R81: a session end tells the port that a move names. -/
theorem State.namesZone_endSession (s : State) (ended : SessionRef) (cause : EndCause) (monitor : List (List Action)) (hz : z ≤ 31)
    {m : ZoneMove} (hm : m ∈ s.zoneMoves ended cause) (hzone : m.zone = z) (hq : q ∈ m.attention) :
    (s.endSession ended cause monitor).shows (AttentionRecord.namesZone z) q := by
  rw [State.endSession_blocks]
  refine State.actFreely_reaches (fun _ => True) (fun t => t.shows (AttentionRecord.namesZone z) q) _ _
    (.move (s.zoneMoves ended cause)) ?_ (fun _ => trivial) (fun _ _ _ _ => trivial)
    (fun t _ => t.namesZone_takeMoves hz hm hzone hq)
    fun a _ t _ ht => ht.act (AttentionRecord.persists_namesZone z) a fun _ _ _ h => h.fireWhere _
  refine s.mem_endBlocks_of_zone ended cause monitor ((s.mem_zoneEvents ended cause _).2 (.inr (.inl ?_)))
  have hne : (s.zoneMoves ended cause).isEmpty = false := List.isEmpty_eq_false_iff.2 (List.ne_nil_of_mem hm)
  rw [moveAction, hne]
  exact List.mem_singleton_self _

end

/-- What the record of a port shows after an event that leaves it a record where it had one. -/
theorem State.map_attention_of_shows {s t : State} {q : Port} {P : AttentionRecord → Prop} {α : Type} {f : AttentionRecord → α} {x : α}
    (h : t.shows P q) (hf : ∀ a, P a → f a = x) (hsome : (t.attention.get q).isSome = (s.attention.get q).isSome) :
    (t.attention.get q).map f = (s.attention.get q).map fun _ => x := by
  cases ht : t.attention.get q with
  | none =>
    rw [ht] at hsome
    have hs : s.attention.get q = none := Option.not_isSome_iff_eq_none.1 (by rw [← hsome]; exact Bool.false_ne_true)
    rw [hs]
    rfl
  | some a =>
    rw [ht] at hsome
    obtain ⟨b, hb⟩ := Option.isSome_iff_exists.1 hsome.symm
    rw [hb, Option.map_some, Option.map_some, hf a (h a ht)]

theorem State.zoneTold_of_shows {s t : State} {z : Nat} {q : Port} (h : t.shows (AttentionRecord.namesZone z) q)
    (hsome : (t.attention.get q).isSome = (s.attention.get q).isSome) : s.zoneTold t z q :=
  State.map_attention_of_shows h (fun _ ⟨hpending, hzone⟩ => Prod.ext hpending hzone) hsome

end Sys2Proof.Machine
end

section
/-! The loss of a zone's owner, by a second expiry or a replacing JOIN (R88 to R91). -/

namespace Sys2Proof.Machine

/-! ## The move of an owned zone at a loss (R89, R90) -/

section
variable {s : State} {ended : SessionRef} {cause : EndCause} {z : Nat} {r : ZoneRecord}

theorem State.ownedAtEnd_of_none (hloss : cause.isLoss = true) (h : s.eligibleStandby r = none) :
    s.ownedAtEnd cause z r = ⟨z, .orphaned, r.tenure + 1, r.standby, true, true, r.rightsPorts⟩ := by
  have hleave : cause ≠ .leave := by
    rintro rfl
    exact Bool.false_ne_true hloss
  simp only [State.ownedAtEnd, h, if_neg hleave]

theorem State.ownedAtEnd_of_now (hloss : cause.isLoss = true) {owner : SessionRef} (h : s.eligibleStandby r = some owner)
    (hdelay : r.delay = 0) (hstandby : r.standby = some owner.port) :
    s.ownedAtEnd cause z r = ⟨z, .owned owner, r.tenure + 1, none, true, false, [owner.port]⟩ := by
  simp only [State.ownedAtEnd, h, if_pos (Or.inr hdelay), ZoneRecord.passTo_standby hstandby, hloss]

theorem State.ownedAtEnd_of_later (hloss : cause.isLoss = true) {owner : SessionRef} (h : s.eligibleStandby r = some owner)
    (hdelay : r.delay ≠ 0) :
    s.ownedAtEnd cause z r =
      ⟨z, .handover (takeoverDeadline s.clock r.delay), r.tenure + 1, r.standby, true, false, [owner.port]⟩ := by
  have hnow : ¬ (cause = .leave ∨ r.delay = 0) := by
    rintro (rfl | h)
    · exact Bool.false_ne_true hloss
    · exact hdelay h
  simp only [State.ownedAtEnd, h, if_neg hnow]

theorem State.ownedAtEnd_policy (hloss : cause.isLoss = true) : (s.ownedAtEnd cause z r).policy = true := by
  cases h : s.eligibleStandby r with
  | none => rw [State.ownedAtEnd_of_none hloss h]
  | some owner =>
    unfold State.ownedAtEnd
    rw [h]
    dsimp only
    split
    · exact hloss
    · rfl

theorem State.zoneAtEnd_of_owned (hr : s.zone z = some r) (hstatus : r.status = .owned ended) :
    s.zoneAtEnd ended cause z = some (s.ownedAtEnd cause z r) := by
  simp only [State.zoneAtEnd, hr, hstatus, if_true]

end

/-! ## A zone that a session end moves (R88 to R92) -/

theorem MonitorActions.no_zone {monitor : List (List Action)} (h : MonitorActions monitor) {a : Action} (ha : a ∈ monitor.flatten) :
    (∀ k, a ≠ .policy k) ∧ ∀ ms, a ≠ .move ms := by
  rcases h a ha with ⟨n, rfl⟩ | ⟨w, rfl, -⟩
  · exact ⟨fun _ => Action.noConfusion, fun _ => Action.noConfusion⟩
  · exact ⟨fun _ => Action.noConfusion, fun _ => Action.noConfusion⟩

section
variable {s : State} {ended : SessionRef} {cause : EndCause} {z : Nat} {r : ZoneRecord} {m : ZoneMove} (hz : 1 ≤ z ∧ z ≤ 31)
  (hm : s.zoneAtEnd ended cause z = some m) (hr : s.zone z = some r)

include hm in
theorem State.zone_of_zoneAtEnd : m.zone = z := State.zoneAtEnd_zone s ended cause z _ hm

include hz hm

theorem State.mem_zoneMoves_of_atEnd : m ∈ s.zoneMoves ended cause :=
  List.mem_filterMap.2 ⟨z, (mem_zoneNumbers z).2 hz, hm⟩

theorem State.raised_endSession_of_orphanFault (monitor : List (List Action)) (hfault : m.orphanFault = true) :
    (s.endSession ended cause monitor).raised (natHalf (4032 + z)) := by
  rw [State.endSession_blocks]
  refine State.raised_actFreely _ _ (s.mem_endBlocks_of_zone ended cause monitor ((s.mem_zoneEvents ended cause _).2
    (.inr (.inr (.inr ⟨_, State.mem_zoneMoves_of_atEnd hz hm, hfault, ?_⟩)))))
  rw [State.zone_of_zoneAtEnd hm]

include hr

theorem State.putMoves_zone_of_atEnd : ((s.detached ended).putMoves (s.zoneMoves ended cause)).zone z = some (m.apply r) := by
  have hfind := s.find_zoneMoves ended cause z
  rw [if_pos ((mem_zoneNumbers z).2 hz), hm] at hfind
  have hput := (s.detached ended).zone_putMoves (s.zoneMoves ended cause) (s.zoneMoves_nodup ended cause) z
  rw [hfind] at hput
  exact hput.trans (congrArg (Option.map _) hr)

theorem State.endSession_zoneBits {monitor : List (List Action)} (hmonitor : MonitorActions monitor) (harea : s.zonesInArea)
    {r' : ZoneRecord} (hr' : m.apply r = r') :
    (s.endSession ended cause monitor).bit (64 + z) =
      (if r.isOrphaned = r'.isOrphaned then s.bit (64 + z) else r'.isOrphaned) ∧
    (s.endSession ended cause monitor).bit (96 + z) =
      (if r.isHandover = r'.isHandover then s.bit (96 + z) else r'.isHandover) := by
  have hbefore : (s.detached ended).zone z = some r := hr
  rw [State.endSession_statusBit hmonitor harea (by omega) (by omega), State.endSession_statusBit hmonitor harea (by omega) (by omega),
    State.endPoints, State.bit_store_orphan s _ _ hz, State.bit_store_handover s _ _ hz, hbefore,
    State.putMoves_zone_of_atEnd hz hm hr, hr']
  exact ⟨rfl, rfl⟩

theorem State.endSession_zone_of_atEnd {monitor : List (List Action)} (hmonitor : MonitorActions monitor) :
    (s.endSession ended cause monitor).zone z = some (m.apply (if m.policy then r.policyApplied s.clock s.epoch else r)) := by
  rw [State.endSession_record s ended cause monitor (fun a ha => hmonitor.no_zone ha) z hz.1 hz.2, hm]
  exact congrArg (Option.map _) hr

omit hr in
theorem State.policy_mem_zoneEvents (hpolicy : m.policy = true) : .policy z ∈ (s.zoneEvents ended cause).1 :=
  (s.mem_zoneEvents ended cause _).2 (.inl ⟨_, State.mem_zoneMoves_of_atEnd hz hm, hpolicy, by rw [State.zone_of_zoneAtEnd hm]⟩)

end

/-! ## What the rest of the event leaves of the zones -/

/-- What the events of a port leave of the zones, the tokens, the timers' settings and the other ports' sessions. -/
structure State.OthersKept (p : Port) (s t : State) : Prop where
  bits : ∀ i, (32 ≤ i ∧ i < 48) ∨ 64 ≤ i → t.bit i = s.bit i
  words : ∀ i, (32 ≤ i ∧ i < 48) ∨ 64 ≤ i → t.word i = s.word i
  zone : ∀ y, t.zone y = s.zone y
  time : t.clock = s.clock ∧ t.epoch = s.epoch
  sessions : ∀ q, q ≠ p → (t.attention.get q).isSome = (s.attention.get q).isSome
  tokens : t.tokens = s.tokens
  settings : ∀ n, (t.timer n).map Armed.settings = (s.timer n).map Armed.settings
  shows : ∀ {P : AttentionRecord → Prop} {q : Port}, AttentionRecord.Persists P → q ≠ p → s.shows P q → t.shows P q

theorem State.OthersKept.setPort (s : State) (p : Port) (r : PortRecord) : s.OthersKept p (s.setPort p r) :=
  ⟨fun _ _ => rfl, fun _ _ => rfl, fun _ => rfl, ⟨rfl, rfl⟩, fun _ _ => rfl, rfl, fun _ => rfl, fun _ _ h => h⟩

theorem State.OthersKept.trans {p : Port} {s t u : State} (h : s.OthersKept p t) (h' : t.OthersKept p u) : s.OthersKept p u where
  bits i hi := (h'.bits i hi).trans (h.bits i hi)
  words i hi := (h'.words i hi).trans (h.words i hi)
  zone y := (h'.zone y).trans (h.zone y)
  time := ⟨h'.time.1.trans h.time.1, h'.time.2.trans h.time.2⟩
  sessions q hq := (h'.sessions q hq).trans (h.sessions q hq)
  tokens := h'.tokens.trans h.tokens
  settings n := (h'.settings n).trans (h.settings n)
  shows hP hq hs := h'.shows hP hq (h.shows hP hq hs)

theorem isSome_of_map_eq {α β : Type} {a b : Option α} {f g : α → β} (h : a.map f = b.map g) : a.isSome = b.isSome := by
  have hsome := congrArg Option.isSome h
  rwa [Option.isSome_map, Option.isSome_map] at hsome

theorem State.shows.monitorEvent {P : AttentionRecord → Prop} (hP : AttentionRecord.Persists P) {s : State} {q : Port}
    (h : s.shows P q) (p : Port) (r : PortRecord) : (s.monitorEvent p r).shows P q := by
  have hport : (s.setPort p r).shows P q := h
  rw [State.monitorEvent, State.writeMonitor_setPort]
  exact ((shows_writes hP).writeSystem (s.setPort p r) (monitorPoints p r) hport).raiseFor hP _ _ _

theorem State.OthersKept.qualify (s : State) (p : Port) (n : Half) : s.OthersKept p (s.qualify p n) where
  bits i hi := by
    have := Port.index_lt p
    exact State.qualify_bit s p n i (by omega) ⟨by omega, by omega, by omega⟩
  words i hi := by
    have := Port.index_lt p
    exact State.qualify_word s p n i (by omega) (by omega)
  zone y := s.qualify_zone p n y
  time := ⟨s.qualify_clock p n, s.qualify_epoch p n⟩
  sessions q _ := isSome_of_map_eq (s.told_qualify p n q)
  tokens := s.qualify_tokens p n
  settings := s.qualify_settings p n
  shows hP _ h := by
    unfold State.qualify
    split
    · split <;> exact h
    · split
      · exact State.shows.monitorEvent hP h p _
      · exact h
    · exact h
    · exact h

theorem State.OthersKept.raisePeer (s : State) (p : Port) : s.OthersKept p (s.raisePeer p) where
  bits i _ := s.raisePeer_bit p i
  words i _ := s.raisePeer_word p i
  zone y := s.raisePeer_zone p y
  time := ⟨s.raisePeer_clock p, s.raisePeer_epoch p⟩
  sessions q hq := isSome_of_map_eq (State.raisePeer_tells (s := s) (fun _ _ => rfl) q hq)
  tokens := s.raisePeer_tokens p
  settings n := congrArg (Option.map _) (s.raisePeer_timer p n)
  shows hP _ h := h.raiseFor hP _ _ _

theorem State.OthersKept.beginSession (s : State) (p : Port) (time : Byte) : s.OthersKept p (s.beginSession p time) where
  bits i hi := by
    have := Port.index_lt p
    rw [State.beginSession, State.raisePeer_bit, State.writeMonitor, State.writeSystem_bit _ _ _ (by omega),
      State.bit_store_ne _ _ i fun b hb heq => ?_]
    · rfl
    · simp only [monitorPoints, List.mem_cons, List.not_mem_nil, or_false] at hb
      rcases hb with rfl | rfl | rfl <;> (dsimp only at heq; omega)
  words i hi := by
    have := Port.index_lt p
    rw [State.beginSession, State.raisePeer_word, State.writeMonitor, State.writeSystem_word _ _ _ (by omega),
      State.word_store_ne _ _ i fun x hx heq => ?_]
    · rfl
    · rw [List.mem_singleton.1 hx] at heq
      dsimp only at heq
      omega
  zone y := s.beginSession_zone p time y
  time := ⟨s.beginSession_clock p time, s.beginSession_epoch p time⟩
  sessions q hq := isSome_of_map_eq ((s.sessionBegun p time).tells q hq)
  tokens := s.beginSession_tokens p time
  settings n := by
    rw [State.beginSession, State.raisePeer_timer, State.writeMonitor, State.writeSystem_settings]
    rfl
  shows hP hq h := by
    refine State.shows.raiseFor hP ((shows_writes hP).writeSystem _ _ ?_) _ _ _
    exact State.shows_congr h (PerPort.get_set_ne _ _ _ _ hq)

/-! ## An event that ends a session (R27, R32, R34) -/

theorem monitorActions_raise (n : Nat) : MonitorActions [[.raise n]] := fun _ ha => .inl ⟨n, List.mem_singleton.1 ha⟩

theorem monitorActions_points (p : Port) (r : PortRecord) {rest : List (List Action)} (hrest : MonitorActions rest) :
    MonitorActions ([.system (monitorPoints p r)] :: rest) := by
  intro a ha
  have hp := Port.index_lt p
  rcases List.mem_cons.1 ha with rfl | ha
  · refine .inr ⟨_, rfl, fun b hb => ?_, fun x hx => ?_⟩
    · simp only [monitorPoints, List.mem_cons, List.not_mem_nil, or_false] at hb
      rcases hb with rfl | rfl | rfl <;> (dsimp only; omega)
    · rw [List.mem_singleton.1 hx]
      dsimp only
      omega
  · exact hrest a ha

/-- R34: an event that ends the session of port `p`: from the state `u`, on which the session end works, to `t`. -/
structure State.SessionEnds (s u t : State) (p : Port) (m : Membership) (cause : EndCause) (monitor : List (List Action)) : Prop where
  actions : MonitorActions monitor
  before : s.OthersKept p u
  ports : ∀ q, q ≠ p → u.ports.get q = s.ports.get q
  gone : ∀ mq, u.ports.get p ≠ .online mq
  after : (u.endSession (m.on p) cause monitor).OthersKept p t
  faults : t.faults = (u.endSession (m.on p) cause monitor).faults
  queues : t.exchange.urgent.get p = [] ∧ t.exchange.normal.get p = []

theorem State.OthersKept.replied (s : State) (p : Port) (f : List Byte) : s.OthersKept p (s.replied p f) :=
  ⟨fun _ _ => rfl, fun _ _ => rfl, fun _ => rfl, ⟨rfl, rfl⟩, fun _ _ => rfl, rfl, fun _ => rfl, fun _ _ h => h⟩

theorem State.setPort_not_online (s : State) (p : Port) {r : PortRecord} (hr : ∀ m, r ≠ .online m) (m : Membership) :
    (s.setPort p r).ports.get p ≠ .online m := by
  rw [State.setPort, PerPort.get_set_same]
  exact hr m

theorem State.sessionEnds_secondExpiry {s : State} {p : Port} {m : Membership} (hlate : s.ports.get p = .late m)
    (hdue : m.deadline = s.clock) : ∃ u monitor, s.SessionEnds u (s.secondExpiry p) p m .lost monitor := by
  have hgone := State.endSession_exchange_gone (s.setPort p .lost) (m.on p) .lost
    [[.system (monitorPoints p .lost)], [.raise (4080 + p.index)]]
  rw [State.secondExpiry_of_reached hlate hdue]
  refine ⟨s.setPort p .lost, [[.system (monitorPoints p .lost)], [.raise (4080 + p.index)]], ?_⟩
  exact {
    actions := monitorActions_points p .lost (monitorActions_raise _)
    before := .setPort s p .lost
    ports := fun q hq => PerPort.get_set_ne _ _ _ _ hq
    gone := s.setPort_not_online p fun _ => PortRecord.noConfusion
    after := .raisePeer _ p
    faults := State.raisePeer_faults _ p
    queues := by
      rw [State.raisePeer_exchange]
      exact hgone.2 }

theorem State.sessionEnds_join {s : State} {p : Port} {m : Membership} (serves : s.serves p m) (tag : Byte) (session : Half)
    {time : Byte} (htime : time ≠ 0) :
    ∃ t u monitor, exec (.join p tag session [0, time]) s = .next t ∧ s.SessionEnds u t p m .replaced monitor := by
  have hsession := (s.qualify_session p p session).trans (State.session_of_serves serves)
  have hreplace : (s.qualify p session).replaceSession p =
      ((s.qualify p session).setPort p .offline).endSession (m.on p) .replaced [[.raise (4084 + p.index)]] := by
    simp [State.replaceSession, hsession]
  have hexec := exec_join serves.1 tag session htime
  rw [hreplace] at hexec
  refine ⟨_, (s.qualify p session).setPort p .offline, [[.raise (4084 + p.index)]], hexec, ?_⟩
  obtain ⟨-, hurgent, hnormal⟩ := State.endSession_exchange_gone ((s.qualify p session).setPort p .offline) (m.on p) .replaced
    [[.raise (4084 + p.index)]]
  obtain ⟨hurgents, hnormals⟩ := (State.sessionBegun (((s.qualify p session).setPort p .offline).endSession (m.on p) .replaced
    [[.raise (4084 + p.index)]]) p time).queues
  exact {
    actions := monitorActions_raise _
    before := (State.OthersKept.qualify s p session).trans (.setPort _ p .offline)
    ports := fun q hq => (PerPort.get_set_ne _ _ _ _ hq).trans (s.qualify_ports_ne p q session hq)
    gone := State.setPort_not_online _ p fun _ => PortRecord.noConfusion
    after := (State.OthersKept.beginSession _ p time).trans (.replied _ p _)
    faults := State.beginSession_faults _ p time
    queues := ⟨(congrArg (PerPort.get · p) hurgents).trans hurgent, (congrArg (PerPort.get · p) hnormals).trans hnormal⟩ }

theorem State.sessionEnds_leave {s : State} {p : Port} {m : Membership} (serves : s.serves p m) (tag : Byte) :
    ∃ t u monitor, exec (.leave p tag m.number []) s = .next t ∧ s.SessionEnds u t p m .leave monitor := by
  have hexec := exec_of_serves serves .leave tag [] (serveLeave · []) rfl
  rw [serveLeave_empty] at hexec
  refine ⟨_, (s.qualify p m.number).setPort p .offline, [[.system (monitorPoints p .offline)]], hexec, ?_⟩
  have hgone := State.endSession_exchange_gone ((s.qualify p m.number).setPort p .offline) (m.on p) .leave
    [[.system (monitorPoints p .offline)]]
  exact {
    actions := monitorActions_points p .offline fun _ h => nomatch h
    before := (State.OthersKept.qualify s p m.number).trans (.setPort _ p .offline)
    ports := fun q hq => (PerPort.get_set_ne _ _ _ _ hq).trans (s.qualify_ports_ne p q m.number hq)
    gone := State.setPort_not_online _ p fun _ => PortRecord.noConfusion
    after := (State.OthersKept.raisePeer _ p).trans (.replied _ p _)
    faults := State.raisePeer_faults _ p
    queues := by
      show (State.raisePeer _ p).exchange.urgent.get p = [] ∧ (State.raisePeer _ p).exchange.normal.get p = []
      rw [State.raisePeer_exchange]
      exact hgone.2 }

section
variable {s u t : State} {p : Port} {m : Membership} {cause : EndCause} {monitor : List (List Action)}
  (h : s.SessionEnds u t p m cause monitor)
include h

theorem State.SessionEnds.sessions {q : Port} (hq : q ≠ p) : (t.attention.get q).isSome = (s.attention.get q).isSome :=
  calc (t.attention.get q).isSome
      _ = ((u.endSession (m.on p) cause monitor).attention.get q).isSome := h.after.sessions q hq
      _ = (u.attention.get q).isSome :=
        isSome_of_map_eq (f := AttentionRecord.ports) ((State.told_endSession u _ cause monitor q).trans (if_neg hq))
      _ = (s.attention.get q).isSome := h.before.sessions q hq

/-- R81: the sessions that a zone's move names are told. -/
theorem State.SessionEnds.zoneTold {z : Nat} (hz : 1 ≤ z ∧ z ≤ 31) {move : ZoneMove}
    (hmove : u.zoneAtEnd (m.on p) cause z = some move) {q : Port} (hmem : q ∈ move.attention) (hq : q ≠ p) : s.zoneTold t z q :=
  State.zoneTold_of_shows (h.after.shows (AttentionRecord.persists_namesZone z) hq
    (State.namesZone_endSession u _ cause monitor hz.2 (State.mem_zoneMoves_of_atEnd hz hmove) (State.zone_of_zoneAtEnd hmove) hmem))
    (h.sessions hq)

theorem State.SessionEnds.eligibleStandby_of_online {r : ZoneRecord} {q : Port} {mq : Membership} (hq : q ≠ p)
    (hstandby : r.standby = some q) (honline : s.ports.get q = .online mq) : u.eligibleStandby r = some (mq.on q) :=
  State.eligibleStandby_of_online hstandby ((h.ports q hq).trans honline)

theorem State.SessionEnds.eligibleStandby_eq_none {r : ZoneRecord}
    (hnone : ∀ q mq, q ≠ p → r.standby = some q → s.ports.get q ≠ .online mq) : u.eligibleStandby r = none := by
  refine State.eligibleStandby_eq_none fun q mq hq => ?_
  by_cases hqp : q = p
  · exact hqp ▸ h.gone mq
  · rw [h.ports q hqp]
    exact hnone q mq hqp hq

end

/-! ## The loss of an owner (R88, R90) -/

/-- R88, R90: what the loss of its owner at port `p` leaves of a zone. -/
structure State.OwnerLost (s t : State) (p : Port) (z : Nat) (r : ZoneRecord) : Prop where
  leaves : r.policyLeaves s t
  standby : ∀ q mq, q ≠ p → r.standby = some q → s.ports.get q = .online mq → s.zoneTold t z q ∧
    t.bit (64 + z) = s.bit (64 + z) ∧
    (r.delay = 0 →
      t.zone z = some { r.policyApplied s.clock s.epoch with status := .owned (mq.on q), tenure := r.tenure + 1, standby := none } ∧
      t.bit (96 + z) = s.bit (96 + z)) ∧
    (r.delay ≠ 0 →
      t.zone z = some { r.policyApplied s.clock s.epoch with
        status := .handover (s.clock + BitVec.ofNat 32 (r.delay.toNat * 10)), tenure := r.tenure + 1 } ∧
      t.bit (96 + z) = true)
  orphaned : (∀ q mq, q ≠ p → r.standby = some q → s.ports.get q ≠ .online mq) →
    t.zone z = some { r.policyApplied s.clock s.epoch with status := .orphaned, tenure := r.tenure + 1 } ∧
    t.bit (64 + z) = true ∧ t.bit (96 + z) = s.bit (96 + z) ∧ t.raised (natHalf (4032 + z)) ∧
    ∀ q, q ≠ p → portIn q r.rights = true → s.zoneTold t z q

theorem ZoneRecord.policyApplied_standby (c : Clock) (e : Byte) (r : ZoneRecord) : (r.policyApplied c e).standby = r.standby := by
  rw [ZoneRecord.policyApplied_eq]
  split <;> rfl

/-- R88, R90: an event that ends a session by a loss. -/
theorem State.SessionEnds.ownerLost {s u t : State} {p : Port} {m : Membership} {cause : EndCause} {monitor : List (List Action)}
    (h : s.SessionEnds u t p m cause monitor) (hloss : cause.isLoss = true) {z : Nat} {r : ZoneRecord}
    (harea : s.zonesInArea) (hapart : s.zonesApart) (hr : s.zone z = some r) (hstatus : r.status = .owned (m.on p)) :
    s.OwnerLost t p z r := by
  obtain ⟨hmonitor, hbefore, -, -, hafter, hfaults, -⟩ := id h
  obtain ⟨hlow, hhigh, hin⟩ := harea z r hr
  have hz : 1 ≤ z ∧ z ≤ 31 := ⟨hlow, hhigh⟩
  have hru : u.zone z = some r := (hbefore.zone z).trans hr
  have hareau : u.zonesInArea := fun y q hq => harea y q ((hbefore.zone y).symm.trans hq)
  have hapartu : u.zonesApart := fun y q y' q' hq hq' =>
    hapart y q y' q' ((hbefore.zone y).symm.trans hq) ((hbefore.zone y').symm.trans hq')
  have hmove := State.zoneAtEnd_of_owned (cause := cause) hru hstatus
  have hpolicy := State.ownedAtEnd_policy (s := u) (z := z) (r := r) hloss
  have hzone := State.endSession_zone_of_atEnd hz hmove hru hmonitor
  have hbits := State.endSession_zoneBits hz hmove hru hmonitor hareau rfl
  have howned : r.isOrphaned = false ∧ r.isHandover = false := by
    rw [ZoneRecord.isOrphaned, ZoneRecord.isHandover, hstatus]
    exact ⟨rfl, rfl⟩
  rw [hpolicy, if_pos rfl] at hzone
  rw [howned.1, howned.2] at hbits
  rw [← hafter.zone, hbefore.time.1, hbefore.time.2] at hzone
  rw [← hafter.bits _ (by omega), ← hafter.bits _ (by omega), hbefore.bits _ (by omega), hbefore.bits _ (by omega)] at hbits
  obtain ⟨horphan, hhandover⟩ := hbits
  have htold : ∀ q ∈ (u.ownedAtEnd cause z r).attention, q ≠ p → s.zoneTold t z q := fun q hmem hq => h.zoneTold hz hmove hmem hq
  have hraised := State.raised_endSession_of_orphanFault hz hmove monitor
  have hstandby := r.policyApplied_standby s.clock s.epoch
  refine ⟨?_, fun q mq hq hstand honline => ?_, fun hnone => ?_⟩
  · obtain ⟨hbit, hword⟩ := State.endSession_policyWrite hmonitor hareau hru hapartu
      (State.policy_mem_zoneEvents hz hmove hpolicy)
    refine ZoneRecord.policyLeaves_of (fun i hi => ?_) fun i hi => ?_
    · have hdef := ZoneRecord.bit_of_inArea hin hi
      rw [hafter.bits i (by omega), hbit i hi, State.bit_store, State.bit_store, hbefore.bits i (by omega)]
    · have hdef := ZoneRecord.word_of_inArea hin hi
      rw [hafter.words i (by omega), hword i hi, State.word_store, State.word_store, hbefore.words i (by omega)]
  · have heligible := h.eligibleStandby_of_online hq hstand honline
    by_cases hdelay : r.delay = 0
    · rw [State.ownedAtEnd_of_now hloss heligible hdelay hstand] at hzone horphan hhandover htold
      exact ⟨htold q List.mem_cons_self hq, horphan, fun _ => ⟨hzone, hhandover⟩, fun hne => absurd hdelay hne⟩
    · rw [State.ownedAtEnd_of_later hloss heligible hdelay, hbefore.time.1] at hzone horphan hhandover htold
      refine ⟨htold q List.mem_cons_self hq, horphan, fun h => absurd h hdelay, fun _ => ⟨hzone.trans ?_, hhandover⟩⟩
      rw [← hstandby]
      rfl
  · have heligible := h.eligibleStandby_eq_none hnone
    rw [State.ownedAtEnd_of_none hloss heligible] at hzone horphan hhandover htold hraised
    refine ⟨hzone.trans ?_, horphan, hhandover, State.raised_of_faults hfaults (hraised rfl), fun q hq hin => ?_⟩
    · rw [← hstandby]
      rfl
    · exact htold q ((r.mem_rightsPorts q).2 hin) hq

/-- Settles O34: the same loss, at a second expiry and at a JOIN that replaces the session. -/
theorem lostOwnersClearZoneReadsZero : Obligations.LostOwnersClearZoneReadsZero := by
  intro s p m c z r hcase harea hapart hr hstatus counted
  have hlost : ∃ t, exec c s = .next t ∧ s.OwnerLost t p z r := by
    rcases hcase with ⟨rfl, hlate, hdue⟩ | ⟨serves, tag, session, time, htime, rfl⟩
    · obtain ⟨u, monitor, hends⟩ := State.sessionEnds_secondExpiry hlate hdue
      exact ⟨_, rfl, hends.ownerLost rfl harea hapart hr hstatus⟩
    · obtain ⟨t, u, monitor, hexec, hends⟩ := State.sessionEnds_join serves tag session htime
      exact ⟨t, hexec, hends.ownerLost rfl harea hapart hr hstatus⟩
  obtain ⟨t, hexec, hlost⟩ := hlost
  exact ⟨t, hexec, hlost.leaves, hlost.standby, hlost.orphaned⟩

end Sys2Proof.Machine
end

section
/-! The law of the deadlines (R17): every step keeps each deadline no further ahead of the clock than its block can set it, and what
an advance takes leaves none at the value that the clock leaves. -/

namespace Sys2Proof.Machine

/-! ## A deadline ahead of the clock -/

/-- R17: the deadline lies at most `bound` ahead of the clock, and at its value only where the event is `due`. -/
def deadlineWithin (c : Clock) (bound : Nat) (due : Prop) (d : Clock) : Prop := (d - c).toNat ≤ bound ∧ (d = c → due)

theorem msAfter_sub (c : Clock) {k : Nat} (hk : k < 2 ^ 32) : (msAfter c k - c).toNat = k := by
  have hsub : msAfter c k - c = BitVec.ofNat 32 k := by
    unfold msAfter
    bv_omega
  rw [hsub, BitVec.toNat_ofNat, Nat.mod_eq_of_lt hk]

theorem msAfter_ne (c : Clock) {k : Nat} (hpos : 0 < k) (hk : k < 2 ^ 32) : msAfter c k ≠ c := by
  intro heq
  have hsub := msAfter_sub c hk
  rw [heq, BitVec.sub_self] at hsub
  exact absurd hsub (Nat.ne_of_lt hpos)

theorem deadlineWithin_msAfter (c : Clock) {k bound : Nat} (hpos : 0 < k) (hk : k ≤ bound) (hbound : bound < 2 ^ 32) (due : Prop) :
    deadlineWithin c bound due (msAfter c k) := by
  have hlt := Nat.lt_of_le_of_lt hk hbound
  exact ⟨by rw [msAfter_sub c hlt]; exact hk, fun heq => absurd heq (msAfter_ne c hpos hlt)⟩

theorem Byte.pos_of_ne {b : Byte} (h : b ≠ 0) : 0 < b.toNat := by bv_omega

/-- R25, R31: a monitor deadline set at the clock. -/
theorem deadlineWithin_monitor (c : Clock) {time : Byte} (htime : time ≠ 0) (due : Prop) :
    deadlineWithin c 1275 due (monitorDeadline c time) := by
  have := Byte.pos_of_ne htime
  exact deadlineWithin_msAfter c (by omega) (by omega) (by decide) due

theorem deadlineWithin.advance {c d : Clock} {bound : Nat} (h : deadlineWithin c bound False d) :
    deadlineWithin (c + 1) bound True d := by
  obtain ⟨hbound, hne⟩ := h
  refine ⟨?_, fun _ => trivial⟩
  have hne' : d ≠ c := hne
  have hle : (d - (c + 1)).toNat ≤ (d - c).toNat := by bv_omega
  omega

theorem deadlineWithin.mono {c d : Clock} {bound : Nat} {due due' : Prop} (h : deadlineWithin c bound due d)
    (hdue : d = c → due → due') : deadlineWithin c bound due' d := ⟨h.1, fun heq => hdue heq (h.2 heq)⟩

/-! ## The deadlines of a state -/

/-- R31, R32, R93, R111, R151: every deadline lies within its bound, and at the clock only where the event is in `A`. -/
def State.deadlinesIn (A : Due → Prop) (s : State) : Prop :=
  (∀ p m, s.ports.get p = .online m → m.monitorTime ≠ 0 ∧ deadlineWithin s.clock 1275 (A (.first p)) m.deadline) ∧
  (∀ p m, s.ports.get p = .late m → m.monitorTime ≠ 0 ∧ deadlineWithin s.clock 1275 (A (.second p)) m.deadline) ∧
  (∀ z r d, 1 ≤ z → z ≤ 31 → s.zone z = some r → r.status = .handover d → deadlineWithin s.clock 2550 (A (.takeover z)) d) ∧
  (∀ n g d, n < 16 → (s.token n).hold = some g → g.deadline = some d → deadlineWithin s.clock 25500 (A (.hold n)) d) ∧
  ∀ p e d, s.exchange.sessions.get p = some e → e.deadline = some d → deadlineWithin s.clock 255 (A (.coalesce p)) d

theorem PortRecord.session_eq_some {r : PortRecord} {m : Membership} : r.session = some m ↔ r = .online m ∨ r = .late m := by
  cases r <;> simp [PortRecord.session]

theorem State.deadlinesAhead_iff (s : State) : s.deadlinesAhead ↔ s.deadlinesIn fun _ => True := by
  have hdue : ∀ {c d : Clock} {bound : Nat}, deadlineWithin c bound True d ↔ (d - c).toNat ≤ bound := fun {c d bound} =>
    and_iff_left fun _ => trivial
  simp only [State.deadlinesAhead, State.deadlinesIn, hdue, PortRecord.session_eq_some, Config.tokenCount]
  constructor
  · rintro ⟨hports, hrest⟩
    exact ⟨fun p m h => hports p m (.inl h), fun p m h => hports p m (.inr h), hrest⟩
  · rintro ⟨honline, hlate, hrest⟩
    exact ⟨fun p m h => h.elim (honline p m) (hlate p m), hrest⟩

section
variable {A : Due → Prop} {s t : State}

/-- R17: what advances the clock by 1 where no deadline stands at it. -/
theorem State.deadlinesIn.advance (h : s.deadlinesIn fun _ => False) :
    ({ s with clock := s.clock + 1, tickDue := true } : State).deadlinesIn fun _ => True := by
  obtain ⟨honline, hlate, hzones, htokens, hsessions⟩ := h
  exact ⟨fun p m hm => ⟨(honline p m hm).1, (honline p m hm).2.advance⟩, fun p m hm => ⟨(hlate p m hm).1, (hlate p m hm).2.advance⟩,
    fun z r d hlow hhigh hr hd => (hzones z r d hlow hhigh hr hd).advance, fun n g d hn hg hd => (htokens n g d hn hg hd).advance,
    fun p e d he hd => (hsessions p e d he hd).advance⟩

/-- A state with the ports, the holds, the takeovers and the coalesce deadlines of another. -/
theorem State.deadlinesIn.congr (h : s.deadlinesIn A) (hclock : t.clock = s.clock) (hports : t.ports = s.ports)
    (hzones : ∀ z r d, t.zone z = some r → r.status = .handover d → ∃ r', s.zone z = some r' ∧ r'.status = .handover d)
    (htokens : t.tokens = s.tokens) (hsessions : t.exchange.sessions = s.exchange.sessions) : t.deadlinesIn A := by
  obtain ⟨honline, hlate, hzone, hhold, hcoalesce⟩ := h
  unfold State.deadlinesIn State.token
  rw [hclock, hports, htokens, hsessions]
  refine ⟨honline, hlate, fun z r d hlow hhigh hr hd => ?_, hhold, hcoalesce⟩
  obtain ⟨r', hr', hd'⟩ := hzones z r d hr hd
  exact hzone z r' d hlow hhigh hr' hd'

theorem State.deadlinesIn.of_frame (h : s.deadlinesIn A) (hclock : t.clock = s.clock) (hports : t.ports = s.ports)
    (hzones : t.zones = s.zones) (htokens : t.tokens = s.tokens) (hexchange : t.exchange = s.exchange) : t.deadlinesIn A := by
  refine h.congr hclock hports (fun z r d hr hd => ⟨r, ?_, hd⟩) htokens (by rw [hexchange])
  rwa [State.zone, ← hzones]

theorem State.deadlinesIn.setZone (h : s.deadlinesIn A) (z : Nat) (o : Option ZoneRecord)
    (ho : ∀ r d, o = some r → r.status = .handover d → ∃ r', s.zone z = some r' ∧ r'.status = .handover d) :
    (s.setZone z o).deadlinesIn A := by
  refine h.congr rfl rfl (fun y r d hr hd => ?_) rfl rfl
  rw [State.zone_setZone] at hr
  split at hr
  · rename_i heq
    subst heq
    exact ho r d hr hd
  · exact ⟨r, hr, hd⟩

theorem deadlinesIn_writes (A : Due → Prop) : KeptByWrites (State.deadlinesIn A) where
  store _ _ h := h
  systemZone _ _ h := h
  count s z h := by
    unfold State.countZone
    split
    · rename_i r hr
      exact h.setZone z _ fun r' d hr' hd => ⟨r, hr, by cases hr'; exact hd⟩
    · exact h
  fire _ _ h := h
  run _ _ h := h

theorem State.deadlinesIn.raise (h : s.deadlinesIn A) (c : Cause) (d : Detail) (p : Port) : (s.raise c d p).deadlinesIn A := by
  rw [State.raise_frame]
  exact h

/-! ## The changes that set a deadline -/

/-- R25, R31: a session's monitor restarted. -/
theorem State.deadlinesIn.setPort (h : s.deadlinesIn A) (p : Port) {r : PortRecord}
    (hr : ∀ m, r.session = some m → m.monitorTime ≠ 0 ∧ m.deadline = monitorDeadline s.clock m.monitorTime) :
    (s.setPort p r).deadlinesIn A := by
  obtain ⟨honline, hlate, hrest⟩ := h
  have hnew : ∀ m (due : Prop), r.session = some m → m.monitorTime ≠ 0 ∧ deadlineWithin s.clock 1275 due m.deadline :=
    fun m due hm => ⟨(hr m hm).1, (hr m hm).2 ▸ deadlineWithin_monitor s.clock (hr m hm).1 due⟩
  refine ⟨fun q m hq => ?_, fun q m hq => ?_, hrest⟩
  · rw [State.setPort_ports, PerPort.get_set] at hq
    split at hq
    · exact hnew m _ (PortRecord.session_eq_some.2 (.inl hq))
    · exact honline q m hq
  · rw [State.setPort_ports, PerPort.get_set] at hq
    split at hq
    · exact hnew m _ (PortRecord.session_eq_some.2 (.inr hq))
    · exact hlate q m hq

theorem State.deadlinesIn.monitorTime (h : s.deadlinesIn A) {p : Port} {m : Membership} (hm : (s.ports.get p).session = some m) :
    m.monitorTime ≠ 0 := by
  obtain ⟨honline, hlate, -⟩ := h
  rcases PortRecord.session_eq_some.1 hm with hm | hm
  · exact (honline p m hm).1
  · exact (hlate p m hm).1

/-- R103: the hold deadlines of tokens that keep theirs or are granted. -/
theorem State.deadlinesIn.tokens (h : s.deadlinesIn A) (hclock : t.clock = s.clock) (hports : t.ports = s.ports)
    (hzones : t.zones = s.zones) (hexchange : t.exchange = s.exchange)
    (htime : ∀ n, n < 16 → (t.token n).timesHold (s.token n) s.clock) : t.deadlinesIn A := by
  obtain ⟨honline, hlate, hzone, hhold, hcoalesce⟩ := h
  unfold State.deadlinesIn State.zone
  rw [hclock, hports, hzones, hexchange]
  refine ⟨honline, hlate, hzone, fun n g d hn hg hd => ?_, hcoalesce⟩
  rcases htime n hn g d hg hd with ⟨g', hg', hd'⟩ | ⟨limit, hlimit, rfl⟩
  · exact hhold n g' d hn hg' hd'
  · have := Byte.pos_of_ne hlimit
    exact deadlineWithin_msAfter s.clock (by omega) (by omega) (by decide) _

/-- R90, R93: the takeover deadlines of zones that keep theirs or enter HANDOVER. -/
theorem State.deadlinesIn.zones (h : s.deadlinesIn A) (hclock : t.clock = s.clock) (hports : t.ports = s.ports)
    (htokens : t.tokens = s.tokens) (hexchange : t.exchange = s.exchange)
    (htime : ∀ z r d, 1 ≤ z ∧ z ≤ 31 → t.zone z = some r → r.status = .handover d →
      (∃ r', s.zone z = some r' ∧ r'.status = .handover d) ∨ ∃ delay : Byte, delay ≠ 0 ∧ d = takeoverDeadline s.clock delay) :
    t.deadlinesIn A := by
  obtain ⟨honline, hlate, hzone, hhold, hcoalesce⟩ := h
  unfold State.deadlinesIn State.token
  rw [hclock, hports, htokens, hexchange]
  refine ⟨honline, hlate, fun z r d hlow hhigh hr hd => ?_, hhold, hcoalesce⟩
  rcases htime z r d ⟨hlow, hhigh⟩ hr hd with ⟨r', hr', hd'⟩ | ⟨delay, hdelay, rfl⟩
  · exact hzone z r' d hlow hhigh hr' hd'
  · have := Byte.pos_of_ne hdelay
    exact deadlineWithin_msAfter s.clock (by omega) (by omega) (by decide) _

theorem State.deadlinesIn.setToken (h : s.deadlinesIn A) (n : Nat) {k : Token} (hk : k.timesHold (s.token n) s.clock) :
    (s.setToken n k).deadlinesIn A := by
  refine h.tokens rfl rfl rfl rfl fun i _ => ?_
  rw [State.token_setToken]
  split
  · subst_vars
    exact hk
  · exact Token.timesHold_of_hold rfl

/-- R150: a change of the message exchange. -/
theorem State.deadlinesIn.exchange (h : s.deadlinesIn A) (hstep : ExchangeStep s t) : t.deadlinesIn A := by
  obtain ⟨honline, hlate, hzones, hhold, hcoalesce⟩ := h
  have hclock : t.clock = s.clock := by rw [hstep.frame]
  refine ⟨?_, ?_, ?_, ?_, fun p e' d he' hd => ?_⟩
  · rw [hstep.frame]
    exact honline
  · rw [hstep.frame]
    exact hlate
  · rw [hstep.frame]
    exact hzones
  · rw [hstep.frame]
    exact hhold
  · obtain ⟨e, he, hset⟩ := hstep.deadlines p e' he'
    rw [hclock]
    rcases hset d hd with hstood | ⟨time, htime, rfl⟩
    · exact hcoalesce p e d he hstood
    · have := Byte.pos_of_ne htime
      exact deadlineWithin_msAfter s.clock (by omega) (by omega) (by decide) _

end
end Sys2Proof.Machine
end

section
/-! The deadlines through the end of a session and through a warm reset, and then every step (R17). -/

namespace Sys2Proof.Machine

section
variable {A : Due → Prop} {s : State}

/-! ## The end of a session (R34) -/

theorem Token.timesHold_atEnd (k : Token) (ended : SessionRef) (broken : Bool) (c : Clock) :
    (k.atEnd ended broken c).timesHold k c := by
  unfold Token.atEnd
  dsimp only
  split
  · exact Token.timesHold_handOn _ _ _ _
  · exact Token.timesHold_of_hold rfl

theorem State.deadlinesIn.endRecords (h : s.deadlinesIn A) (ended : SessionRef) (cause : EndCause) :
    (s.endRecords ended cause).deadlinesIn A := by
  have hdetached : (s.detached ended).deadlinesIn A := h
  have htokens : ((s.detached ended).tokensAtEnd ended cause.isLoss).deadlinesIn A := by
    refine hdetached.tokens (by simp) (by simp) (by simp) (by simp) fun n hn => ?_
    rw [State.token_tokensAtEnd, if_pos (show n < Config.tokenCount from hn)]
    exact Token.timesHold_atEnd _ _ _ _
  obtain ⟨honline, hlate, hzones, hhold, hcoalesce⟩ := htokens.exchange (ExchangeStep.drain _ ended.port true true)
  refine ⟨honline, hlate, hzones, hhold, fun p e d he hd => ?_⟩
  simp only [State.endRecords, State.messagesAtEnd, PerPort.get_set] at he
  split at he
  · nomatch he
  · exact hcoalesce p e d he hd

/-- R90: a session end sets takeover deadlines by the delays of the zones alone. -/
theorem State.handover_of_zoneAtEnd {ended : SessionRef} {cause : EndCause} {z : Nat} {m : ZoneMove}
    (hm : s.zoneAtEnd ended cause z = some m) {d : Clock} (hd : m.status = .handover d) :
    ∃ delay : Byte, delay ≠ 0 ∧ d = takeoverDeadline s.clock delay := by
  unfold State.zoneAtEnd at hm
  split at hm
  · nomatch hm
  · rename_i r _
    split at hm
    · split at hm
      · obtain rfl := Option.some.inj hm
        unfold State.ownedAtEnd at hd
        split at hd
        · split at hd
          · nomatch hd
          · rename_i hlater
            exact ⟨r.delay, fun h => hlater (.inr h), (ZoneStatus.handover.inj hd).symm⟩
        · split at hd <;> nomatch hd
      · nomatch hm
    · split at hm
      · obtain rfl := Option.some.inj hm
        nomatch hd
      · nomatch hm
    · nomatch hm
    · nomatch hm

theorem State.deadlinesIn.endSession (h : s.deadlinesIn A) (ended : SessionRef) (cause : EndCause) {monitor : List (List Action)}
    (hmonitor : ∀ a ∈ List.flatten monitor, (∃ w, a = Action.system w ∧ w.plain) ∨ ∃ n, a = Action.raise n) :
    (s.endSession ended cause monitor).deadlinesIn A := by
  have hrecords := h.endRecords ended cause
  have hzones : (s.endRecords ended cause).zones = s.zones := State.endRecords_zones ..
  have hclock : (s.endRecords ended cause).clock = s.clock := by simp [State.endRecords, State.dropAttention]
  refine hrecords.zones ?_ ?_ (State.endSession_tokens ..) (State.endSession_exchange ..) fun z r d hz hr hd => ?_
  · rw [State.endSession_clock, hclock]
  · rw [State.endSession_ports]
    simp [State.endRecords, State.dropAttention]
  · rw [State.endSession_record s ended cause monitor (fun a ha => ?_) z hz.1 hz.2] at hr
    · split at hr
      · rename_i m hm
        obtain ⟨q, -, rfl⟩ := Option.map_eq_some_iff.1 hr
        rw [hclock]
        exact .inr (State.handover_of_zoneAtEnd hm hd)
      · exact .inl ⟨r, by rwa [State.zone, hzones], hd⟩
    · rcases hmonitor a ha with ⟨w, rfl, -⟩ | ⟨n, rfl⟩
      · exact ⟨fun _ => Action.noConfusion, fun _ => Action.noConfusion⟩
      · exact ⟨fun _ => Action.noConfusion, fun _ => Action.noConfusion⟩

/-! ## The resets -/

theorem State.deadlinesIn_powerOn (A : Due → Prop) (ph : ResetPhase) (links : PerPort Link) (draws : Nat) (pending : List Instr) :
    (State.powerOn ph links draws pending).deadlinesIn A := by
  refine ⟨fun p m hm => ?_, fun p m hm => ?_, fun z r d _ _ hr => (nomatch hr), fun n g d _ hg => (nomatch hg), fun p e d he => ?_⟩
  all_goals cases p <;> contradiction

theorem State.deadlinesIn_warmReset (A : Due → Prop) (s : State) : s.warmReset.deadlinesIn A := by
  obtain ⟨-, -, -, -, -, hports, hexchange⟩ := s.warmReset_records
  unfold State.deadlinesIn
  rw [hports, hexchange]
  refine ⟨fun p m hm => ?_, fun p m hm => ?_, fun z r d hlow hhigh hr hd => ?_, fun n g d hn hg => ?_, fun p e d he => ?_⟩
  · rw [PerPort.get_fill] at hm
    nomatch hm
  · rw [PerPort.get_fill] at hm
    nomatch hm
  · rw [State.warmReset_zone ⟨hlow, hhigh⟩] at hr
    obtain ⟨q, -, rfl⟩ := Option.map_eq_some_iff.1 hr
    have hstatus : (q.policyApplied 0 (s.epoch + 1)).warmReset.status = .orphaned :=
      congrArg ZoneRecord.status (q.warmReset_policyApplied 0 (s.epoch + 1))
    have horphaned : ZoneStatus.orphaned = .handover d := hstatus.symm.trans hd
    nomatch horphaned
  · rw [s.token_warmReset hn] at hg
    exact absurd hg (Option.some_ne_none g).symm
  · have hnone : Exchange.reset.sessions.get p = none := PerPort.get_fill none p
    nomatch hnone.symm.trans he

/-! ## Every change -/

theorem deadlinesIn_kept (A : Due → Prop) : Kept (State.deadlinesIn A) where
  draws _ _ h := h
  phase _ _ h := h
  link _ _ _ h := h
  port s p r hr h := by
    obtain ⟨m, hm, -, hset⟩ := hr
    refine h.setPort p fun m' hm' => ?_
    obtain ⟨htime, hdeadline⟩ := hset m' hm'
    exact ⟨htime ▸ h.monitorTime hm, htime ▸ hdeadline⟩
  ends s p m r cause monitor _ hr hmonitor h :=
    (h.setPort p fun m' hm' => nomatch hr.symm.trans hm').endSession _ _ hmonitor
  points s w _ h := (deadlinesIn_writes A).writeSystem s w h
  raise _ c d p h := h.raise c d p
  ownership _ _ h := h
  defines s z _ _ _ _ _ _ _ _ _ h := h.setZone z _ fun r d hr hd => by cases hr; nomatch hd
  zone s z r r' hr hchanges h := h.setZone z _ fun q d hq hd => ⟨r, hr, hchanges.2 d (by cases hq; exact hd)⟩
  retires s z h := h.setZone z none fun r d hr => nomatch hr
  timers _ _ _ h := h
  unwatch _ _ h := h
  clearing s _ _ r _ _ h := (deadlinesIn_writes A).writeClearing s r.zeros h
  writes s zs w _ _ h := (deadlinesIn_writes A).writeZones s zs w h
  token s n k hk h := h.setToken n hk.2
  timer s n t h := (deadlinesIn_writes A).writeSystem (s.setTimer n t) _ h
  tick := (deadlinesIn_writes A).tickEvent fun _ _ h => h
  exchange s t hstep _ h := (deadlinesIn_writes A).writeSystem _ _ (h.exchange hstep)
  settings s p f hf h := h.exchange (.mapMessages s p hf.2)
  attend _ _ _ _ _ _ h := h
  faults s fs o _ h := (deadlinesIn_writes A).writeSystem _ _ (show ({ s with faults := fs, overflow := o } : State).deadlinesIn A from h)
  warm s _ := s.deadlinesIn_warmReset A
  power _ _ _ _ := State.deadlinesIn_powerOn ..
  freeWord s h := (deadlinesIn_writes A).writeSystem _ _ (show ({ s with freeWordDue := false } : State).deadlinesIn A from h)

theorem deadlinesIn_begins (A : Due → Prop) (s : State) (p : Port) (number : Half) (m : Membership)
    (hm : (s.ports.get p).session = none ∧ m.startsAt s.clock) (h : s.deadlinesIn A) : ({ s with
      sessionCounter := number, ports := s.ports.set p (.online m), attention := s.attention.set p (some .start),
      exchange := { s.exchange with sessions := s.exchange.sessions.set p (some .start) } } : State).deadlinesIn A := by
  obtain ⟨honline, hlate, hzones, hhold, hcoalesce⟩ := h.setPort p (r := .online m) fun m' hm' => by
    cases hm'
    exact hm.2
  refine ⟨honline, hlate, hzones, hhold, fun q e d he hd => ?_⟩
  rw [PerPort.get_set] at he
  split at he
  · obtain rfl := Option.some.inj he
    nomatch hd
  · exact hcoalesce q e d he hd

end
/-! ## What is due (R17) -/

section
variable (s : State) {c : Clock}

theorem State.deadlineOf_first {p : Port} : s.deadlineOf (.first p) = some c ↔ ∃ m, s.ports.get p = .online m ∧ m.deadline = c := by
  rw [State.deadlineOf]
  cases hr : s.ports.get p <;> simp [PortRecord.isOnline, PortRecord.session]

theorem State.deadlineOf_second {p : Port} : s.deadlineOf (.second p) = some c ↔ ∃ m, s.ports.get p = .late m ∧ m.deadline = c := by
  rw [State.deadlineOf]
  cases hr : s.ports.get p <;> simp [PortRecord.isLate, PortRecord.session]

theorem State.deadlineOf_takeover {z : Nat} :
    s.deadlineOf (.takeover z) = some c ↔ ∃ r, s.zone z = some r ∧ r.status = .handover c := by
  have hstatus : ∀ status : ZoneStatus, status.deadline? = some c ↔ status = .handover c := fun status => by
    cases status <;> simp [ZoneStatus.deadline?]
  simp only [State.deadlineOf, Option.bind_eq_some_iff, hstatus]

theorem State.deadlineOf_hold {n : Nat} :
    s.deadlineOf (.hold n) = some c ↔ ∃ g, (s.token n).hold = some g ∧ g.deadline = some c := Option.bind_eq_some_iff

theorem State.deadlineOf_coalesce {p : Port} :
    s.deadlineOf (.coalesce p) = some c ↔ ∃ e, s.exchange.sessions.get p = some e ∧ e.deadline = some c := Option.bind_eq_some_iff

theorem State.deadlineOf_tick : s.deadlineOf .tick = some s.clock ↔ s.tickDue = true := by
  simp [State.deadlineOf]

end

/-! ## What an advance takes (R17) -/

theorem State.clock_takeDue (s : State) (d : Due) : (s.takeDue d).clock = s.clock := by
  refine keeps_takeDue s d .clock ?_
  cases d <;> simp [eventReaches, Due.command, Machine.endBlocks]

section
variable {A : Due → Prop} {s : State}

/-- R17: an event that is no longer due at the clock is due no more. -/
theorem State.deadlinesIn.drop (h : s.deadlinesIn A) {d : Due} (hd : d ≠ .tick → s.deadlineOf d ≠ some s.clock) :
    s.deadlinesIn fun e => A e ∧ e ≠ d := by
  obtain ⟨honline, hlate, hzones, hhold, hcoalesce⟩ := h
  have hne : ∀ {e : Due}, e ≠ .tick → s.deadlineOf e = some s.clock → e ≠ d := by
    rintro e htick hdue rfl
    exact hd htick hdue
  refine ⟨fun p m hm => ⟨(honline p m hm).1, (honline p m hm).2.mono fun heq hdue => ⟨hdue, hne Due.noConfusion ?_⟩⟩,
    fun p m hm => ⟨(hlate p m hm).1, (hlate p m hm).2.mono fun heq hdue => ⟨hdue, hne Due.noConfusion ?_⟩⟩,
    fun z r d hlow hhigh hr hd => (hzones z r d hlow hhigh hr hd).mono fun heq hdue => ⟨hdue, hne Due.noConfusion ?_⟩,
    fun n g d hn hg hd => (hhold n g d hn hg hd).mono fun heq hdue => ⟨hdue, hne Due.noConfusion ?_⟩,
    fun p e d he hd => (hcoalesce p e d he hd).mono fun heq hdue => ⟨hdue, hne Due.noConfusion ?_⟩⟩
  · exact s.deadlineOf_first.2 ⟨m, hm, heq⟩
  · exact s.deadlineOf_second.2 ⟨m, hm, heq⟩
  · exact s.deadlineOf_takeover.2 ⟨r, hr, heq ▸ hd⟩
  · exact s.deadlineOf_hold.2 ⟨g, hg, heq ▸ hd⟩
  · exact s.deadlineOf_coalesce.2 ⟨e, he, heq ▸ hd⟩

/-- R31: an ONLINE port is LATE after its expiry. -/
theorem State.deadlineOf_firstExpiry (s : State) (p : Port) : (s.firstExpiry p).deadlineOf (.first p) ≠ some s.clock := by
  rw [Ne, State.deadlineOf_first]
  by_cases h : ∃ m, s.ports.get p = .online m ∧ m.deadline = s.clock
  · obtain ⟨m, hm, hdue⟩ := h
    rw [State.firstExpiry_of_reached hm hdue]
    rintro ⟨m', hm', -⟩
    nomatch (s.monitorEvent_ports_same p (.late m.fallLate)).symm.trans hm'
  · rwa [State.firstExpiry_of_not fun m hm hdue => h ⟨m, hm, hdue⟩]

/-- R32: a LATE port is LOST after its expiry. -/
theorem State.deadlineOf_secondExpiry (s : State) (p : Port) : (s.secondExpiry p).deadlineOf (.second p) ≠ some s.clock := by
  rw [Ne, State.deadlineOf_second]
  by_cases h : ∃ m, s.ports.get p = .late m ∧ m.deadline = s.clock
  · obtain ⟨m, hm, hdue⟩ := h
    rw [State.secondExpiry_of_reached hm hdue, State.raisePeer_ports, State.endSession_ports, State.setPort_ports,
      PerPort.get_set_same]
    exact fun ⟨m', hm', _⟩ => nomatch hm'
  · rwa [State.secondExpiry_of_not fun m hm hdue => h ⟨m, hm, hdue⟩]

/-- R93: a zone whose takeover is due leaves HANDOVER. -/
theorem State.deadlineOf_takeoverExpiry (s : State) {z : Nat} (hz : 1 ≤ z ∧ z ≤ 31) :
    (s.takeoverExpiry z).deadlineOf (.takeover z) ≠ some s.clock := by
  rw [Ne, State.deadlineOf_takeover]
  by_cases h : ∃ r, s.zone z = some r ∧ r.status = .handover s.clock
  · obtain ⟨r, hr, hstatus⟩ := h
    rw [State.takeoverExpiry_of_reached hr hstatus rfl, State.takeover]
    cases heligible : s.eligibleStandby r with
    | none =>
      have hzone : (s.orphanZone z r).zone z = some { r with status := .orphaned } :=
        (State.zone_raisingBlocks _ z).trans (by rw [State.raiseFor_zone, State.fireOwnership_zone, State.zone_setZone_same])
      dsimp only
      rw [hzone]
      rintro ⟨q, hq, hd⟩
      obtain rfl := Option.some.inj hq
      nomatch hd
    | some owner =>
      dsimp only
      rw [State.giveZone_of_handover ⟨hz.1, hz.2, hr⟩ owner hstatus, State.raise_zone, State.writeSystem_zone, State.fireOwnership_zone,
        State.zone_setZone_same]
      rintro ⟨q, hq, hd⟩
      obtain rfl := Option.some.inj hq
      nomatch hd
  · rwa [State.takeoverExpiry_of_none fun r d hr hstatus hd => h ⟨r, hr, hd ▸ hstatus⟩]

/-- R111: a token whose hold is due is handed on. -/
theorem State.deadlineOf_holdExpiry (s : State) (n : Nat) : (s.holdExpiry n).deadlineOf (.hold n) ≠ some s.clock := by
  rw [Ne, State.deadlineOf_hold]
  by_cases h : ∃ g, (s.token n).hold = some g ∧ g.deadline = some s.clock
  · obtain ⟨g, hg, hdeadline⟩ := h
    have htoken : (s.revoke n (s.token n) g.holder).token n = (s.token n).handOn true s.clock := by
      rw [State.revoke, State.actFreely_token]
      exact (s.revokeRecords_token n g.holder n).trans (if_pos rfl)
    rw [State.holdExpiry_of_reached hg hdeadline rfl, htoken]
    rintro ⟨g', hg', hd'⟩
    rcases Token.timesHold_handOn (s.token n) .powerOn true s.clock g' _ hg' hd' with ⟨_, hnone, -⟩ | ⟨limit, hlimit, heq⟩
    · nomatch hnone
    · have := Byte.pos_of_ne hlimit
      exact msAfter_ne s.clock (k := limit.toNat * 100) (by omega) (by omega) heq.symm
  · rwa [State.holdExpiry_of_none fun g d hg hd hdue => h ⟨g, hg, hdue ▸ hd⟩]

/-- R151: a coalesce timer that is due stops. -/
theorem State.deadlineOf_coalesceExpiry (s : State) (p : Port) :
    (s.coalesceExpiry p).deadlineOf (.coalesce p) ≠ some s.clock := by
  rw [Ne, State.deadlineOf_coalesce]
  by_cases h : ∃ e, s.exchange.sessions.get p = some e ∧ e.deadline = some s.clock
  · obtain ⟨e, he, hdeadline⟩ := h
    have hstopped : (s.coalesceExpires p).exchange = (s.stopCoalesce p).exchange := by
      unfold State.coalesceExpires
      split
      · rfl
      · rw [State.raise_frame]
    rw [State.coalesceExpiry_of_reached he hdeadline, hstopped, State.stopCoalesce, State.mapMessages, PerPort.get_set_same, he]
    rintro ⟨e', he', hd⟩
    obtain rfl := Option.some.inj he'
    nomatch hd
  · rwa [State.coalesceExpiry_of_not fun e d he hd hdue => h ⟨e, he, hdue ▸ hd⟩]

/-- R31, R32, R93, R111, R151: an event taken is due no more at the clock's value. -/
theorem State.deadlineOf_takeDue (s : State) {d : Due} (hd : d ∈ Due.all) (htick : d ≠ .tick) :
    (s.takeDue d).deadlineOf d ≠ some (s.takeDue d).clock := by
  rw [State.clock_takeDue]
  cases d with
  | first p => exact s.deadlineOf_firstExpiry p
  | second p => exact s.deadlineOf_secondExpiry p
  | takeover z => exact s.deadlineOf_takeoverExpiry (((Due.mem_all _).1 hd).1 z rfl)
  | hold n => exact s.deadlineOf_holdExpiry n
  | coalesce p => exact s.deadlineOf_coalesceExpiry p
  | tick => exact absurd rfl htick

theorem State.deadlinesIn.takeDue (h : s.deadlinesIn A) {d : Due} (hd : d ∈ Due.all) :
    (s.takeDue d).deadlinesIn fun e => A e ∧ e ≠ d :=
  State.deadlinesIn.drop ((deadlinesIn_kept A).takeDue s d h) (s.deadlineOf_takeDue hd)

theorem State.deadlinesIn.weaken (h : s.deadlinesIn A) {B : Due → Prop} (hAB : ∀ d, s.deadlineOf d = some s.clock → d ∈ Due.all → A d → B d) :
    s.deadlinesIn B := by
  obtain ⟨honline, hlate, hzones, hhold, hcoalesce⟩ := h
  refine ⟨fun p m hm => ⟨(honline p m hm).1, (honline p m hm).2.mono fun heq => hAB _ ?_ ((Due.mem_all _).2 ⟨nofun, nofun⟩)⟩,
    fun p m hm => ⟨(hlate p m hm).1, (hlate p m hm).2.mono fun heq => hAB _ ?_ ((Due.mem_all _).2 ⟨nofun, nofun⟩)⟩,
    fun z r d hlow hhigh hr hd => (hzones z r d hlow hhigh hr hd).mono fun heq => hAB _ ?_
      ((Due.mem_all _).2 ⟨fun y hy => Due.takeover.inj hy ▸ ⟨hlow, hhigh⟩, nofun⟩),
    fun n g d hn hg hd => (hhold n g d hn hg hd).mono fun heq => hAB _ ?_
      ((Due.mem_all _).2 ⟨nofun, fun i hi => Due.hold.inj hi ▸ hn⟩),
    fun p e d he hd => (hcoalesce p e d he hd).mono fun heq => hAB _ ?_ ((Due.mem_all _).2 ⟨nofun, nofun⟩)⟩
  · exact s.deadlineOf_first.2 ⟨m, hm, heq⟩
  · exact s.deadlineOf_second.2 ⟨m, hm, heq⟩
  · exact s.deadlineOf_takeover.2 ⟨r, hr, heq ▸ hd⟩
  · exact s.deadlineOf_hold.2 ⟨g, hg, heq ▸ hd⟩
  · exact s.deadlineOf_coalesce.2 ⟨e, he, heq ▸ hd⟩

/-- R17: once everything that is due has been taken, no deadline stands at the clock's value. -/
theorem State.deadlinesIn_takeAllDue (h : s.deadlinesIn fun _ => True) : s.takeAllDue.deadlinesIn fun _ => False := by
  obtain ⟨order, draws, perm, htaken⟩ := s.takeAllDue_eq
  have hstart : ({ s with freeDraws := draws } : State).deadlinesIn (· ∈ order) :=
    State.deadlinesIn.weaken (A := fun _ => True) (s := { s with freeDraws := draws }) h fun d hdue hd _ => perm.mem_iff.2 ((s.mem_dueNow d).2 ⟨hd, hdue⟩)
  have hall : ∀ d ∈ order, d ∈ Due.all := fun d hd => ((s.mem_dueNow d).1 (perm.mem_iff.1 hd)).1
  have htake : ∀ (ds : List Due) (u : State), (∀ d ∈ ds, d ∈ Due.all) → u.deadlinesIn (· ∈ ds) →
      (ds.foldl State.takeDue u).deadlinesIn fun _ => False := by
    intro ds
    induction ds with
    | nil => exact fun u _ hu => hu.weaken fun d _ _ => List.not_mem_nil
    | cons d rest ih =>
      refine fun u hds hu => ih _ (fun e he => hds e (List.mem_cons_of_mem _ he)) ?_
      refine (hu.takeDue (hds d List.mem_cons_self)).weaken fun e _ _ ⟨hmem, hne⟩ => ?_
      exact (List.mem_cons.1 hmem).resolve_left hne
  rw [htaken]
  exact htake order _ hall hstart

end

/-! ## Every step -/

theorem deadlinesAhead_steps : StepKeeps State.deadlinesAhead State.deadlinesAhead := by
  have hsame : State.deadlinesAhead = State.deadlinesIn fun _ => True := funext fun s => propext s.deadlinesAhead_iff
  rw [hsame]
  have kept := deadlinesIn_kept fun _ => True
  refine kept.stepsFrom (fun s h => ?_) (fun _ h => h) (fun s p l h => kept.link s p l h) (fun s p n h => kept.qualify s p n h)
    fun s p n body h => ?_
  · have hclock : s.takeAllDue.clock = s.clock := State.takeAllDue_keeps (fun t => t.clock = s.clock) s (fun _ => rfl)
      fun u d _ hu => (u.clock_takeDue d).trans hu
    rw [← hclock]
    exact (State.deadlinesIn_takeAllDue h).advance
  · unfold Machine.serviceOf Machine.serveJoin
    dsimp only
    split
    · split
      · rename_i htime
        exact kept.beginSession (deadlinesIn_begins _) _ p (State.session_replaceSession s p) htime.2 (kept.replaceSession s p h)
      · exact h
    · exact h

/-! ## The advance (R17) -/

theorem shuffle_nil {α : Type} (n : Nat) : shuffle n ([] : List α) = ([], n) := rfl

theorem State.takeAllDue_of_none {s : State} (h : s.dueNow = []) : s.takeAllDue = s := by
  unfold State.takeAllDue
  rw [h, shuffle_nil]
  rfl

theorem exec_cellClockAdvance (s : State) : exec .cellClockAdvance s =
    .next (if s.phase = .running then { s.takeAllDue with clock := s.clock + 1, tickDue := true } else s) := rfl

/-- R17, R31, R32, R93, R111, R119, R151: the commands of what is due at the clock's value. -/
theorem State.mem_dueNow_command (s : State) (c : Instr) : c ∈ s.dueNow.map Due.command ↔
    (∃ p m, c = .monitorFirstExpiry p ∧ s.ports.get p = .online m ∧ m.deadline = s.clock) ∨
    (∃ p m, c = .monitorSecondExpiry p ∧ s.ports.get p = .late m ∧ m.deadline = s.clock) ∨
    (∃ z r, c = .takeoverDeadlineExpiry z ∧ 1 ≤ z ∧ z ≤ 31 ∧ s.zone z = some r ∧ r.status = .handover s.clock) ∨
    (∃ n h, c = .holdDeadlineExpiry n ∧ n < 16 ∧ (s.token n).hold = some h ∧ h.deadline = some s.clock) ∨
    (∃ p e, c = .coalesceDeadlineExpiry p ∧ s.exchange.sessions.get p = some e ∧ e.deadline = some s.clock) ∨
    (c = .timerTick ∧ s.tickDue = true) := by
  simp only [List.mem_map, State.mem_dueNow, Due.mem_all]
  constructor
  · rintro ⟨d, ⟨⟨hzone, htoken⟩, hdue⟩, rfl⟩
    cases d with
    | first p =>
      obtain ⟨m, hm, hd⟩ := s.deadlineOf_first.1 hdue
      exact .inl ⟨p, m, rfl, hm, hd⟩
    | second p =>
      obtain ⟨m, hm, hd⟩ := s.deadlineOf_second.1 hdue
      exact .inr (.inl ⟨p, m, rfl, hm, hd⟩)
    | takeover z =>
      obtain ⟨r, hr, hd⟩ := s.deadlineOf_takeover.1 hdue
      exact .inr (.inr (.inl ⟨z, r, rfl, (hzone z rfl).1, (hzone z rfl).2, hr, hd⟩))
    | hold n =>
      obtain ⟨g, hg, hd⟩ := s.deadlineOf_hold.1 hdue
      exact .inr (.inr (.inr (.inl ⟨n, g, rfl, htoken n rfl, hg, hd⟩)))
    | coalesce p =>
      obtain ⟨e, he, hd⟩ := s.deadlineOf_coalesce.1 hdue
      exact .inr (.inr (.inr (.inr (.inl ⟨p, e, rfl, he, hd⟩))))
    | tick => exact .inr (.inr (.inr (.inr (.inr ⟨rfl, s.deadlineOf_tick.1 hdue⟩))))
  · rintro (⟨p, m, rfl, hm, hd⟩ | ⟨p, m, rfl, hm, hd⟩ | ⟨z, r, rfl, hlow, hhigh, hr, hd⟩ | ⟨n, g, rfl, hn, hg, hd⟩ |
      ⟨p, e, rfl, he, hd⟩ | ⟨rfl, htick⟩)
    · exact ⟨.first p, ⟨⟨nofun, nofun⟩, s.deadlineOf_first.2 ⟨m, hm, hd⟩⟩, rfl⟩
    · exact ⟨.second p, ⟨⟨nofun, nofun⟩, s.deadlineOf_second.2 ⟨m, hm, hd⟩⟩, rfl⟩
    · exact ⟨.takeover z, ⟨⟨fun y hy => Due.takeover.inj hy ▸ ⟨hlow, hhigh⟩, nofun⟩, s.deadlineOf_takeover.2 ⟨r, hr, hd⟩⟩, rfl⟩
    · exact ⟨.hold n, ⟨⟨nofun, fun i hi => Due.hold.inj hi ▸ hn⟩, s.deadlineOf_hold.2 ⟨g, hg, hd⟩⟩, rfl⟩
    · exact ⟨.coalesce p, ⟨⟨nofun, nofun⟩, s.deadlineOf_coalesce.2 ⟨e, he, hd⟩⟩, rfl⟩
    · exact ⟨.tick, ⟨⟨nofun, nofun⟩, s.deadlineOf_tick.2 htick⟩, rfl⟩

/-- Settles O22: an advance takes what is due and counts; and no step leaves a deadline behind the clock. -/
theorem clockCountsMilliseconds : Obligations.ClockCountsMilliseconds := by
  refine ⟨fun s => ⟨fun hphase => by rw [exec_cellClockAdvance, if_neg hphase], fun hphase => ?_⟩,
    fun s t h hstep => deadlinesAhead_steps.step (fun _ _ h => h) s t h hstep⟩
  intro due
  have hdue : ∀ c, c ∈ s.dueNow.map Due.command ↔ due c := s.mem_dueNow_command
  rw [exec_cellClockAdvance, if_pos hphase]
  refine ⟨fun hnone => ?_, ?_⟩
  · rw [State.takeAllDue_of_none]
    refine List.eq_nil_iff_forall_not_mem.2 fun d hd => hnone d.command ((hdue _).1 (List.mem_map_of_mem hd))
  · obtain ⟨order, draws, perm, htaken⟩ := s.takeAllDue_eq
    refine ⟨order.map Due.command, draws, ?_, fun c => ?_, ?_⟩
    · exact ((perm.nodup_iff.2 s.dueNow_nodup).map Due.command_injective)
    · rw [← hdue, (perm.map Due.command).mem_iff]
    · rw [htaken, List.foldl_map, funext fun u => funext fun d => State.takeDue_eq_after u d]

end Sys2Proof.Machine
end

section
/-! What the end of a session leaves of the tokens (R113), of the timers (R132) and of the other sessions' OWNERSHIP watches (R79,
R164), at whatever event it happens. -/

namespace Sys2Proof.Machine

/-! ## A token whose session ends (R113) -/

/-- R113: the wait list without the session that ends. -/
def Token.waitingWithout (k : Token) (ended : SessionRef) : List SessionRef := k.waiters.filter fun w => decide (w ≠ ended)

section
variable {k : Token} {ended : SessionRef} {broken : Bool} {clock : Clock}

theorem Token.atEnd_eq (k : Token) (ended : SessionRef) (broken : Bool) (clock : Clock) : k.atEnd ended broken clock =
    if k.heldBy ended then ({ k with waiters := k.waitingWithout ended } : Token).handOn broken clock
    else { k with waiters := k.waitingWithout ended } := by
  have hfilter : (k.waiters.filter fun w => w != ended) = k.waitingWithout ended :=
    List.filter_congr fun w _ => by by_cases h : w = ended <;> simp [h]
  rw [Token.atEnd, hfilter]

theorem Token.not_mem_waitingWithout (k : Token) (ended : SessionRef) : ended ∉ k.waitingWithout ended := by
  simp [Token.waitingWithout]

theorem Token.atEnd_of_other (h : k.heldBy ended = false) :
    k.atEnd ended broken clock = { k with waiters := k.waitingWithout ended } := by
  rw [Token.atEnd_eq, h]
  rfl

theorem Token.atEnd_of_alone (h : k.heldBy ended = true) (hwaiting : k.waitingWithout ended = []) :
    k.atEnd ended broken clock = { k with hold := none, waiters := [], broken := broken } := by
  rw [Token.atEnd_eq, h, if_pos rfl, Token.handOn_nil hwaiting, hwaiting]

/-- R113: a new hold for the head of the wait list, with the token's own limit. -/
theorem Token.atEnd_of_head (h : k.heldBy ended = true) {w : SessionRef} {rest : List SessionRef}
    (hwaiting : k.waitingWithout ended = w :: rest) : k.atEnd ended broken clock = {
      hold := some {
        holder := w
        grantTime := clock
        deadline := if k.limit = 0 then none else some (clock + BitVec.ofNat 32 (k.limit.toNat * 100)) }
      limit := k.limit
      waiters := rest
      broken := false } := by
  rw [Token.atEnd_eq, h, if_pos rfl, Token.handOn_cons hwaiting]
  rfl

theorem Token.heldBy_of_hold {h : Hold} (hold : k.hold = some h) : k.heldBy ended = decide (h.holder = ended) := by
  by_cases heq : h.holder = ended <;> simp [Token.heldBy, hold, heq]

theorem Token.heldBy_eq_false (h : ∀ g, k.hold = some g → g.holder ≠ ended) : k.heldBy ended = false := by
  cases hold : k.hold with
  | none => simp [Token.heldBy, hold]
  | some g =>
    rw [Token.heldBy_of_hold hold]
    exact decide_eq_false (h g hold)

/-- R113: no token is held or waited for by a session that ended. -/
theorem Token.atEnd_gone (k : Token) (ended : SessionRef) (broken : Bool) (clock : Clock) :
    (k.atEnd ended broken clock).heldBy ended = false ∧ ended ∉ (k.atEnd ended broken clock).waiters := by
  have hnot := k.not_mem_waitingWithout ended
  cases hheld : k.heldBy ended with
  | false =>
    rw [Token.atEnd_of_other hheld]
    exact ⟨hheld, hnot⟩
  | true =>
    cases hwaiting : k.waitingWithout ended with
    | nil =>
      rw [Token.atEnd_of_alone hheld hwaiting]
      exact ⟨rfl, List.not_mem_nil⟩
    | cons w rest =>
      rw [hwaiting] at hnot
      obtain ⟨hhead, hrest⟩ := not_or.1 (fun h => hnot (List.mem_cons.2 h))
      rw [Token.atEnd_of_head hheld hwaiting, Token.heldBy_of_hold rfl]
      exact ⟨decide_eq_false (Ne.symm hhead), hrest⟩

/-- R113: a token whose holder's session ends has another holder or none. -/
theorem Token.atEnd_changes (h : k.heldBy ended = true) :
    k.hold.map Hold.holder ≠ (k.atEnd ended broken clock).hold.map Hold.holder := by
  intro heq
  have hgone := (k.atEnd_gone ended broken clock).1
  rw [(Token.heldBy_iff k ended).1 h] at heq
  rw [(Token.heldBy_iff _ _).2 heq.symm] at hgone
  exact Bool.noConfusion hgone

end

/-- R61, R110: the token arbiter's write shows a token whose holder changes. -/
theorem State.store_tokenPoints (s before after : State) {n : Nat} (hn : n < 16)
    (hchange : (before.token n).hold.map Hold.holder ≠ (after.token n).hold.map Hold.holder) :
    (s.store (tokenPoints before after)).bit (32 + n) = (after.token n).hold.isSome ∧
      (s.store (tokenPoints before after)).word (32 + n) = (after.token n).holderCode := by
  have hmem : n ∈ (List.range Config.tokenCount).filter fun t =>
      (before.token t).hold.map Hold.holder != (after.token t).hold.map Hold.holder :=
    List.mem_filter.2 ⟨List.mem_range.2 hn, bne_iff_ne.2 hchange⟩
  constructor
  · refine State.bit_store_of_mem (List.mem_map.2 ⟨n, hmem, rfl⟩) fun b hb heq => ?_
    obtain ⟨k, -, rfl⟩ := List.mem_map.1 hb
    rw [Nat.add_left_cancel heq]
  · refine State.word_store_of_mem (List.mem_map.2 ⟨n, hmem, rfl⟩) fun b hb heq => ?_
    obtain ⟨k, -, rfl⟩ := List.mem_map.1 hb
    rw [Nat.add_left_cancel heq]

/-! ## The session that a token passes to is told (R112, R160) -/

/-- R160: a record that names token `n` under TOKEN, as granted or as granted broken. -/
def AttentionRecord.namesGrant (n : Nat) (broken : Bool) (a : AttentionRecord) : Prop :=
  a.pending.getLsbD 2 = true ∧ (if broken then a.grantedBroken.getLsbD n else a.granted.getLsbD n) = true

theorem AttentionRecord.namesGrant.fireWhere {a : AttentionRecord} {n : Nat} {broken : Bool} (h : a.namesGrant n broken)
    (sees : Watch → Bool) : (a.fireWhere sees).namesGrant n broken := by
  have hdetails := a.details_fireWhere sees
  have hgranted : (a.fireWhere sees).granted = a.granted := congrArg (fun d => d.2.2.1) hdetails
  have hbroken : (a.fireWhere sees).grantedBroken = a.grantedBroken := congrArg (fun d => d.2.2.2.1) hdetails
  obtain ⟨hpending, hgrant⟩ := h
  refine ⟨a.fireWhere_pending sees hpending, ?_⟩
  rw [hgranted, hbroken]
  exact hgrant

theorem AttentionRecord.persists_namesGrant (n : Nat) (broken : Bool) : Persists (namesGrant n broken) where
  raise a c d h := by
    obtain ⟨hpending, hgrant⟩ := h
    refine ⟨a.raise_pending c d hpending, ?_⟩
    cases d with
    | granted y =>
      cases broken with
      | false =>
        show (a.granted ||| (1#16 <<< y)).getLsbD n = true
        rw [BitVec.getLsbD_or, show a.granted.getLsbD n = true from hgrant, Bool.true_or]
      | true => exact hgrant
    | grantedBroken y =>
      cases broken with
      | false => exact hgrant
      | true =>
        show (a.grantedBroken ||| (1#16 <<< y)).getLsbD n = true
        rw [BitVec.getLsbD_or, show a.grantedBroken.getLsbD n = true from hgrant, Bool.true_or]
    | none | revoked y | zone y | port p | gone k => exact hgrant
  change _ _ h := h.fireWhere _

theorem AttentionRecord.raise_namesGrant (a : AttentionRecord) {n : Nat} (hn : n < 16) (broken : Bool) :
    (a.raise .token (grantDetail n broken)).namesGrant n broken := by
  constructor
  · rw [AttentionRecord.pending_raise, BitVec.getLsbD_or]
    exact Bool.or_true _
  · cases broken with
    | false =>
      show (a.granted ||| (1#16 <<< n)).getLsbD n = true
      simp [hn]
    | true =>
      show (a.grantedBroken ||| (1#16 <<< n)).getLsbD n = true
      simp [hn]

/-- R113: the token arbiter's step at a session end. -/
def State.tokenAtEnd (ended : SessionRef) (broken : Bool) (s : State) (t : Nat) : State :=
  if (s.token t).heldBy ended then
    (s.setToken t ((s.token t).atEnd ended broken s.clock)).raiseGrant t
      { s.token t with waiters := (s.token t).waiters.filter fun w => w != ended } broken
  else s.setToken t ((s.token t).atEnd ended broken s.clock)

theorem State.tokensAtEnd_eq (s : State) (ended : SessionRef) (broken : Bool) :
    s.tokensAtEnd ended broken = (List.range Config.tokenCount).foldl (State.tokenAtEnd ended broken) s := rfl

theorem State.tokenAtEnd_other (ended : SessionRef) (broken : Bool) (s : State) {t n : Nat} (h : n ≠ t) :
    (s.tokenAtEnd ended broken t).token n = s.token n := by
  unfold State.tokenAtEnd
  split <;> simp [State.token_setToken, h]

section
variable {ended : SessionRef} {broken : Bool} {n : Nat} {w : SessionRef} {rest : List SessionRef}

theorem State.namesGrant_tokenAtEnd {s : State} (hn : n < 16) (hheld : (s.token n).heldBy ended = true)
    (hwaiting : (s.token n).waitingWithout ended = w :: rest) :
    (s.tokenAtEnd ended broken n).shows (AttentionRecord.namesGrant n broken) w.port := by
  have hfilter : ((s.token n).waiters.filter fun w => w != ended) = w :: rest :=
    (List.filter_congr fun w _ => by by_cases h : w = ended <;> simp [h]).trans hwaiting
  rw [State.tokenAtEnd, if_pos hheld, hfilter]
  intro a ha
  rw [State.raiseGrant, State.attention_raise, if_pos rfl] at ha
  obtain ⟨b, -, rfl⟩ := Option.map_eq_some_iff.1 ha
  exact b.raise_namesGrant hn broken

theorem State.shows.tokenAtEnd {P : AttentionRecord → Prop} (hP : AttentionRecord.Persists P) {q : Port} {s : State}
    (h : s.shows P q) (ended : SessionRef) (broken : Bool) (t : Nat) : (s.tokenAtEnd ended broken t).shows P q := by
  unfold State.tokenAtEnd
  split
  · unfold State.raiseGrant
    split
    · exact State.shows.raise hP (s := s.setToken t ((s.token t).atEnd ended broken s.clock)) h _ _ _
    · exact h
  · exact h

theorem State.namesGrant_foldl (hn : n < 16) (ts : List Nat) (hmem : n ∈ ts) (s : State) (hheld : (s.token n).heldBy ended = true)
    (hwaiting : (s.token n).waitingWithout ended = w :: rest) :
    (ts.foldl (State.tokenAtEnd ended broken) s).shows (AttentionRecord.namesGrant n broken) w.port := by
  induction ts generalizing s with
  | nil => exact absurd hmem List.not_mem_nil
  | cons t ts ih =>
    rw [List.foldl_cons]
    by_cases ht : n = t
    · subst ht
      exact List.foldlRecOn (motive := fun t : State => t.shows (AttentionRecord.namesGrant n broken) w.port) ts _
        (State.namesGrant_tokenAtEnd hn hheld hwaiting)
        fun u hu t _ => hu.tokenAtEnd (AttentionRecord.persists_namesGrant n broken) ended broken t
    · have hsame := State.tokenAtEnd_other ended broken s ht
      refine ih ((List.mem_cons.1 hmem).resolve_left ht) _ ?_ ?_
      · rw [hsame]
        exact hheld
      · rw [hsame]
        exact hwaiting

theorem State.namesGrant_endSession {s : State} {cause : EndCause} {monitor : List (List Action)} (hmonitor : MonitorActions monitor)
    (hn : n < 16) (hheld : (s.token n).heldBy ended = true) (hwaiting : (s.token n).waitingWithout ended = w :: rest) :
    (s.endSession ended cause monitor).shows (AttentionRecord.namesGrant n cause.isLoss) w.port := by
  refine State.shows.endSession (AttentionRecord.persists_namesGrant n cause.isLoss) hmonitor ?_ fun _ h => h.fireWhere _
  have htokens : ((s.detached ended).tokensAtEnd ended cause.isLoss).shows (AttentionRecord.namesGrant n cause.isLoss) w.port := by
    rw [State.tokensAtEnd_eq]
    exact State.namesGrant_foldl hn _ (List.mem_range.2 hn) (s.detached ended) hheld hwaiting
  exact State.shows.messagesAtEnd (AttentionRecord.persists_namesGrant n cause.isLoss) htokens ended.port

end

/-! ## The timers (R132) -/

theorem State.act_settings (s : State) (a : Action) (n : Nat) :
    ((s.act a).timer n).map Armed.settings = (s.timer n).map Armed.settings := by
  cases a with
  | system w => exact State.writeSystem_settings s w n
  | policy y => exact keeps_writePolicy s y .timerSettings (by simp) n
  | clearing w => exact keeps_writeClearing s w .timerSettings (by simp) n
  | raise m => exact keeps_act_raise s m .timerSettings (by simp) n
  | move ms => exact keeps_act_move s ms .timerSettings (by simp) n

/-- R132: no timer is attached to a session that ended. -/
theorem State.endSession_settings (s : State) (ended : SessionRef) (cause : EndCause) (monitor : List (List Action)) (n : Nat) :
    ((s.endSession ended cause monitor).timer n).map Armed.settings = (s.timer n).map fun a => (a.detach ended).settings := by
  have hrecords : ((s.endRecords ended cause).timer n).map Armed.settings = (s.timer n).map fun a => (a.detach ended).settings := by
    rw [State.endRecords, State.messagesAtEnd_timer, State.tokensAtEnd_timer, State.timer_mapTimers, Option.map_map]
    rfl
  rw [State.endSession_blocks]
  exact State.actFreely_keeps (fun t => (t.timer n).map Armed.settings = (s.timer n).map fun a => (a.detach ended).settings)
    _ _ (fun _ => hrecords) fun a _ t ht => (t.act_settings a n).trans ht

theorem Armed.detach_session (a : Armed) (ended : SessionRef) : (a.detach ended).session ≠ some ended := by
  unfold Armed.detach
  split
  · exact (Option.some_ne_none ended).symm
  · assumption

/-! ## The OWNERSHIP watches (R79, R164) -/

/-- A watch stands in a slot. -/
def AttentionRecord.watches (k : Nat) (w : Watch) (a : AttentionRecord) : Prop := a.slot k = some w

/-- R163: a watch stands in a slot, and WATCH is pending. -/
def AttentionRecord.watchFired (k : Nat) (w : Watch) (a : AttentionRecord) : Prop := a.slot k = some w ∧ a.pending.getLsbD 1 = true

section
variable {k : Nat} {w : Watch} (hkind : w.kind = .ownership)
include hkind

theorem AttentionRecord.slot_change {a : AttentionRecord} (n : Notice) (h : a.slot k = some w) :
    (a.fireWhere (Watch.seesChange n)).slot k = some w := by
  have hblind : w.seesChange n = false := by
    unfold Watch.seesChange
    rw [hkind]
  rw [AttentionRecord.slot_fireWhere, h, Option.map_some, hblind]
  rfl

theorem AttentionRecord.persists_watches : Persists (watches k w) where
  raise a c d h := (a.slot_raise c d k).trans h
  change _ n h := AttentionRecord.slot_change hkind n h

theorem AttentionRecord.persists_watchFired : Persists (watchFired k w) where
  raise a c d h := ⟨(a.slot_raise c d k).trans h.1, a.raise_pending c d h.2⟩
  change a n h := ⟨AttentionRecord.slot_change hkind n h.1, a.fireWhere_pending _ h.2⟩

omit hkind in
theorem AttentionRecord.watches_ownership {a : AttentionRecord} {zs : List Nat} (hzone : w.zone ∉ zs) (h : a.watches k w) :
    (a.fireWhere (Watch.seesOwnership zs)).watches k w := by
  have hblind : w.seesOwnership zs = false := by
    rw [Watch.seesOwnership_eq, decide_eq_false hzone, Bool.and_false]
  rw [AttentionRecord.watches, AttentionRecord.slot_fireWhere, show a.slot k = some w from h, Option.map_some, hblind]
  rfl

theorem AttentionRecord.watchFired_ownership {a : AttentionRecord} {zs : List Nat} (hzone : w.zone ∈ zs) (h : a.watches k w) :
    (a.fireWhere (Watch.seesOwnership zs)).watchFired k w.fire := by
  have hsees : w.seesOwnership zs = true := by
    rw [Watch.seesOwnership_eq, decide_eq_true hkind, decide_eq_true hzone]
    rfl
  have hslot : a.slot k = some w := h
  refine ⟨?_, ?_⟩
  · rw [AttentionRecord.slot_fireWhere, hslot, Option.map_some, hsees]
    rfl
  · rw [(AttentionRecord.fireWhere_of_slot _ a k w hslot hsees).1, BitVec.getLsbD_or]
    exact Bool.or_true _

end

theorem Watch.fire_kind (w : Watch) : w.fire.kind = w.kind := by
  unfold Watch.fire
  split <;> rfl

/-- Entry 5: an action that the blocks hold once is taken once, in whatever order. -/
theorem State.actFreely_once (P Q : State → Prop) (s : State) (blocks : List (List Action)) {a : Action} {rest : List Action}
    (hperm : blocks.flatten.Perm (a :: rest)) (hs : ∀ n, P { s with freeDraws := n })
    (hkeep : ∀ b ∈ rest, ∀ t, (P t → P (t.act b)) ∧ (Q t → Q (t.act b))) (hact : ∀ t, P t → Q (t.act a)) :
    Q (s.actFreely blocks) := by
  have horder := (riffleAll_perm s.freeDraws blocks).trans hperm
  obtain ⟨before, after, hsplit⟩ := List.append_of_mem (horder.mem_iff.2 List.mem_cons_self)
  rw [hsplit] at horder
  have hrest : ∀ b, b ∈ before ∨ b ∈ after → b ∈ rest := fun b hb =>
    (List.Perm.cons_inv (List.perm_middle.symm.trans horder)).mem_iff.1 (List.mem_append.2 hb)
  unfold State.actFreely
  dsimp only
  rw [hsplit, State.actAll, List.foldl_append, List.foldl_cons]
  exact List.foldlRecOn (motive := Q) after _
    (hact _ (List.foldlRecOn (motive := P) before _ (hs _) fun t ht b hb => (hkeep b (hrest b (.inl hb)) t).1 ht))
    fun t ht b hb => (hkeep b (hrest b (.inr hb)) t).2 ht

/-- R34: the move of the zones is the one action of its kind at a session end. -/
theorem State.endBlocks_perm (s : State) (ended : SessionRef) (cause : EndCause) {monitor : List (List Action)}
    (hmonitor : MonitorActions monitor) : ∃ rest, (s.endBlocks ended cause monitor).flatten.Perm
      (moveAction (s.zoneMoves ended cause) ++ rest) ∧ ∀ a ∈ rest, ∀ ms, a ≠ .move ms := by
  have hsystem : ∀ {w : Points} {a : Action}, a ∈ systemAction w → ∀ ms, a ≠ .move ms := fun ha _ h =>
    nomatch (mem_systemAction _ _ ha).symm.trans h
  have hzone : ∃ policies after, (s.zoneEvents ended cause).1 = policies ++ moveAction (s.zoneMoves ended cause) ++ after ∧
      ∀ a, a ∈ policies ∨ a ∈ after → ∀ ms, a ≠ .move ms := by
    refine ⟨_, _, rfl, fun a ha ms => ?_⟩
    simp only [(shuffle_perm _ _).mem_iff, (riffle_perm _ _ _).mem_iff, List.mem_append, List.mem_map] at ha
    rcases ha with ⟨m, -, rfl⟩ | ha | ⟨m, -, rfl⟩
    · exact Action.noConfusion
    · exact hsystem ha ms
    · exact Action.noConfusion
  obtain ⟨policies, after, hevents, hnone⟩ := hzone
  refine ⟨monitor.flatten ++ (policies ++ (after ++ (systemAction (s.endTokenPoints ended cause) ++
    systemAction (exchangePoints ((s.detached ended).tokensAtEnd ended cause.isLoss) (s.endRecords ended cause))))), ?_,
    fun a ha ms => ?_⟩
  · simp only [State.endBlocks, List.flatten_append, List.flatten_cons, List.flatten_nil, List.append_nil, hevents,
      List.append_assoc]
    exact ((List.perm_append_comm_assoc _ _ _).append_left _).trans (List.perm_append_comm_assoc _ _ _)
  · simp only [List.mem_append] at ha
    rcases ha with ha | ha | ha | ha | ha
    · exact (hmonitor.no_zone ha).2 ms
    · exact hnone a (.inl ha) ms
    · exact hnone a (.inr ha) ms
    · exact hsystem ha ms
    · exact hsystem ha ms

section
variable {s : State} {ended : SessionRef} {cause : EndCause} {monitor : List (List Action)} (hmonitor : MonitorActions monitor)
  {q : Port} {k : Nat} {w : Watch} (hkind : w.kind = .ownership)
include hmonitor hkind

/-- R164: a watch on a zone that moves fires once. -/
theorem State.watchFired_endSession (hzone : w.zone ∈ (s.zoneMoves ended cause).map ZoneMove.zone)
    (h : s.shows (AttentionRecord.watches k w) q) :
    (s.endSession ended cause monitor).shows (AttentionRecord.watchFired k w.fire) q := by
  have hwatches := AttentionRecord.persists_watches (k := k) hkind
  have hfired := AttentionRecord.persists_watchFired (k := k) ((Watch.fire_kind w).trans hkind)
  obtain ⟨rest, hperm, hnone⟩ := s.endBlocks_perm ended cause hmonitor
  have hne : (s.zoneMoves ended cause).isEmpty = false := by
    obtain ⟨m, hm, -⟩ := List.mem_map.1 hzone
    exact List.isEmpty_eq_false_iff.2 (List.ne_nil_of_mem hm)
  rw [moveAction, hne] at hperm
  rw [State.endSession_blocks]
  refine State.actFreely_once (fun t => t.shows (AttentionRecord.watches k w) q)
    (fun t => t.shows (AttentionRecord.watchFired k w.fire) q) _ _ (a := .move (s.zoneMoves ended cause)) hperm
    (fun _ => h.endRecords hwatches ended cause) (fun b hb t => ⟨fun ht => ?_, fun ht => ?_⟩)
    fun t ht => ht.takeMoves hwatches fun a => AttentionRecord.watchFired_ownership hkind hzone
  · exact ht.act hwatches b fun ms hms => absurd hms (hnone b hb ms)
  · exact ht.act hfired b fun ms hms => absurd hms (hnone b hb ms)

/-- R164: a watch on a zone that does not move stands. -/
theorem State.watches_endSession (hzone : w.zone ∉ (s.zoneMoves ended cause).map ZoneMove.zone)
    (h : s.shows (AttentionRecord.watches k w) q) :
    (s.endSession ended cause monitor).shows (AttentionRecord.watches k w) q := by
  have hwatches := AttentionRecord.persists_watches (k := k) hkind
  exact State.shows.endSession hwatches hmonitor (h.endRecords hwatches ended cause)
    fun _ => AttentionRecord.watches_ownership hzone

end

end Sys2Proof.Machine
end

section
/-! What an event that ends a session leaves (R27, R89, R91, R113, R132, R147): the statement over the tokens, the timers, the queues,
the watches and the zones. -/

namespace Sys2Proof.Machine

/-! ## The moves of a session end, zone by zone (R89 to R92) -/

section
variable {s : State} {ended : SessionRef} {cause : EndCause} {z : Nat} {r : ZoneRecord}

theorem State.zoneAtEnd_of_standby {d : Clock} (hr : s.zone z = some r) (hstatus : r.status = .handover d)
    (hstandby : r.standby = some ended.port) : s.zoneAtEnd ended cause z = some (standbyAtEnd z r) := by
  simp only [State.zoneAtEnd, hr, hstatus, hstandby, if_true]

theorem State.zoneAtEnd_of_apart (howner : ∀ r, s.zone z = some r → r.status ≠ .owned ended)
    (hstandby : ∀ r d, s.zone z = some r → r.status = .handover d → r.standby ≠ some ended.port) :
    s.zoneAtEnd ended cause z = none := by
  unfold State.zoneAtEnd
  split
  · rfl
  · rename_i r hr
    split
    · rename_i owner hstatus
      exact if_neg fun heq : owner = ended => howner r hr (heq ▸ hstatus)
    · rename_i d hstatus
      exact if_neg (hstandby r d hr hstatus)
    · rfl
    · rfl

/-- R79: the zones that a session end moves. -/
theorem State.isSome_zoneAtEnd_iff : (s.zoneAtEnd ended cause z).isSome = true ↔ ∃ r, s.zone z = some r ∧
    (r.status = .owned ended ∨ ((∃ d, r.status = .handover d) ∧ r.standby = some ended.port)) := by
  constructor
  · intro hsome
    by_contra hnot
    have hnone : s.zoneAtEnd ended cause z = none := State.zoneAtEnd_of_apart
      (fun r hr hstatus => hnot ⟨r, hr, .inl hstatus⟩) fun r d hr hstatus hstandby => hnot ⟨r, hr, .inr ⟨⟨d, hstatus⟩, hstandby⟩⟩
    rw [hnone] at hsome
    exact Bool.false_ne_true hsome
  · rintro ⟨r, hr, hstatus | ⟨⟨d, hstatus⟩, hstandby⟩⟩
    · rw [State.zoneAtEnd_of_owned hr hstatus]
      rfl
    · rw [State.zoneAtEnd_of_standby hr hstatus hstandby]
      rfl

theorem State.mem_zoneMoves_zone : z ∈ (s.zoneMoves ended cause).map ZoneMove.zone ↔
    (1 ≤ z ∧ z ≤ 31) ∧ (s.zoneAtEnd ended cause z).isSome = true := by
  constructor
  · intro hmem
    obtain ⟨move, hmove, rfl⟩ := List.mem_map.1 hmem
    obtain ⟨y, hy, hyz⟩ := List.mem_filterMap.1 hmove
    obtain rfl := State.zone_of_zoneAtEnd hyz
    exact ⟨(mem_zoneNumbers _).1 hy, hyz ▸ rfl⟩
  · rintro ⟨hz, hsome⟩
    obtain ⟨move, hmove⟩ := Option.isSome_iff_exists.1 hsome
    exact List.mem_map.2 ⟨move, State.mem_zoneMoves_of_atEnd hz hmove, State.zone_of_zoneAtEnd hmove⟩

/-- R89: a zone given up at a LEAVE passes to its ONLINE standby. -/
theorem State.ownedAtEnd_of_leave {owner : SessionRef} (h : s.eligibleStandby r = some owner) (hstandby : r.standby = some owner.port) :
    s.ownedAtEnd .leave z r = ⟨z, .owned owner, r.tenure + 1, none, false, false, [owner.port]⟩ := by
  simp only [State.ownedAtEnd, h, ZoneRecord.passTo_standby hstandby]
  rfl

theorem State.ownedAtEnd_of_leave_none (h : s.eligibleStandby r = none) :
    s.ownedAtEnd .leave z r = ⟨z, .vacant, r.tenure + 1, r.standby, false, false, r.rightsPorts⟩ := by
  simp only [State.ownedAtEnd, h, if_true]

theorem State.ownedAtEnd_status_ne (h : ∀ owner, s.eligibleStandby r = some owner → owner ≠ ended) :
    (s.ownedAtEnd cause z r).status ≠ .owned ended := by
  unfold State.ownedAtEnd
  split
  · rename_i owner heligible
    split
    · exact fun heq => h owner heligible (ZoneStatus.owned.inj heq)
    · exact ZoneStatus.noConfusion
  · split <;> exact ZoneStatus.noConfusion

theorem State.eligibleStandby_online {owner : SessionRef} (h : s.eligibleStandby r = some owner) :
    ∃ m, s.ports.get owner.port = .online m := by
  unfold State.eligibleStandby at h
  split at h
  · split at h
    · rename_i q _ honline
      rw [State.session_port h]
      cases hport : s.ports.get q with
      | online m => exact ⟨m, rfl⟩
      | offline | late m | lost =>
        rw [hport] at honline
        nomatch honline
    · nomatch h
  · nomatch h

end

/-! ## The event that ends a session -/

section
variable {s u t : State} {p : Port} {m : Membership} {cause : EndCause} {monitor : List (List Action)}
  (h : s.SessionEnds u t p m cause monitor)
include h

/-- R113: each token. -/
theorem State.SessionEnds.token {n : Nat} (hn : n < 16) : t.token n = (s.token n).atEnd (m.on p) cause.isLoss s.clock := by
  have hafter : t.token n = ((u.detached (m.on p)).tokensAtEnd (m.on p) cause.isLoss).token n :=
    congrArg (Memory.read Token.powerOn · n)
      ((h.after.tokens.trans (u.endSession_tokens _ _ _)).trans (State.messagesAtEnd_tokens _ _))
  have hbefore : u.token n = s.token n := congrArg (Memory.read Token.powerOn · n) h.before.tokens
  rw [hafter, State.token_tokensAtEnd, if_pos (show n < Config.tokenCount from hn)]
  show (u.token n).atEnd (m.on p) cause.isLoss u.clock = _
  rw [hbefore, h.before.time.1]

/-- R110: bit and word 32+n of a token whose holder's session ended. -/
theorem State.SessionEnds.tokenPoints (harea : s.zonesInArea) {n : Nat} (hn : n < 16) (hheld : (s.token n).heldBy (m.on p) = true) :
    t.bit (32 + n) = (t.token n).hold.isSome ∧ t.word (32 + n) = (t.token n).holderCode := by
  have hbefore : u.token n = s.token n := congrArg (Memory.read Token.powerOn · n) h.before.tokens
  have hareau : u.zonesInArea := fun y q hq => harea y q ((h.before.zone y).symm.trans hq)
  have hnew : ((u.detached (m.on p)).tokensAtEnd (m.on p) cause.isLoss).token n = t.token n := by
    rw [h.token hn, State.token_tokensAtEnd, if_pos (show n < Config.tokenCount from hn)]
    show (u.token n).atEnd (m.on p) cause.isLoss u.clock = _
    rw [hbefore, h.before.time.1]
  have hchange : ((u.detached (m.on p)).token n).hold.map Hold.holder ≠
      (((u.detached (m.on p)).tokensAtEnd (m.on p) cause.isLoss).token n).hold.map Hold.holder := by
    rw [hnew, h.token hn]
    show (u.token n).hold.map Hold.holder ≠ _
    rw [hbefore]
    exact Token.atEnd_changes hheld
  obtain ⟨hbit, hword⟩ := State.endSession_tokenPoints (cause := cause) (ended := m.on p) h.actions hareau
    (by omega : 32 ≤ 32 + n) (by omega)
  obtain ⟨hstored, hstoredWord⟩ := u.store_tokenPoints _ _ hn hchange
  rw [hnew] at hstored hstoredWord
  exact ⟨(h.after.bits _ (by omega)).trans (hbit.trans hstored), (h.after.words _ (by omega)).trans (hword.trans hstoredWord)⟩

/-- R112: the session that a token passes to is told. -/
theorem State.SessionEnds.granted {n : Nat} (hn : n < 16) (hheld : (s.token n).heldBy (m.on p) = true) {w : SessionRef}
    {rest : List SessionRef} (hwaiting : (s.token n).waitingWithout (m.on p) = w :: rest) (hw : w.port ≠ p) :
    (t.attention.get w.port).map (fun a =>
      (a.pending.getLsbD 2, if cause.isLoss then a.grantedBroken.getLsbD n else a.granted.getLsbD n)) =
        (s.attention.get w.port).map fun _ => (true, true) := by
  have hbefore : u.token n = s.token n := congrArg (Memory.read Token.powerOn · n) h.before.tokens
  have hshows := h.after.shows (AttentionRecord.persists_namesGrant n cause.isLoss) hw
    (State.namesGrant_endSession h.actions hn (hbefore ▸ hheld) (hbefore ▸ hwaiting))
  exact State.map_attention_of_shows hshows (fun _ ⟨hpending, hgrant⟩ => Prod.ext hpending hgrant) (h.sessions hw)

/-- R132: no timer is attached to the session. -/
theorem State.SessionEnds.timer {n : Nat} {a : Armed} (ha : t.timer n = some a) : a.session ≠ some (m.on p) := by
  have hsettings := (h.after.settings n).trans (u.endSession_settings (m.on p) cause monitor n)
  rw [ha, Option.map_some] at hsettings
  obtain ⟨b, -, hb⟩ := Option.map_eq_some_iff.1 hsettings.symm
  rw [← Armed.session_of_settings hb]
  exact b.detach_session (m.on p)

/-- R79, R164: an OWNERSHIP watch of another session. -/
theorem State.SessionEnds.watch {q : Port} {a : AttentionRecord} {k : Nat} {w : Watch} (hq : q ≠ p)
    (ha : s.attention.get q = some a) (hslot : a.slot k = some w) (hkind : w.kind = .ownership) :
    let moves := 1 ≤ w.zone ∧ w.zone ≤ 31 ∧ ∃ r, s.zone w.zone = some r ∧
      (r.status = .owned (m.on p) ∨ ((∃ d, r.status = .handover d) ∧ r.standby = some p))
    ∃ a', t.attention.get q = some a' ∧ (moves → a'.pending.getLsbD 1 = true ∧ a'.slot k = some w.fire) ∧
      (¬ moves → a'.slot k = some w) := by
  intro moves
  have hmoves : w.zone ∈ (u.zoneMoves (m.on p) cause).map ZoneMove.zone ↔ moves := by
    refine State.mem_zoneMoves_zone.trans ((and_congr_right fun _ => State.isSome_zoneAtEnd_iff).trans ?_)
    rw [h.before.zone]
    exact and_assoc
  have hwatches := AttentionRecord.persists_watches (k := k) hkind
  have hbefore : u.shows (AttentionRecord.watches k w) q := h.before.shows hwatches hq fun b hb => by
    rw [← Option.some.inj (ha.symm.trans hb)]
    exact hslot
  have hsome := h.sessions hq
  rw [ha] at hsome
  obtain ⟨a', ha'⟩ := Option.isSome_iff_exists.1 hsome
  refine ⟨a', ha', fun hmove => ?_, fun hstand => ?_⟩
  · have hfired := AttentionRecord.persists_watchFired (k := k) ((Watch.fire_kind w).trans hkind)
    obtain ⟨hslot', hpending⟩ := h.after.shows hfired hq
      (State.watchFired_endSession h.actions hkind (hmoves.2 hmove) hbefore) a' ha'
    exact ⟨hpending, hslot'⟩
  · exact h.after.shows hwatches hq (State.watches_endSession h.actions hkind (fun hmem => hstand (hmoves.1 hmem)) hbefore) a' ha'

/-! ### The zones -/

section
variable {z : Nat} (hz : 1 ≤ z ∧ z ≤ 31)
include hz

theorem State.SessionEnds.zone_of_none (hnone : u.zoneAtEnd (m.on p) cause z = none) : t.zone z = s.zone z := by
  rw [h.after.zone, State.endSession_record u _ cause monitor (fun a ha => h.actions.no_zone ha) z hz.1 hz.2, hnone]
  exact h.before.zone z

theorem State.SessionEnds.zone_of_move {r : ZoneRecord} (hr : s.zone z = some r) {move : ZoneMove}
    (hmove : u.zoneAtEnd (m.on p) cause z = some move) (hpolicy : move.policy = false) : t.zone z = some (move.apply r) := by
  have hru := (h.before.zone z).trans hr
  rw [h.after.zone, State.endSession_zone_of_atEnd hz hmove hru h.actions, hpolicy]
  rfl

/-- R89 to R91: the session owns no zone. -/
theorem State.SessionEnds.not_owned {r : ZoneRecord} (hr : t.zone z = some r) : r.status ≠ .owned (m.on p) := by
  cases hmove : u.zoneAtEnd (m.on p) cause z with
  | none =>
    rw [h.zone_of_none hz hmove, ← h.before.zone] at hr
    intro hstatus
    exact nomatch hmove.symm.trans (State.zoneAtEnd_of_owned hr hstatus)
  | some move =>
    have hsome := State.isSome_zoneAtEnd_iff.1 (Option.isSome_of_eq_some hmove)
    obtain ⟨r', hr', hcase⟩ := hsome
    rw [h.after.zone, State.endSession_zone_of_atEnd hz hmove hr' h.actions] at hr
    obtain rfl := Option.some.inj hr
    show move.status ≠ _
    rcases hcase with hstatus | ⟨⟨d, hstatus⟩, hstandby⟩
    · obtain rfl := Option.some.inj (hmove.symm.trans (State.zoneAtEnd_of_owned hr' hstatus))
      refine State.ownedAtEnd_status_ne fun owner heligible heq => ?_
      obtain ⟨mq, honline⟩ := State.eligibleStandby_online heligible
      subst heq
      exact h.gone mq honline
    · obtain rfl := Option.some.inj (hmove.symm.trans (State.zoneAtEnd_of_standby hr' hstatus hstandby))
      exact ZoneStatus.noConfusion

variable {r : ZoneRecord} (hr : s.zone z = some r)
include hr

theorem State.SessionEnds.zone_of_apart (howner : r.status ≠ .owned (m.on p))
    (hstandby : ∀ d, r.status = .handover d → r.standby ≠ some p) : t.zone z = some r := by
  refine (h.zone_of_none hz (State.zoneAtEnd_of_apart (fun r' hr' => ?_) fun r' d hr' => ?_)).trans hr
  · rw [h.before.zone] at hr'
    rw [← Option.some.inj (hr.symm.trans hr')]
    exact howner
  · rw [h.before.zone] at hr'
    rw [← Option.some.inj (hr.symm.trans hr')]
    exact hstandby d

/-- R91: a zone in HANDOVER to the session's port. -/
theorem State.SessionEnds.orphaned {d : Clock} (hstatus : r.status = .handover d) (hstandby : r.standby = some p) :
    t.zone z = some { r with status := .orphaned } ∧ t.raised (natHalf (4032 + z)) ∧
    (∀ q, q ≠ p → portIn q r.rights = true → s.zoneTold t z q) ∧
    (s.zonesInArea → t.bit (64 + z) = true ∧ t.bit (96 + z) = false) := by
  have hru := (h.before.zone z).trans hr
  have hmove : u.zoneAtEnd (m.on p) cause z = some (standbyAtEnd z r) := State.zoneAtEnd_of_standby hru hstatus hstandby
  refine ⟨h.zone_of_move hz hr hmove rfl, ?_, fun q hq hin => ?_, fun harea => ?_⟩
  · exact State.raised_of_faults h.faults (State.raised_endSession_of_orphanFault hz hmove monitor rfl)
  · exact h.zoneTold hz hmove ((r.mem_rightsPorts q).2 hin) hq
  · have hareau : u.zonesInArea := fun y q hq => harea y q ((h.before.zone y).symm.trans hq)
    obtain ⟨horphan, hhandover⟩ := State.endSession_zoneBits hz hmove hru h.actions hareau rfl
    have hbefore : r.isOrphaned = false ∧ r.isHandover = true := by
      rw [ZoneRecord.isOrphaned, ZoneRecord.isHandover, hstatus]
      exact ⟨rfl, rfl⟩
    rw [hbefore.1] at horphan
    rw [hbefore.2] at hhandover
    exact ⟨(h.after.bits _ (by omega)).trans horphan, (h.after.bits _ (by omega)).trans hhandover⟩

/-- R89: a zone of the session at a LEAVE. -/
theorem State.SessionEnds.left (hleave : cause = .leave) (hstatus : r.status = .owned (m.on p)) :
    (∀ q mq, q ≠ p → r.standby = some q → s.ports.get q = .online mq →
      t.zone z = some { r with status := .owned (mq.on q), tenure := r.tenure + 1, standby := none } ∧ s.zoneTold t z q) ∧
    ((∀ q mq, q ≠ p → r.standby = some q → s.ports.get q ≠ .online mq) →
      t.zone z = some { r with status := .vacant, tenure := r.tenure + 1 } ∧
      ∀ q, q ≠ p → portIn q r.rights = true → s.zoneTold t z q) := by
  subst hleave
  have hmove := State.zoneAtEnd_of_owned (cause := .leave) ((h.before.zone z).trans hr) hstatus
  refine ⟨fun q mq hq hstandby honline => ?_, fun hnone => ?_⟩
  · rw [State.ownedAtEnd_of_leave (h.eligibleStandby_of_online hq hstandby honline) hstandby] at hmove
    exact ⟨h.zone_of_move hz hr hmove rfl, h.zoneTold hz hmove List.mem_cons_self hq⟩
  · rw [State.ownedAtEnd_of_leave_none (h.eligibleStandby_eq_none hnone)] at hmove
    exact ⟨h.zone_of_move hz hr hmove rfl, fun q hq hin => h.zoneTold hz hmove ((r.mem_rightsPorts q).2 hin) hq⟩

end

end

/-- R27, R32, R34: the three events that end a session. -/
theorem exists_sessionEnds {s t : State} {p : Port} {m : Membership} {loss : Bool}
    (hcase : (s.serves p m ∧ loss = false ∧ ∃ tag, exec (.leave p tag m.number []) s = .next t) ∨
      (s.serves p m ∧ loss = true ∧ ∃ tag session time, time ≠ 0 ∧ exec (.join p tag session [0, time]) s = .next t) ∨
      (s.ports.get p = .late m ∧ loss = true ∧ m.deadline = s.clock ∧ exec (.monitorSecondExpiry p) s = .next t)) :
    ∃ u cause monitor, s.SessionEnds u t p m cause monitor ∧ cause.isLoss = loss ∧ (loss = false → cause = .leave) := by
  rcases hcase with ⟨serves, rfl, tag, hexec⟩ | ⟨serves, rfl, tag, session, time, htime, hexec⟩ | ⟨hlate, rfl, hdue, hexec⟩
  · obtain ⟨t', u, monitor, hexec', hends⟩ := State.sessionEnds_leave serves tag
    obtain rfl := Host.Outcome.next.inj (hexec.symm.trans hexec')
    exact ⟨u, .leave, monitor, hends, rfl, fun _ => rfl⟩
  · obtain ⟨t', u, monitor, hexec', hends⟩ := State.sessionEnds_join serves tag session htime
    obtain rfl := Host.Outcome.next.inj (hexec.symm.trans hexec')
    exact ⟨u, .replaced, monitor, hends, rfl, fun hloss => nomatch hloss⟩
  · obtain ⟨u, monitor, hends⟩ := State.sessionEnds_secondExpiry hlate hdue
    obtain rfl := Host.Outcome.next.inj (hexec.symm.trans rfl)
    exact ⟨u, .lost, monitor, hends, rfl, fun hloss => nomatch hloss⟩

/-- Settles O21: block by block, over the three events that end a session. -/
theorem endedSessionHoldsNothing : Obligations.EndedSessionHoldsNothing := by
  intro s t p m loss hcase
  obtain ⟨u, cause, monitor, h, rfl, hleave⟩ := exists_sessionEnds hcase
  refine ⟨fun z r hlow hhigh hr => h.not_owned ⟨hlow, hhigh⟩ hr, fun n hn => ?_, fun n a ha => h.timer ha, h.queues,
    fun n hn => ⟨fun hother => ?_, fun g hg hholder => ?_⟩, fun q a k w hq ha hslot hkind => ?_, fun z hlow hhigh => ?_⟩
  · rw [h.token hn]
    exact Token.atEnd_gone _ _ _ _
  · rw [h.token hn]
    exact Token.atEnd_of_other (Token.heldBy_eq_false hother)
  · have hheld : (s.token n).heldBy (m.on p) = true := (Token.heldBy_of_hold hg).trans (decide_eq_true hholder)
    have htoken := h.token hn
    refine ⟨fun hnone => ?_, fun w rest hwaiting => ?_⟩
    · rw [Token.atEnd_of_alone hheld hnone] at htoken
      refine ⟨htoken, fun harea => ?_⟩
      have hpoints := h.tokenPoints harea hn hheld
      rwa [htoken] at hpoints
    · rw [Token.atEnd_of_head hheld hwaiting] at htoken
      refine ⟨htoken, h.granted hn hheld hwaiting, fun harea => ?_⟩
      have hpoints := h.tokenPoints harea hn hheld
      rwa [htoken] at hpoints
  · rw [← Watch.fire_eq]
    exact h.watch hq ha hslot hkind
  · have hz : 1 ≤ z ∧ z ≤ 31 := ⟨hlow, hhigh⟩
    refine ⟨fun hnone => ?_, fun r hr => ⟨h.zone_of_apart hz hr, fun d hstatus hstandby => h.orphaned hz hr hstatus hstandby,
      fun hloss hstatus => h.left hz hr (hleave hloss) hstatus⟩⟩
    have hnoneu := (h.before.zone z).trans hnone
    exact (h.zone_of_none hz (State.zoneAtEnd_of_apart (fun r hr => nomatch hnoneu.symm.trans hr)
      fun r d hr => nomatch hnoneu.symm.trans hr)).trans hnone

end Sys2Proof.Machine
end

section
/-! The bytes of the reports (R58, R74, R110, R130, R180, R188). -/

namespace Sys2Proof.Machine

theorem natByte_flagNat (b : Bool) : natByte (flagNat b) = if b then 1 else 0 := by cases b <;> rfl

/-! ## The bits of a section (R74) -/

/-- R74: eight bits from an index on as a byte, the first in the most significant place. -/
def bitByte (f : Nat → Bool) (i : Nat) : Byte :=
  BitVec.ofBoolListBE [f i, f (i + 1), f (i + 2), f (i + 3), f (i + 4), f (i + 5), f (i + 6), f (i + 7)]

theorem packByte_eight : ∀ b0 b1 b2 b3 b4 b5 b6 b7 : Bool, packByte [b0, b1, b2, b3, b4, b5, b6, b7] =
    BitVec.ofBoolListBE [b0, b1, b2, b3, b4, b5, b6, b7] := by decide

theorem map_range_add {β : Type} (f : Nat → β) (n : Nat) :
    (List.range (8 + n)).map f = (List.range 8).map f ++ (List.range n).map fun i => f (8 + i) := by
  rw [List.range_add, List.map_append, List.map_map]
  rfl

/-- R74: the bytes of bits that a run of indices gives. -/
theorem packBytes_map_range (f : Nat → Bool) {n count : Nat} (h : 8 * n ≤ count) :
    packBytes n ((List.range count).map f) = (List.range n).map fun k => bitByte f (8 * k) := by
  induction n generalizing f count with
  | zero => rfl
  | succ n ih =>
    obtain ⟨rest, rfl⟩ : ∃ rest, count = 8 + rest := ⟨count - 8, by omega⟩
    have hfirst : packByte ((List.range 8).map f) = bitByte f 0 := packByte_eight _ _ _ _ _ _ _ _
    have hlength : ((List.range 8).map f).length = 8 := by simp
    have hrest : ((List.range n).map fun k => bitByte (fun i => f (8 + i)) (8 * k)) =
        (List.range n).map ((fun k => bitByte f (8 * k)) ∘ Nat.succ) := by
      refine List.map_congr_left fun k _ => ?_
      show bitByte f (8 + 8 * k) = bitByte f (8 * (k + 1))
      exact congrArg (bitByte f) (by omega)
    rw [map_range_add, packBytes, List.take_left' hlength, List.drop_left' hlength, hfirst, ih _ (by omega), hrest,
      List.range_succ_eq_map, List.map_cons, List.map_map]

/-- R74: the image part of a section of two runs. -/
theorem State.imageBytes_run (s : State) (bitFirst bitCount wordFirst wordCount : Nat) :
    s.imageBytes ((List.range bitCount).map (bitFirst + ·)) ((List.range wordCount).map (wordFirst + ·)) =
      ((List.range (bitCount / 8)).map fun k => bitByte s.bit (bitFirst + 8 * k)) ++
        (List.range wordCount).flatMap fun k => halfBytes (s.word (wordFirst + k)) := by
  have hbits : packBytes (bitCount / 8) ((List.range bitCount).map fun i => s.bit (bitFirst + i)) =
      (List.range (bitCount / 8)).map fun k => bitByte s.bit (bitFirst + 8 * k) :=
    (packBytes_map_range (fun i => s.bit (bitFirst + i)) (by omega : 8 * (bitCount / 8) ≤ bitCount)).trans rfl
  rw [State.imageBytes, List.length_map, List.length_range, List.map_map, List.flatMap_map]
  exact congrArg (· ++ _) hbits

theorem State.sectionOf_record {s : State} {z : Nat} (hz : z ≠ 0) {r : ZoneRecord} (hr : s.zone z = some r) :
    s.sectionOf z = [natByte z, r.status.code, r.status.ownerCode, r.tenure] ++ halfBytes r.generation ++
      halfBytes (natHalf r.bitCount) ++ halfBytes (natHalf r.wordCount) ++
      ((List.range (r.bitCount / 8)).map fun k => bitByte s.bit (r.bitFirst + 8 * k)) ++
      (List.range r.wordCount).flatMap fun k => halfBytes (s.word (r.wordFirst + k)) := by
  have himage := s.imageBytes_run r.bitFirst r.bitCount r.wordFirst r.wordCount
  simp only [State.sectionOf, if_neg hz, hr]
  rw [ZoneRecord.bitIndices, ZoneRecord.wordIndices, himage, ← List.append_assoc]

/-- R42, R74: the section of zone 0. -/
theorem State.sectionOf_zero (s : State) : s.sectionOf 0 = [0, 1, 15, 0] ++ halfBytes s.systemZone.generation ++ [0, 128, 0, 96] ++
    ((List.range 16).map fun k => bitByte s.bit (8 * k)) ++ (List.range 96).flatMap fun k => halfBytes (s.word k) := by
  have hbits : packBytes ((List.range Config.systemBits).length / 8) ((List.range Config.systemBits).map s.bit) =
      (List.range 16).map fun k => bitByte s.bit (8 * k) := by
    rw [List.length_range]
    exact packBytes_map_range s.bit (n := 16) (count := 128) (by decide)
  rw [State.sectionOf, if_pos rfl, State.imageBytes, hbits]
  exact (List.append_assoc _ _ _).symm

/-! ## The record of a zone (R58) -/

/-- R188: the safe image flags of a QUERY_ZONE reply. -/
def LossPolicy.imageFlags : LossPolicy → Byte
  | .hold => 0
  | .clear => 0
  | .substitute image => if image.loaded then 3 else 1

/-- R188: the deadline flag of a QUERY_ZONE reply. -/
def ZoneStatus.dueFlag : ZoneStatus → Byte
  | .handover _ => 4
  | .owned _ => 0
  | .vacant => 0
  | .orphaned => 0

theorem ZoneRecord.queryFlags_eq (r : ZoneRecord) : r.queryFlags = r.policy.imageFlags + r.status.dueFlag := by
  unfold ZoneRecord.queryFlags
  cases r.policy with
  | hold | clear => cases r.status <;> rfl
  | substitute image =>
    simp only [LossPolicy.imageFlags]
    cases image.loaded <;> cases r.status <;> rfl

theorem State.zoneReport_of_none {s : State} {z : Nat} (hz : z ≠ 0) (hr : s.zone z = none) :
    s.zoneReport z = List.replicate 29 0 := by
  simp only [State.zoneReport, if_neg hz, hr]

theorem State.zoneReport_of_some {s : State} {z : Nat} (hz : z ≠ 0) {r : ZoneRecord} (hr : s.zone z = some r) :
    s.zoneReport z = r.report := by
  simp only [State.zoneReport, if_neg hz, hr]

/-! ## The section of a token (R110) -/

theorem Token.waiterBytes_three (t : Token) :
    (List.range 3).flatMap t.waiterBytes = t.waiterBytes 0 ++ (t.waiterBytes 1 ++ t.waiterBytes 2) := by
  show t.waiterBytes 0 ++ (t.waiterBytes 1 ++ (t.waiterBytes 2 ++ [])) = _
  rw [List.append_nil]

theorem Token.remaining_of_free (t : Token) (clock : Clock) (h : t.hold = none) : t.remaining clock = 0 := by
  rw [Token.remaining, h]
  rfl

theorem Token.remaining_of_held (t : Token) (clock : Clock) {g : Hold} (h : t.hold = some g) :
    t.remaining clock = g.deadline.elim 0 fun d => d - clock := by
  rw [Token.remaining, h]
  cases hdeadline : g.deadline <;> simp [hdeadline]

/-- R110, R188: the parts of a token's section. -/
theorem Token.report_eq (t : Token) (clock : Clock) : t.report clock =
    (([natByte (flagNat t.hold.isSome)] ++ optSessionBytes (t.hold.map Hold.holder)) ++ clockBytes (t.hold.elim 0 Hold.grantTime) ++
      [t.limit] ++ clockBytes (t.remaining clock)) ++ [if t.broken then 1 else 0, natByte t.waiters.length] ++
      (List.range 3).flatMap t.waiterBytes := by
  rw [Token.report, Token.waiterBytes_three, natByte_flagNat t.broken]
  simp only [List.append_assoc]

/-! ## The reply for a timer (R130) -/

theorem timerFlags_eq : ∀ undefined source held : Bool,
    natByte (flagNat undefined + 2 * flagNat source + 4 * flagNat held + 8 * flagNat held) =
      (if undefined then 1 else 0) + (if source then 2 else 0) + if held then 12 else 0 := by decide

theorem Armed.queryFlags_eq (bits : Memory Bool) (a : Armed) : a.queryFlags bits =
    (if a.sourceUndefined then 1 else 0) + (if bits.read false a.source then 2 else 0) +
      if a.resetBit.any (fun b => bits.read false b) then 12 else 0 :=
  timerFlags_eq _ _ _

/-! ## The entry of a fault (R180) -/

theorem faultFlags_eq : ∀ (ports : PortSet) (first : Bool),
    natByte (ports.toNat + 128 * flagNat first) = ports.setWidth 8 + if first then 0x80 else 0 := by decide

/-! ## The references of READ_POINTS (R75) -/

theorem half_top (h : Half) : h.getLsbD 15 = decide (32768 ≤ h.toNat) := by
  have hlt := h.isLt
  rw [BitVec.getLsbD, Nat.testBit_eq_decide_div_mod_eq]
  exact decide_eq_decide.2 (by omega)

theorem pointRef_word {h : Half} (hword : h.getLsbD 15 = true) : pointRef h = (true, h.toNat - 32768) := by
  have hlt := h.isLt
  have hhigh := of_decide_eq_true ((half_top h).symm.trans hword)
  rw [pointRef, hword, BitVec.extractLsb'_toNat]
  exact congrArg (true, ·) (by simp only [Nat.shiftRight_zero]; omega)

theorem pointRef_bit {h : Half} (hbit : h.getLsbD 15 = false) : pointRef h = (false, h.toNat) := by
  have hlow := of_decide_eq_false ((half_top h).symm.trans hbit)
  rw [pointRef, hbit, BitVec.extractLsb'_toNat]
  exact congrArg (false, ·) (by simp only [Nat.shiftRight_zero]; omega)

theorem refOutside_eq (h : Half) : refOutside h =
    if h.getLsbD 15 then decide (1024 ≤ h.toNat - 32768) else decide (4096 ≤ h.toNat) := by
  cases htop : h.getLsbD 15 with
  | true =>
    rw [refOutside, pointRef_word htop, if_pos rfl, if_pos rfl]
    exact congrArg (fun n => decide (n ≤ h.toNat - 32768)) (show Config.wordPoints = 1024 from rfl)
  | false =>
    rw [refOutside, pointRef_bit htop, if_neg Bool.false_ne_true, if_neg Bool.false_ne_true]
    exact congrArg (fun n => decide (n ≤ h.toNat)) (show Config.bitPoints = 4096 from rfl)

theorem State.readRef_eq (s : State) (h : Half) : s.readRef h =
    if h.getLsbD 15 then natByte (s.wordHolder (h.toNat - 32768)).number :: halfBytes (s.word (h.toNat - 32768))
    else [natByte (s.bitHolder h.toNat).number, 0, if s.bit h.toNat then 1 else 0] := by
  cases htop : h.getLsbD 15 with
  | true => rw [State.readRef, pointRef_word htop, if_pos rfl, if_pos rfl]
  | false =>
    rw [State.readRef, pointRef_bit htop, if_neg Bool.false_ne_true, if_neg Bool.false_ne_true]
    show natByte (s.bitHolder h.toNat).number :: halfBytes (natHalf (flagNat (s.bit h.toNat))) = _
    cases s.bit h.toNat <;> rfl

end Sys2Proof.Machine
end

section
/-! The requests that read (R58, R73, R75, R110, R130, R180): their checks, and their answers from the state that the arrival leaves. -/

namespace Sys2Proof.Machine

/-! ## The first item that a check refuses (R73, R75) -/

theorem findIdx?_of_before {α : Type} {bad : α → Bool} {before after : List α} {x : α} (hbefore : ∀ k ∈ before, bad k = false)
    (hx : bad x = true) : (before ++ x :: after).findIdx? bad = some before.length := by
  rw [List.findIdx?_append, List.findIdx?_eq_none_iff.2 hbefore, List.findIdx?_cons, hx]
  simp

theorem firstPosition_of_before {bad : Byte → Bool} {before after : List Byte} {n : Byte} (hbefore : ∀ k ∈ before, bad k = false)
    (hn : bad n = true) : firstPosition bad (before ++ n :: after) = some (before.length + 1) := by
  rw [firstPosition, findIdx?_of_before hbefore hn]
  rfl

theorem firstPosition_none {bad : Byte → Bool} {body : List Byte} (h : ∀ k ∈ body, bad k = false) : firstPosition bad body = none := by
  rw [firstPosition, List.findIdx?_eq_none_iff.2 h]
  rfl

/-! ## QUERY_ZONE, QUERY_TIMER, QUERY_TOKENS and READ_FAULTS (R58, R110, R130, R180) -/

section
variable (who : SessionRef) (s : State)

theorem serveQueryZone_of_length {body : List Byte} (h : body.length ≠ 1) :
    serveQueryZone who body s = (s, .refuse .badRequest 0) := by
  unfold serveQueryZone
  split
  · exact absurd rfl h
  · rfl

theorem serveQueryZone_of_range {n : Byte} (h : 31 < n.toNat) : serveQueryZone who [n] s = (s, .refuse .range 1) :=
  if_pos h

theorem serveQueryZone_of_zone {n : Byte} (h : n.toNat ≤ 31) : serveQueryZone who [n] s =
    (s, .done 0 ([n] ++ s.zoneReport n.toNat ++ halfBytes (natHalf s.safeFreeBits) ++ halfBytes (natHalf s.safeFreeWords))) :=
  if_neg (Nat.not_lt_of_le h)

theorem serveQueryTimer_of_length {body : List Byte} (h : body.length ≠ 1) :
    serveQueryTimer who body s = (s, .refuse .badRequest 0) := by
  unfold serveQueryTimer
  split
  · exact absurd rfl h
  · rfl

theorem serveQueryTimer_of_range {n : Byte} (h : 31 < n.toNat) : serveQueryTimer who [n] s = (s, .refuse .range 1) :=
  if_pos (show 32 ≤ n.toNat from h)

theorem serveQueryTimer_of_timer {n : Byte} (h : n.toNat ≤ 31) : serveQueryTimer who [n] s =
    (s, .done n.toNat (timerReport s.bits (s.timer n.toNat))) :=
  if_neg (show ¬ 32 ≤ n.toNat by omega)

theorem serveQueryTokens_of_body {body : List Byte} (h : body ≠ []) : serveQueryTokens who body s = (s, .refuse .badRequest 0) :=
  if_neg h

theorem serveReadFaults_of_body {body : List Byte} (h : body ≠ []) : serveReadFaults who body s = (s, .refuse .badRequest 0) :=
  if_neg h

/-! ## SNAPSHOT (R73) -/

theorem serveSnapshot_of_length {body : List Byte} (h : body = [] ∨ 8 < body.length) :
    serveSnapshot who body s = (s, .refuse .badRequest 0) :=
  if_pos (h.imp_left List.length_eq_zero_iff.2)

theorem State.sectionSize_eq (z : Nat) :
    s.sectionSize z = if z = 0 then some 218 else (s.zone z).map fun r => 10 + r.imageSize := rfl

/-- R73: the payload of a section, 0 for a zone that is not defined. -/
theorem State.sectionSize_getD (z : Nat) :
    (s.sectionSize z).getD 0 = if z = 0 then 218 else (s.zone z).elim 0 fun r => 10 + r.imageSize := by
  rw [State.sectionSize_eq]
  split
  · rfl
  · cases s.zone z <;> rfl

variable {s}

theorem State.sectionSize_of_known {z : Nat} (h : z = 0 ∨ (s.zone z).isSome = true) : (s.sectionSize z).isNone = false := by
  rw [State.sectionSize_eq]
  rcases h with rfl | h
  · rfl
  · obtain ⟨r, hr⟩ := Option.isSome_iff_exists.1 h
    rw [hr]
    split <;> rfl

theorem State.sectionSize_of_unknown {z : Nat} (hz : z ≠ 0) (h : s.zone z = none) : (s.sectionSize z).isNone = true := by
  rw [State.sectionSize_eq, if_neg hz, h]
  rfl

variable {who}

theorem serveSnapshot_of_range {before after : List Byte} {n : Byte} (hlength : before.length + after.length < 8)
    (hn : 31 < n.toNat) (hbefore : ∀ k ∈ before, k.toNat ≤ 31) :
    serveSnapshot who (before ++ n :: after) s = (s, .refuse .range (before.length + 1)) := by
  have hposition : firstPosition (fun b => decide (Config.zoneCount < b.toNat)) (before ++ n :: after) = some (before.length + 1) :=
    firstPosition_of_before (fun k hk => decide_eq_false (Nat.not_lt_of_le (hbefore k hk))) (decide_eq_true hn)
  rw [serveSnapshot, if_neg (by simp; omega), hposition]

theorem firstPosition_range {body : List Byte} (h : ∀ k ∈ body, k.toNat ≤ 31) :
    firstPosition (fun b => decide (Config.zoneCount < b.toNat)) body = none :=
  firstPosition_none fun k hk => decide_eq_false (Nat.not_lt_of_le (h k hk))

theorem serveSnapshot_of_unknown {before after : List Byte} {n : Byte} (hlength : before.length + after.length < 8)
    (hrange : ∀ k ∈ before ++ n :: after, k.toNat ≤ 31) (hn : n.toNat ≠ 0) (hnone : s.zone n.toNat = none)
    (hbefore : ∀ k ∈ before, k.toNat = 0 ∨ (s.zone k.toNat).isSome = true) :
    serveSnapshot who (before ++ n :: after) s = (s, .refuse .notFound (before.length + 1)) := by
  have hposition : firstPosition (fun b => (s.sectionSize b.toNat).isNone) (before ++ n :: after) = some (before.length + 1) :=
    firstPosition_of_before (fun k hk => State.sectionSize_of_known (hbefore k hk)) (State.sectionSize_of_unknown hn hnone)
  rw [serveSnapshot, if_neg (by simp; omega), firstPosition_range hrange, hposition]

/-- R73: the payload of the sections of some zones. -/
def State.snapshotPayload (s : State) (zs : List Byte) : Nat :=
  (zs.map fun n => if n.toNat = 0 then 218 else (s.zone n.toNat).elim 0 fun r => 10 + r.imageSize).sum

theorem serveSnapshot_of_known {zs : List Byte} (hsome : zs ≠ []) (hlength : zs.length ≤ 8)
    (hzones : ∀ n ∈ zs, n.toNat ≤ 31 ∧ (n.toNat = 0 ∨ (s.zone n.toNat).isSome = true)) :
    serveSnapshot who zs s =
      if 508 < s.snapshotPayload zs then (s, .refuse .tooLarge (s.snapshotPayload zs))
      else (s, .done zs.length ([natByte zs.length, s.epoch] ++ zs.flatMap fun n => s.sectionOf n.toNat)) := by
  have hrange : firstPosition (fun b => decide (Config.zoneCount < b.toNat)) zs = none :=
    firstPosition_range fun k hk => (hzones k hk).1
  have hknown : firstPosition (fun b => (s.sectionSize b.toNat).isNone) zs = none :=
    firstPosition_none fun k hk => State.sectionSize_of_known (hzones k hk).2
  have hpayload : (zs.map fun b => (s.sectionSize b.toNat).getD 0).sum = s.snapshotPayload zs :=
    congrArg List.sum (List.map_congr_left fun b _ => s.sectionSize_getD b.toNat)
  have hbody : ¬ (zs.length = 0 ∨ 8 < zs.length) := by
    rw [List.length_eq_zero_iff]
    exact not_or.2 ⟨hsome, Nat.not_lt_of_le hlength⟩
  rw [serveSnapshot, if_neg hbody, hrange, hknown, ← hpayload]

/-! ## READ_POINTS (R75) -/

theorem serveReadPoints_of_length {body : List Byte} (h : body.length < 2 ∨ 64 < body.length ∨ body.length % 2 = 1) :
    serveReadPoints who body s = (s, .refuse .badRequest 0) :=
  if_pos h

theorem length_flatMap_halfBytes (refs : List Half) : (refs.flatMap halfBytes).length = 2 * refs.length := by
  simp [List.length_flatMap, halfBytes, Nat.mul_comm]

theorem serveReadPoints_of_range {before after : List Half} {h : Half} (hlength : before.length + after.length < 32)
    (hbefore : ∀ k ∈ before, refOutside k = false) (hh : refOutside h = true) :
    serveReadPoints who ((before ++ h :: after).flatMap halfBytes) s = (s, .refuse .range (before.length + 1)) := by
  have hbody := length_flatMap_halfBytes (before ++ h :: after)
  rw [List.length_append, List.length_cons] at hbody
  rw [serveReadPoints, if_neg (by omega), halves_flatMap_halfBytes]
  dsimp only
  rw [findIdx?_of_before hbefore hh]
  rfl

theorem serveReadPoints_of_refs {refs : List Half} (hsome : refs ≠ []) (hlength : refs.length ≤ 32)
    (hrefs : ∀ h ∈ refs, refOutside h = false) :
    serveReadPoints who (refs.flatMap halfBytes) s = (s, .done refs.length (refs.flatMap s.readRef)) := by
  have hbody := length_flatMap_halfBytes refs
  have hpos := List.length_pos_of_ne_nil hsome
  rw [serveReadPoints, if_neg (by omega), halves_flatMap_halfBytes]
  dsimp only
  rw [List.findIdx?_eq_none_iff.2 hrefs]
  rfl

theorem refOutside_eq_false {h : Half} (hbit : h.getLsbD 15 = false → h.toNat < 4096)
    (hword : h.getLsbD 15 = true → h.toNat - 32768 < 1024) : refOutside h = false := by
  rw [refOutside_eq]
  cases htop : h.getLsbD 15 with
  | true =>
    rw [if_pos rfl]
    exact decide_eq_false (Nat.not_le_of_lt (hword htop))
  | false =>
    rw [if_neg Bool.false_ne_true]
    exact decide_eq_false (Nat.not_le_of_lt (hbit htop))

theorem refOutside_eq_true {h : Half} (hout : (h.getLsbD 15 = false ∧ 4096 ≤ h.toNat) ∨ (h.getLsbD 15 = true ∧ 1024 ≤ h.toNat - 32768)) :
    refOutside h = true := by
  rw [refOutside_eq]
  rcases hout with ⟨htop, hbit⟩ | ⟨htop, hword⟩
  · rw [htop, if_neg Bool.false_ne_true]
    exact decide_eq_true hbit
  · rw [htop, if_pos rfl]
    exact decide_eq_true hword

end

end Sys2Proof.Machine
end

section
/-! The requests that read, as the port's arrival serves them (R25, R58, R73, R75, R110, R130, R180). -/

namespace Sys2Proof.Machine

section
variable {s : State} {p : Port} {m : Membership} (serves : s.serves p m) (tag : Byte)
include serves

/-! ## The checks -/

theorem exec_reading_of_length {body : List Byte} (h : body.length ≠ 1) :
    exec (.queryZone p tag m.number body) s = .next (s.refused p m tag .queryZone .badRequest 0) ∧
    exec (.queryTimer p tag m.number body) s = .next (s.refused p m tag .queryTimer .badRequest 0) :=
  ⟨exec_of_refusal serves .queryZone tag body (serveQueryZone · body) rfl _ _ (serveQueryZone_of_length _ _ h),
    exec_of_refusal serves .queryTimer tag body (serveQueryTimer · body) rfl _ _ (serveQueryTimer_of_length _ _ h)⟩

theorem exec_reading_of_body {body : List Byte} (h : body ≠ []) :
    exec (.queryTokens p tag m.number body) s = .next (s.refused p m tag .queryTokens .badRequest 0) ∧
    exec (.readFaults p tag m.number body) s = .next (s.refused p m tag .readFaults .badRequest 0) :=
  ⟨exec_of_refusal serves .queryTokens tag body (serveQueryTokens · body) rfl _ _ (serveQueryTokens_of_body _ _ h),
    exec_of_refusal serves .readFaults tag body (serveReadFaults · body) rfl _ _ (serveReadFaults_of_body _ _ h)⟩

theorem exec_reading_of_range {n : Byte} (h : 31 < n.toNat) :
    exec (.queryZone p tag m.number [n]) s = .next (s.refused p m tag .queryZone .range 1) ∧
    exec (.queryTimer p tag m.number [n]) s = .next (s.refused p m tag .queryTimer .range 1) :=
  ⟨exec_of_refusal serves .queryZone tag [n] (serveQueryZone · [n]) rfl _ _ (serveQueryZone_of_range _ _ h),
    exec_of_refusal serves .queryTimer tag [n] (serveQueryTimer · [n]) rfl _ _ (serveQueryTimer_of_range _ _ h)⟩

theorem exec_snapshot_refused {body : List Byte} {o : ReplyOutcome} {detail : Nat}
    (h : serveSnapshot (m.on p) body (s.qualify p m.number) = (s.qualify p m.number, .refuse o detail)) :
    exec (.snapshot p tag m.number body) s = .next (s.refused p m tag .snapshot o detail) :=
  exec_of_refusal serves .snapshot tag body (serveSnapshot · body) rfl o detail h

theorem exec_readPoints_refused {body : List Byte} {o : ReplyOutcome} {detail : Nat}
    (h : serveReadPoints (m.on p) body (s.qualify p m.number) = (s.qualify p m.number, .refuse o detail)) :
    exec (.readPoints p tag m.number body) s = .next (s.refused p m tag .readPoints o detail) :=
  exec_of_refusal serves .readPoints tag body (serveReadPoints · body) rfl o detail h

omit serves in
theorem State.snapshotPayload_qualify (s : State) (p : Port) (n : Half) (zs : List Byte) :
    (s.qualify p n).snapshotPayload zs = s.snapshotPayload zs := by
  simp only [State.snapshotPayload, State.qualify_zone]

/-! ## The answers -/

theorem exec_queryZone_of_zone {n : Byte} (h : n.toNat ≤ 31) : exec (.queryZone p tag m.number [n]) s =
    .next ((s.qualify p m.number).replied p ((Answer.mk .done 0 ([n] ++ (s.qualify p m.number).zoneReport n.toNat ++
      halfBytes (natHalf (s.qualify p m.number).safeFreeBits) ++
      halfBytes (natHalf (s.qualify p m.number).safeFreeWords))).frame tag 0x14 1)) :=
  exec_of_answer serves .queryZone tag [n] (serveQueryZone · [n]) rfl _ _ (serveQueryZone_of_zone _ _ h) rfl

theorem exec_snapshot_of_known {zs : List Byte} (hsome : zs ≠ []) (hlength : zs.length ≤ 8)
    (hzones : ∀ n ∈ zs, n.toNat ≤ 31 ∧ (n.toNat = 0 ∨ (s.zone n.toNat).isSome = true)) :
    (508 < s.snapshotPayload zs → exec (.snapshot p tag m.number zs) s =
      .next (s.refused p m tag .snapshot .tooLarge (s.snapshotPayload zs))) ∧
    (s.snapshotPayload zs ≤ 508 → exec (.snapshot p tag m.number zs) s =
      .next ((s.qualify p m.number).replied p ((Answer.mk .done (natHalf zs.length)
        ([natByte zs.length, s.epoch] ++ zs.flatMap fun n => (s.qualify p m.number).sectionOf n.toNat)).frame tag 0x21 1))) := by
  have hknown := serveSnapshot_of_known (who := m.on p) (s := s.qualify p m.number) hsome hlength
    fun n hn => by rw [State.qualify_zone]; exact hzones n hn
  rw [State.snapshotPayload_qualify, State.qualify_epoch] at hknown
  refine ⟨fun hlarge => ?_, fun hfits => ?_⟩
  · rw [if_pos hlarge] at hknown
    exact exec_snapshot_refused serves tag hknown
  · rw [if_neg (Nat.not_lt_of_le hfits)] at hknown
    exact exec_of_answer serves .snapshot tag zs (serveSnapshot · zs) rfl _ _ hknown rfl

theorem exec_readPoints_of_refs {refs : List Half} (hsome : refs ≠ []) (hlength : refs.length ≤ 32)
    (hrefs : ∀ h ∈ refs, refOutside h = false) : exec (.readPoints p tag m.number (refs.flatMap halfBytes)) s =
      .next ((s.qualify p m.number).replied p ((Answer.mk .done (natHalf refs.length) (refs.flatMap fun h =>
        if h.getLsbD 15 then
          natByte ((s.qualify p m.number).wordHolder (h.toNat - 32768)).number ::
            halfBytes ((s.qualify p m.number).word (h.toNat - 32768))
        else
          [natByte ((s.qualify p m.number).bitHolder h.toNat).number, 0,
            if (s.qualify p m.number).bit h.toNat then 1 else 0])).frame tag 0x22 1)) := by
  have hserve := serveReadPoints_of_refs (who := m.on p) (s := s.qualify p m.number) hsome hlength hrefs
  rw [funext (s.qualify p m.number).readRef_eq] at hserve
  exact exec_of_answer serves .readPoints tag _ (serveReadPoints · (refs.flatMap halfBytes)) rfl _ _ hserve rfl

theorem exec_queryTokens_of_empty : exec (.queryTokens p tag m.number []) s =
    .next ((s.qualify p m.number).replied p ((Answer.mk .done 16 (clockBytes s.clock ++
      (List.range 16).flatMap fun t => ((s.qualify p m.number).token t).report s.clock)).frame tag 0x34 1)) := by
  have hserve : serveQueryTokens (m.on p) [] (s.qualify p m.number) = (s.qualify p m.number, .done 16
      (clockBytes (s.qualify p m.number).clock ++
        (List.range 16).flatMap fun t => ((s.qualify p m.number).token t).report (s.qualify p m.number).clock)) := rfl
  rw [State.qualify_clock] at hserve
  exact exec_of_answer serves .queryTokens tag [] (serveQueryTokens · []) rfl _ _ hserve rfl

theorem exec_queryTimer_of_timer {n : Byte} (h : n.toNat ≤ 31) : exec (.queryTimer p tag m.number [n]) s =
    .next ((s.qualify p m.number).replied p ((Answer.mk .done (natHalf n.toNat)
      (timerReport (s.qualify p m.number).bits ((s.qualify p m.number).timer n.toNat))).frame tag 0x3B 1)) :=
  exec_of_answer serves .queryTimer tag [n] (serveQueryTimer · [n]) rfl _ _ (serveQueryTimer_of_timer _ _ h) rfl

theorem exec_readFaults_of_empty : exec (.readFaults p tag m.number []) s =
    .next ((s.qualify p m.number).replied p ((Answer.mk .done (natHalf s.faults.length) ([natByte s.faults.length] ++
      halfBytes s.overflow ++ [s.epoch] ++ clockBytes s.clock ++ s.faults.flatMap FaultEntry.report)).frame tag 0x53 1)) := by
  have hserve : serveReadFaults (m.on p) [] (s.qualify p m.number) = (s.qualify p m.number,
      .done (s.qualify p m.number).faults.length ([natByte (s.qualify p m.number).faults.length] ++
        halfBytes (s.qualify p m.number).overflow ++ [(s.qualify p m.number).epoch] ++ clockBytes (s.qualify p m.number).clock ++
          (s.qualify p m.number).faults.flatMap FaultEntry.report)) := rfl
  rw [State.qualify_faults, State.qualify_overflow, State.qualify_epoch, State.qualify_clock] at hserve
  exact exec_of_answer serves .readFaults tag [] (serveReadFaults · []) rfl _ _ hserve rfl

end

/-- Settles O26: the checks in the order of each rule, the answers, and the bytes of the reports. -/
theorem readingRequestsChangeNothing : Obligations.ReadingRequestsChangeNothing := by
  refine ⟨fun s p m tag serves => ?requests, fun s z hz => ⟨State.zoneReport_of_none hz, fun r hr => ?zone⟩, State.sectionOf_zero,
    fun t clock => ?token, fun bits => ⟨rfl, fun a => ?timer⟩, fun e => ?fault⟩
  case requests =>
    refine ⟨fun body => ⟨exec_reading_of_length serves tag, exec_reading_of_body serves tag,
        fun h => exec_snapshot_refused serves tag (serveSnapshot_of_length _ _ h),
        fun h => exec_readPoints_refused serves tag (serveReadPoints_of_length h)⟩,
      fun n => exec_reading_of_range serves tag, fun before after n hlength => ⟨fun hn hbefore => ?_, fun hrange hn hnone hbefore => ?_⟩,
      fun zs hsome hlength hzones => (exec_snapshot_of_known serves tag hsome hlength hzones).1,
      fun before after h hlength hout hbefore => ?_, fun n => exec_queryZone_of_zone serves tag,
      fun zs hsome hlength hzones => (exec_snapshot_of_known serves tag hsome hlength hzones).2,
      fun refs hsome hlength hrefs => ?_, exec_queryTokens_of_empty serves tag, fun n => exec_queryTimer_of_timer serves tag,
      exec_readFaults_of_empty serves tag⟩
    · exact exec_snapshot_refused serves tag (serveSnapshot_of_range hlength hn hbefore)
    · rw [← s.qualify_zone p m.number] at hnone
      exact exec_snapshot_refused serves tag (serveSnapshot_of_unknown hlength hrange hn hnone fun k hk => by
        rw [State.qualify_zone]
        exact hbefore k hk)
    · exact exec_readPoints_refused serves tag (serveReadPoints_of_range hlength
        (fun k hk => refOutside_eq_false (hbefore k hk).1 (hbefore k hk).2) (refOutside_eq_true hout))
    · exact exec_readPoints_of_refs serves tag hsome hlength fun h hh => refOutside_eq_false (hrefs h hh).1 (hrefs h hh).2
  case zone =>
    refine ⟨?report, ?bytes⟩
    case report =>
      rw [State.zoneReport_of_some hz hr, ZoneRecord.report, r.queryFlags_eq]
      obtain ⟨status, bitFirst, bitCount, wordFirst, wordCount, standby, delay, policy, rights, generation, tenure, time, epoch⟩ := r
      cases status <;> cases policy <;> dsimp only [ZoneStatus.deadline?, Option.getD] <;> exact rfl
    case bytes =>
      rw [State.sectionOf_record hz hr]
      exact rfl
  case token =>
    rw [Token.report_eq]
    cases hhold : t.hold with
    | none =>
      rw [t.remaining_of_free clock hhold]
      dsimp only [Option.elim]
      exact rfl
    | some h =>
      rw [t.remaining_of_held clock hhold]
      obtain ⟨holder, time, deadline⟩ := h
      cases deadline <;> dsimp only [Option.elim] <;> exact rfl
  case timer =>
    rw [timerReport, a.queryFlags_eq, natByte_flagNat]
    obtain ⟨kind, source, resetBit, base, preset, count, done, phase, since, session, undefined⟩ := a
    cases resetBit <;> dsimp only [Option.elim] <;> exact rfl
  case fault =>
    rw [FaultEntry.report, faultFlags_eq]
    exact rfl

end Sys2Proof.Machine
end
